-- ==== Sys2Proof/Word.lean ====
section
/-!
DEFINITION. The sizes of R4 (spec/00_scope.md): byte, half, word and dword, the 1,024-bit vector register of R264,
the accumulator tile of R292, and the plainest reading of a bit range of R5.
-/
namespace Sys2Proof

/-- A byte: 8 bits (R4). -/
abbrev Byte := BitVec 8
/-- A half: 16 bits (R4). -/
abbrev Half := BitVec 16
/-- A word: 32 bits (R4). -/
abbrev Word := BitVec 32
/-- A dword: 64 bits (R4). -/
abbrev Dword := BitVec 64
/-- A vector register: 1,024 bits (R264). -/
abbrev Vec := BitVec 1024
/-- A SHA-384 digest, and a signature over the 384-bit Brainpool curve (R2). -/
abbrev Digest := BitVec 384
abbrev Signature := BitVec 768
/-- An accumulator tile: 16 x 16 elements of 32 bits (R292). -/
abbrev Tile := BitVec 8192

end Sys2Proof
end

