-- ==== Sys2Proof/Syntax.lean ====
section
/-!
DEFINITION. The syntax of the LX9's steps: the operand records of Progeaz instructions and the ONE inductive Instr, with a
constructor for every row of spec/opcode_table.json. The rows with an encoding are the instructions a core issues; the rows
without one are the machine's own steps (spec/95_what_each_step_holds.md), whose arguments say where the step happens.

Operands are normalised: form N of R144 (A := A op B) is held as form X with x = A, since the two mean the same
(R170). Register numbers are Fin, immediates are Int or Nat.
-/
namespace Sys2Proof

/-- A general register number (R153). -/
abbrev GReg := Fin 64
/-- A vector register number (R153). -/
abbrev VReg := Fin 32
/-- A predicate register number (R153). -/
abbrev PReg := Fin 8
/-- An accumulator tile number (R153). -/
abbrev MReg := Fin 8
/-- A narrow-format register number (R119, R153). -/
abbrev NfReg := Fin 8

/-- ORD of the PRED prefix (R80). -/
inductive Order where
  | rlx | acq | rel | ar
deriving DecidableEq, Repr, Inhabited

/-- SCOPE of the PRED prefix (R79). -/
inductive Scope where
  | core | clu | die | dev | sys
deriving DecidableEq, Repr, Inhabited

/-- Integer width of MOD 0 and 1 (R171). -/
inductive Width where
  | d | w
deriving DecidableEq, Repr, Inhabited

/-- Access size of MOD 0 to 3 (R213). -/
inductive Size where
  | d | w | h | b
deriving DecidableEq, Repr, Inhabited

/-- Floating format of MOD 0 to 3 (R183). -/
inductive FFmt where
  | f32 | f64 | f16 | bf16
deriving DecidableEq, Repr, Inhabited

/-- Integer element width of MOD 0 to 3 (R190, R264). -/
inductive IWidth where
  | i64 | i32 | i16 | i8
deriving DecidableEq, Repr, Inhabited

/-- Rounding selector 0 to 4 (R123). -/
inductive RSel where
  | dyn | rne | rtz | rdn | rup
deriving DecidableEq, Repr, Inhabited

/-- What every instruction carries beside its operands: the switch marker S (R147) and the governing predicate with its
inversion (R145). -/
structure Pre where
  sw : Bool
  neg : Bool
  pn : PReg
deriving DecidableEq, Repr, Inhabited

/-- Order and scope of an ordered instruction (R80). -/
structure OrdSc where
  ord : Order
  scope : Scope
deriving DecidableEq, Repr, Inhabited

/-- The order of an instruction with no PRED order: relaxed at core scope (R80). -/
def OrdSc.plain : OrdSc := { ord := .rlx, scope := .core }

/-- A second source: a register or an immediate (R144). -/
inductive Src where
  | reg (r : GReg)
  | imm (v : Int)
deriving DecidableEq, Repr, Inhabited

/-- The offset of a memory operand: forms N, X and XI of R144. -/
inductive Off where
  | none
  | reg (r : GReg)
  | imm (v : Int)
deriving DecidableEq, Repr, Inhabited

/-- A second vector source: a vector register, or a broadcast general register with BC = 1 (R267). -/
inductive VSrc where
  | v (r : VReg)
  | g (r : GReg)
deriving DecidableEq, Repr, Inhabited

/-- The data of a posted store (R225). -/
inductive StpData where
  | g (size : Size) (r : GReg)
  | v (r : VReg)
deriving DecidableEq, Repr, Inhabited

/-- A core of a package: n below 8,192 is a core number of R15, 8,192 + k is fault processor k (R356). -/
structure CoreId where
  pkg : Nat
  n : Nat
deriving DecidableEq, Repr, Inhabited

/-- Why a word chain is no instruction: the CAUSE of class illegal, the AUX word (R455), and whether the slot it names is
privileged, which at level U takes precedence over rows 4 to 6 of R455. -/
structure DecErr where
  cause : Nat
  aux : Nat
  priv : Bool
deriving DecidableEq, Repr, Inhabited

/-- Where an uncorrectable error is found (R422). -/
inductive ErrSite where
  /-- The 8 bytes at a local address of the package (untranslated). -/
  | data (loc : Nat)
  /-- Registers or slot state of a thread. -/
  | thread (core slot : Nat)
  /-- The shared state of a crew: inbox, eddy entries, reel units, queues, latches. -/
  | crew (core crew : Nat)
  /-- Instruction memory of a core, in a segment. -/
  | imem (core seg : Nat)
  /-- An entry of the range cache or of the shard translation cache of a cluster. -/
  | cacheEntry (cluster : Nat)
  /-- The TLB entry of a page at a stack's gateway port: its place among the stack's. -/
  | tlbEntry (stack k : Nat)
  /-- An entry of a die's header cache. -/
  | headerEntry (die : Nat)
  /-- A line at rest, found by the scrubber. -/
  | scrubbed (loc : Nat)
deriving DecidableEq, Repr, Inhabited

/-- The 64-byte record that the host writes into HFAULT (R434), as its dwords in order. -/
structure HFaultRec where
  d0 : Dword
  page : Dword
  addr : Dword
  rpkg : Dword
deriving DecidableEq, Repr, Inhabited

/-- A firmware image as the Delian die sees it (R445): its payload, its signature and its version. -/
structure FwImage where
  payload : List Byte
  sig : Signature
  version : Nat
deriving DecidableEq, Repr, Inhabited

/-- A point of the curve of R2. -/
structure CurvePoint where
  x : Nat
  y : Nat
deriving DecidableEq, Repr, Inhabited

/-- A class of a fabric link whose mode is AUTH: package, port, class (R439). -/
structure LinkClass where
  pkg : Nat
  port : Nat
  cls : Nat
deriving DecidableEq, Repr, Inhabited

/-- An axis of a job (R436, R439): its size, and the classes of links of the axis that level M sets to AUTH. -/
structure JobAxis where
  size : Nat
  auth : List LinkClass := []
deriving DecidableEq, Repr, Inhabited

/-- The queue of one sender's messages at a fault processor (R361): the processor, and which of the senders that wait there. -/
structure NoteQueue where
  fp : Nat
  k : Nat
deriving DecidableEq, Repr, Inhabited

/-- A window of a function's BARs (R429): the registers, HBM, or the scratchpads and pools. -/
inductive HostBar where
  | regs | hbm | sram
deriving DecidableEq, Repr, Inhabited

/-- What boot finds outside the architecture (R444, R448, R449): per core a harvested MAXROWS (16 where unlisted), the defective cores (cluster
and physical core, 0 to 16), the stacks that fail their test, and the instruction memory image of the fault processors. -/
structure BootIn where
  harvest : List (Nat × Nat)
  defects : List (Nat × Nat)
  badStacks : List Nat
  fpCode : List (Nat × Byte)
deriving DecidableEq, Repr, Inhabited

/-- R173, R174, R177, R181: `res := x op y` at width MOD. -/
structure AluOps where
  pre : Pre
  w : Width
  rd : GReg
  x : GReg
  y : Src
deriving DecidableEq, Repr, Inhabited

/-- R178: two register operands at width MOD. -/
structure MulhOps where
  pre : Pre
  w : Width
  rd : GReg
  x : GReg
  y : GReg
deriving DecidableEq, Repr, Inhabited

/-- R175. -/
structure MovOps where
  pre : Pre
  rd : GReg
  y : Src
deriving DecidableEq, Repr, Inhabited

/-- R179: bit field of `len` bits from `pos`. -/
structure BitfOps where
  pre : Pre
  rd : GReg
  x : GReg
  pos : Nat
  len : Nat
deriving DecidableEq, Repr, Inhabited

/-- R180: one register operand. -/
structure UnOps where
  pre : Pre
  w : Width
  rd : GReg
  x : GReg
deriving DecidableEq, Repr, Inhabited

/-- R182: `gB + gC * 2^sh`. -/
structure AddshOps where
  pre : Pre
  rd : GReg
  x : GReg
  y : GReg
  sh : Fin 8
deriving DecidableEq, Repr, Inhabited

/-- R182: the upper half of gA. -/
structure MovhOps where
  pre : Pre
  rd : GReg
  imm : Nat
deriving DecidableEq, Repr, Inhabited

/-- R184 to R186: two floating operands and a rounding selector. -/
structure FpOps where
  pre : Pre
  fmt : FFmt
  rm : RSel
  rd : GReg
  x : GReg
  y : GReg
deriving DecidableEq, Repr, Inhabited

/-- R187: minimum and maximum. -/
structure Fp2Ops where
  pre : Pre
  fmt : FFmt
  rd : GReg
  x : GReg
  y : GReg
deriving DecidableEq, Repr, Inhabited

/-- R187, R188: sign operations and classification. -/
structure Fp1Ops where
  pre : Pre
  fmt : FFmt
  rd : GReg
  x : GReg
deriving DecidableEq, Repr, Inhabited

/-- R186, R192: one floating operand and a rounding selector. -/
structure Fp1ROps where
  pre : Pre
  fmt : FFmt
  rm : RSel
  rd : GReg
  x : GReg
deriving DecidableEq, Repr, Inhabited

/-- R188: floating compare into a predicate. -/
structure FcmpOps where
  pre : Pre
  fmt : FFmt
  pd : PReg
  x : GReg
  y : GReg
deriving DecidableEq, Repr, Inhabited

/-- R189: conversion between floating formats. -/
structure FcvtOps where
  pre : Pre
  dst : FFmt
  src : FFmt
  rm : RSel
  rd : GReg
  x : GReg
deriving DecidableEq, Repr, Inhabited

/-- R190: conversion between floating point and integers. -/
structure FintOps where
  pre : Pre
  fmt : FFmt
  iw : IWidth
  rm : RSel
  rd : GReg
  x : GReg
deriving DecidableEq, Repr, Inhabited

/-- R191: conversion between FP32 and a narrow format. -/
structure FnarOps where
  pre : Pre
  sat : Bool
  rm : RSel
  nf : NfReg
  rd : GReg
  x : GReg
deriving DecidableEq, Repr, Inhabited

/-- R176: integer compare into a predicate. -/
structure CmpOps where
  pre : Pre
  w : Width
  pd : PReg
  x : GReg
  y : Src
deriving DecidableEq, Repr, Inhabited

/-- R193: lane-by-lane predicate logic. -/
structure PredOps where
  pre : Pre
  pd : PReg
  x : PReg
  y : PReg
deriving DecidableEq, Repr, Inhabited

/-- R194. -/
structure PsetOps where
  pre : Pre
  pd : PReg
  imm : Nat
deriving DecidableEq, Repr, Inhabited

/-- R194. -/
structure PsetgOps where
  pre : Pre
  pd : PReg
  x : GReg
deriving DecidableEq, Repr, Inhabited

/-- R194. -/
structure PgetgOps where
  pre : Pre
  rd : GReg
  x : PReg
deriving DecidableEq, Repr, Inhabited

/-- R195: one lane of all eight predicates. -/
structure PpackOps where
  pre : Pre
  g : GReg
  lane : Fin 32
deriving DecidableEq, Repr, Inhabited

/-- R196: quarter k of a vector register. -/
structure PsaveOps where
  pre : Pre
  v : VReg
  k : Fin 4
deriving DecidableEq, Repr, Inhabited

/-- R198, R199: branch on a predicate; the offset counts instruction words. -/
structure BrOps where
  sw : Bool
  neg : Bool
  pn : PReg
  off : Int
deriving DecidableEq, Repr, Inhabited

/-- R200. -/
structure CallOps where
  pre : Pre
  link : GReg
  off : Int
deriving DecidableEq, Repr, Inhabited

/-- R201. -/
structure JmpOps where
  pre : Pre
  link : GReg
  tgt : GReg
deriving DecidableEq, Repr, Inhabited

/-- R203. -/
structure JovOps where
  pre : Pre
  g : GReg
  target : Nat
deriving DecidableEq, Repr, Inhabited

/-- R204, R205. -/
structure FrameOps where
  pre : Pre
  n : Nat
deriving DecidableEq, Repr, Inhabited

/-- R206: trap or break code. -/
structure CodeOps where
  pre : Pre
  code : Fin 32
deriving DecidableEq, Repr, Inhabited

/-- R207. -/
structure TretOps where
  pre : Pre
  g : GReg
deriving DecidableEq, Repr, Inhabited

/-- R208: special register number. -/
structure SrOps where
  pre : Pre
  g : GReg
  num : Nat
deriving DecidableEq, Repr, Inhabited

/-- R209: service number. -/
structure EcallOps where
  pre : Pre
  n : Nat
deriving DecidableEq, Repr, Inhabited

/-- an instruction whose only fields are the marker and the predicate. -/
structure BareOps where
  pre : Pre
deriving DecidableEq, Repr, Inhabited

/-- two general registers, gB and gC, and no destination (R361, R405, R309). -/
structure BcOps where
  pre : Pre
  b : GReg
  c : GReg
deriving DecidableEq, Repr, Inhabited

/-- one general destination register (R361, R259, R313, R338). -/
structure RdOps where
  pre : Pre
  rd : GReg
deriving DecidableEq, Repr, Inhabited

/-- one general source register (R257, R339). -/
structure RbOps where
  pre : Pre
  b : GReg
deriving DecidableEq, Repr, Inhabited

/-- R213, R215, R244, R246: scalar access with its data register. -/
structure MemOps where
  pre : Pre
  os : OrdSc
  size : Size
  data : GReg
  base : GReg
  off : Off
deriving DecidableEq, Repr, Inhabited

/-- R218. -/
structure VMemOps where
  pre : Pre
  v : VReg
  base : GReg
  off : Off
deriving DecidableEq, Repr, Inhabited

/-- R220: base gB, offset vector, scale. -/
structure GathOps where
  pre : Pre
  sc : Fin 4
  v : VReg
  base : GReg
  idx : VReg
deriving DecidableEq, Repr, Inhabited

/-- R221: fragment load; `half` is MOD 1. -/
structure LdfOps where
  pre : Pre
  half : Bool
  v : VReg
  base : GReg
  pitch : GReg
deriving DecidableEq, Repr, Inhabited

/-- R222. -/
structure FenceOps where
  pre : Pre
  os : OrdSc
deriving DecidableEq, Repr, Inhabited

/-- R226: posted line fetch. -/
structure GetlOps where
  pre : Pre
  os : OrdSc
  fill : Bool
  dst : GReg
  src : GReg
  flag : Option GReg
deriving DecidableEq, Repr, Inhabited

/-- R225: posted store; the data is a general or a vector register. -/
structure StpOps where
  pre : Pre
  os : OrdSc
  wt : Bool
  fill : Bool
  data : StpData
  base : GReg
  flag : Option GReg
deriving DecidableEq, Repr, Inhabited

/-- R228: returning atomic. -/
structure AtomOps where
  pre : Pre
  os : OrdSc
  w : Width
  rd : GReg
  base : GReg
  y : Src
deriving DecidableEq, Repr, Inhabited

/-- R229. -/
structure AcasOps where
  pre : Pre
  os : OrdSc
  w : Width
  rd : GReg
  base : GReg
  c : GReg
deriving DecidableEq, Repr, Inhabited

/-- R230: posted integer reduction. -/
structure RedOps where
  pre : Pre
  os : OrdSc
  w : Width
  data : GReg
  base : GReg
  flag : Option GReg
deriving DecidableEq, Repr, Inhabited

/-- R231: returning floating add. -/
structure AfaddOps where
  pre : Pre
  os : OrdSc
  rd : GReg
  base : GReg
  y : GReg
deriving DecidableEq, Repr, Inhabited

/-- R231: posted floating add. -/
structure RedFaddOps where
  pre : Pre
  os : OrdSc
  data : GReg
  base : GReg
  flag : Option GReg
deriving DecidableEq, Repr, Inhabited

/-- R232: tile atomic add. -/
structure TaddOps where
  pre : Pre
  os : OrdSc
  v : VReg
  base : GReg
  flag : Option GReg
deriving DecidableEq, Repr, Inhabited

/-- R237: target core in gB, start point in gC or an immediate PC. -/
structure SpawnOps where
  pre : Pre
  rd : GReg
  b : GReg
  start : Src
deriving DecidableEq, Repr, Inhabited

/-- R247. -/
structure FclrOps where
  pre : Pre
  os : OrdSc
  b : GReg
deriving DecidableEq, Repr, Inhabited

/-- R248: the count is a register or an immediate. -/
structure WaitcOps where
  pre : Pre
  rd : GReg
  b : GReg
  n : Src
deriving DecidableEq, Repr, Inhabited

/-- three general registers (R250, R253, R308, R328). -/
structure RrrOps where
  pre : Pre
  rd : GReg
  b : GReg
  c : GReg
deriving DecidableEq, Repr, Inhabited

/-- R254, R255: reel unit k. -/
structure BarOps where
  pre : Pre
  g : GReg
  k : Fin 4
deriving DecidableEq, Repr, Inhabited

/-- R255. -/
structure BarTestOps where
  pre : Pre
  rd : GReg
  x : GReg
  k : Fin 4
deriving DecidableEq, Repr, Inhabited

/-- R256. -/
structure GrowOps where
  pre : Pre
  rd : GReg
  y : Src
deriving DecidableEq, Repr, Inhabited

/-- R242. -/
structure WsplitOps where
  pre : Pre
  rd : GReg
  b : GReg
deriving DecidableEq, Repr, Inhabited

/-- R270, R271: vector floating arithmetic. -/
structure VFpOps where
  pre : Pre
  fmt : FFmt
  rm : RSel
  vd : VReg
  x : VReg
  y : VSrc
deriving DecidableEq, Repr, Inhabited

/-- R272, R283: one vector operand and a rounding selector. -/
structure VFp1ROps where
  pre : Pre
  fmt : FFmt
  rm : RSel
  vd : VReg
  x : VReg
deriving DecidableEq, Repr, Inhabited

/-- R273: minimum and maximum. -/
structure VFp2Ops where
  pre : Pre
  fmt : FFmt
  vd : VReg
  x : VReg
  y : VReg
deriving DecidableEq, Repr, Inhabited

/-- R273: sign operations. -/
structure VFp1Ops where
  pre : Pre
  fmt : FFmt
  vd : VReg
  x : VReg
deriving DecidableEq, Repr, Inhabited

/-- R274: floating compare. -/
structure VFcmpOps where
  pre : Pre
  fmt : FFmt
  pd : PReg
  x : VReg
  y : VSrc
  sel : Nat
deriving DecidableEq, Repr, Inhabited

/-- R274: integer compare. -/
structure VIcmpOps where
  pre : Pre
  iw : IWidth
  pd : PReg
  x : VReg
  y : VSrc
  sel : Nat
deriving DecidableEq, Repr, Inhabited

/-- R275, R277: integer arithmetic, logic and shifts. -/
structure VIntOps where
  pre : Pre
  iw : IWidth
  vd : VReg
  x : VReg
  y : VSrc
deriving DecidableEq, Repr, Inhabited

/-- R276, R284: two vector operands. -/
structure VVVOps where
  pre : Pre
  iw : IWidth
  vd : VReg
  x : VReg
  y : VReg
deriving DecidableEq, Repr, Inhabited

/-- R276: narrowing and widening; q names the group. -/
structure VNarOps where
  pre : Pre
  iw : IWidth
  q : Bool
  vd : VReg
  x : VReg
deriving DecidableEq, Repr, Inhabited

/-- R277, R278, R288: one vector operand. -/
structure VUnOps where
  pre : Pre
  iw : IWidth
  vd : VReg
  x : VReg
deriving DecidableEq, Repr, Inhabited

/-- R278. -/
structure VselOps where
  pre : Pre
  iw : IWidth
  vd : VReg
  x : VReg
  y : VReg
  k : PReg
deriving DecidableEq, Repr, Inhabited

/-- R278. -/
structure VbcastOps where
  pre : Pre
  iw : IWidth
  vd : VReg
  g : GReg
deriving DecidableEq, Repr, Inhabited

/-- R278. -/
structure VextOps where
  pre : Pre
  iw : IWidth
  rd : GReg
  x : VReg
  i : Nat
deriving DecidableEq, Repr, Inhabited

/-- R278. -/
structure VinsOps where
  pre : Pre
  iw : IWidth
  vd : VReg
  g : GReg
  i : Nat
deriving DecidableEq, Repr, Inhabited

/-- R279. -/
structure VFcvtOps where
  pre : Pre
  dst : FFmt
  src : FFmt
  rm : RSel
  q : Fin 4
  vd : VReg
  x : VReg
deriving DecidableEq, Repr, Inhabited

/-- R280. -/
structure VFintOps where
  pre : Pre
  fmt : FFmt
  rm : RSel
  vd : VReg
  x : VReg
deriving DecidableEq, Repr, Inhabited

/-- R281: group q of narrow elements. -/
structure VFnarOps where
  pre : Pre
  sat : Bool
  rm : RSel
  nf : NfReg
  q : Fin 8
  vd : VReg
  x : VReg
deriving DecidableEq, Repr, Inhabited

/-- R282. -/
structure VmxscOps where
  pre : Pre
  rd : GReg
  x : VReg
  nf : NfReg
deriving DecidableEq, Repr, Inhabited

/-- R282: block q under the scale in g. -/
structure VmxOps where
  pre : Pre
  rm : RSel
  nf : NfReg
  q : Fin 8
  vd : VReg
  x : VReg
  g : GReg
deriving DecidableEq, Repr, Inhabited

/-- R285. -/
structure VpermOps where
  pre : Pre
  iw : IWidth
  vd : VReg
  x : VReg
  mode : Fin 4
  k : Nat
deriving DecidableEq, Repr, Inhabited

/-- R286: lane groups of 2^gs elements. -/
structure VrotOps where
  pre : Pre
  iw : IWidth
  gs : Nat
  vd : VReg
  x : VReg
  y : Src
deriving DecidableEq, Repr, Inhabited

/-- R287. -/
structure VvoteOps where
  pre : Pre
  pd : PReg
  x : PReg
  gs : Nat
deriving DecidableEq, Repr, Inhabited

/-- R287. -/
structure VballotOps where
  pre : Pre
  rd : GReg
  x : PReg
deriving DecidableEq, Repr, Inhabited

/-- R289: floating reduction. -/
structure VFredOps where
  pre : Pre
  fmt : FFmt
  rm : RSel
  gs : Nat
  vd : VReg
  x : VReg
deriving DecidableEq, Repr, Inhabited

/-- R289: integer reduction. -/
structure VIredOps where
  pre : Pre
  iw : IWidth
  gs : Nat
  vd : VReg
  x : VReg
deriving DecidableEq, Repr, Inhabited

/-- R290: floating scan. -/
structure VFscanOps where
  pre : Pre
  fmt : FFmt
  rm : RSel
  ex : Bool
  gs : Nat
  vd : VReg
  x : VReg
deriving DecidableEq, Repr, Inhabited

/-- R290: integer scan. -/
structure VIscanOps where
  pre : Pre
  iw : IWidth
  ex : Bool
  gs : Nat
  vd : VReg
  x : VReg
deriving DecidableEq, Repr, Inhabited

/-- R300: matrix product; no B register means the ring latch. `half` is MOD 1 of `mma`. -/
structure MmaOps where
  pre : Pre
  half : Bool
  z : Bool
  t : MReg
  a : GReg
  b : Option GReg
deriving DecidableEq, Repr, Inhabited

/-- R300: integer matrix product. -/
structure MmaIOps where
  pre : Pre
  z : Bool
  sat : Bool
  sa : Bool
  sb : Bool
  t : MReg
  a : GReg
  b : Option GReg
deriving DecidableEq, Repr, Inhabited

/-- R302, R306: one tile. -/
structure TileOps where
  pre : Pre
  t : MReg
deriving DecidableEq, Repr, Inhabited

/-- R302. -/
structure MloadOps where
  pre : Pre
  t : MReg
  b : GReg
deriving DecidableEq, Repr, Inhabited

/-- R303: drain of KIND 0 or 1; `i32` is MOD 1 of KIND 1. -/
structure MdrainOps where
  pre : Pre
  os : OrdSc
  note : Bool
  i32 : Bool
  t : MReg
  b : GReg
  flag : Option GReg
deriving DecidableEq, Repr, Inhabited

/-- R303, R304: requantising drain. -/
structure MdrainQOps where
  pre : Pre
  os : OrdSc
  note : Bool
  u : Bool
  t : MReg
  b : GReg
  param : GReg
deriving DecidableEq, Repr, Inhabited

/-- R307. -/
structure MrdOps where
  pre : Pre
  v : VReg
  t : MReg
  h : Fin 8
deriving DecidableEq, Repr, Inhabited

/-- R312: size class. -/
structure MringOps where
  pre : Pre
  cls : Fin 4
  b : GReg
deriving DecidableEq, Repr, Inhabited

/-- R314. -/
structure MfmtOps where
  pre : Pre
  nf : NfReg
  x : GReg
deriving DecidableEq, Repr, Inhabited

/-- R314. -/
structure MfmtrOps where
  pre : Pre
  rd : GReg
  nf : NfReg
deriving DecidableEq, Repr, Inhabited

/-- R319. -/
structure ShapeOps where
  pre : Pre
  vd : VReg
  x : VReg
deriving DecidableEq, Repr, Inhabited

/-- R320. -/
structure CopyOps where
  pre : Pre
  os : OrdSc
  v : VReg
  b : GReg
deriving DecidableEq, Repr, Inhabited

/-- R326, R327: handle gB, coordinates gC and gC+1. -/
structure ShardOps where
  pre : Pre
  os : OrdSc
  sx : Bool
  rd : GReg
  b : GReg
  c : GReg
deriving DecidableEq, Repr, Inhabited

/-- R329. -/
structure CfetchOps where
  pre : Pre
  os : OrdSc
  b : GReg
  flag : Option GReg
deriving DecidableEq, Repr, Inhabited

/-- R331. -/
structure AmpOps where
  pre : Pre
  os : OrdSc
  b : GReg
deriving DecidableEq, Repr, Inhabited

/-- R336. -/
structure CollOps where
  pre : Pre
  os : OrdSc
  b : GReg
  c : GReg
deriving DecidableEq, Repr, Inhabited

/-- R340. -/
structure BaddqOps where
  pre : Pre
  rm : RSel
  nf : NfReg
  vd : VReg
  x : VReg
  y : VReg
deriving DecidableEq, Repr, Inhabited

/-- The steps of the LX9: one constructor per row of spec/opcode_table.json, in the table's order. -/
inductive Instr where
  /-- ADD (R173). -/
  | add (o : AluOps)
  /-- SUB (R173). -/
  | sub (o : AluOps)
  /-- AND (R173). -/
  | and (o : AluOps)
  /-- OR (R173). -/
  | or (o : AluOps)
  /-- XOR (R173). -/
  | xor (o : AluOps)
  /-- SHL (R174). -/
  | shl (o : AluOps)
  /-- SHR (R174). -/
  | shr (o : AluOps)
  /-- SAR (R174). -/
  | sar (o : AluOps)
  /-- MUL (R173). -/
  | mul (o : AluOps)
  /-- MOV (R175). -/
  | mov (o : MovOps)
  /-- LD (R213). -/
  | ld (o : MemOps)
  /-- ST (R213). -/
  | st (o : MemOps)
  /-- VLD (R218). -/
  | vld (o : VMemOps)
  /-- VST (R218). -/
  | vst (o : VMemOps)
  /-- BR (R198). -/
  | br (o : BrOps)
  /-- CALL (R200). -/
  | call (o : CallOps)
  /-- JMP (R201). -/
  | jmp (o : JmpOps)
  /-- CEQ (R176). -/
  | ceq (o : CmpOps)
  /-- CLT (R176). -/
  | clt (o : CmpOps)
  /-- CLTU (R176). -/
  | cltu (o : CmpOps)
  /-- FADD (R184). -/
  | fadd (o : FpOps)
  /-- FMUL (R184). -/
  | fmul (o : FpOps)
  /-- FFMA (R184). -/
  | ffma (o : FpOps)
  /-- FSUB (R184). -/
  | fsub (o : FpOps)
  /-- VADD (R270). -/
  | vadd (o : VFpOps)
  /-- VMUL (R270). -/
  | vmul (o : VFpOps)
  /-- VFMA (R270). -/
  | vfma (o : VFpOps)
  /-- DIV (R177). -/
  | div (o : AluOps)
  /-- DIVU (R177). -/
  | divu (o : AluOps)
  /-- REM (R177). -/
  | rem (o : AluOps)
  /-- REMU (R177). -/
  | remu (o : AluOps)
  /-- MULH (R178). -/
  | mulh (o : MulhOps)
  /-- MULHU (R178). -/
  | mulhu (o : MulhOps)
  /-- MULHSU (R178). -/
  | mulhsu (o : MulhOps)
  /-- BFX (R179). -/
  | bfx (o : BitfOps)
  /-- BFXU (R179). -/
  | bfxu (o : BitfOps)
  /-- BFI (R179). -/
  | bfi (o : BitfOps)
  /-- CLZ (R180). -/
  | clz (o : UnOps)
  /-- CTZ (R180). -/
  | ctz (o : UnOps)
  /-- POPC (R180). -/
  | popc (o : UnOps)
  /-- BSWAP (R180). -/
  | bswap (o : UnOps)
  /-- SEXT_B (R180). -/
  | sextB (o : UnOps)
  /-- SEXT_H (R180). -/
  | sextH (o : UnOps)
  /-- SEXT_W (R180). -/
  | sextW (o : UnOps)
  /-- ZEXT_B (R180). -/
  | zextB (o : UnOps)
  /-- ZEXT_H (R180). -/
  | zextH (o : UnOps)
  /-- ZEXT_W (R180). -/
  | zextW (o : UnOps)
  /-- MIN (R181). -/
  | min (o : AluOps)
  /-- MAX (R181). -/
  | max (o : AluOps)
  /-- MINU (R181). -/
  | minu (o : AluOps)
  /-- MAXU (R181). -/
  | maxu (o : AluOps)
  /-- ADDSAT (R181). -/
  | addsat (o : AluOps)
  /-- SUBSAT (R181). -/
  | subsat (o : AluOps)
  /-- ADDSATU (R181). -/
  | addsatu (o : AluOps)
  /-- SUBSATU (R181). -/
  | subsatu (o : AluOps)
  /-- ADDSH (R182). -/
  | addsh (o : AddshOps)
  /-- MOVH (R182). -/
  | movh (o : MovhOps)
  /-- FADD_ROUNDED (R185). -/
  | faddRounded (o : FpOps)
  /-- FSUB_ROUNDED (R185). -/
  | fsubRounded (o : FpOps)
  /-- FMUL_ROUNDED (R185). -/
  | fmulRounded (o : FpOps)
  /-- FFMA_ROUNDED (R185). -/
  | ffmaRounded (o : FpOps)
  /-- FFMS (R185). -/
  | ffms (o : FpOps)
  /-- FNMA (R185). -/
  | fnma (o : FpOps)
  /-- FDIV (R186). -/
  | fdiv (o : FpOps)
  /-- FSQRT (R186). -/
  | fsqrt (o : Fp1ROps)
  /-- FMIN (R187). -/
  | fmin (o : Fp2Ops)
  /-- FMAX (R187). -/
  | fmax (o : Fp2Ops)
  /-- FABS (R187). -/
  | fabs (o : Fp1Ops)
  /-- FNEG (R187). -/
  | fneg (o : Fp1Ops)
  /-- FCEQ (R188). -/
  | fceq (o : FcmpOps)
  /-- FCLT (R188). -/
  | fclt (o : FcmpOps)
  /-- FCLE (R188). -/
  | fcle (o : FcmpOps)
  /-- FCUN (R188). -/
  | fcun (o : FcmpOps)
  /-- FCLASS (R188). -/
  | fclass (o : Fp1Ops)
  /-- FCVT (R189). -/
  | fcvt (o : FcvtOps)
  /-- FTOI (R190). -/
  | ftoi (o : FintOps)
  /-- FTOIU (R190). -/
  | ftoiu (o : FintOps)
  /-- ITOF (R190). -/
  | itof (o : FintOps)
  /-- IUTOF (R190). -/
  | iutof (o : FintOps)
  /-- FTON (R191). -/
  | fton (o : FnarOps)
  /-- NTOF (R191). -/
  | ntof (o : FnarOps)
  /-- FEXP2 (R192). -/
  | fexp2 (o : Fp1ROps)
  /-- FLOG2 (R192). -/
  | flog2 (o : Fp1ROps)
  /-- FRCP (R192). -/
  | frcp (o : Fp1ROps)
  /-- FRSQRT (R192). -/
  | frsqrt (o : Fp1ROps)
  /-- FSINPI (R192). -/
  | fsinpi (o : Fp1ROps)
  /-- FCOSPI (R192). -/
  | fcospi (o : Fp1ROps)
  /-- PAND (R193). -/
  | pand (o : PredOps)
  /-- POR (R193). -/
  | por (o : PredOps)
  /-- PXOR (R193). -/
  | pxor (o : PredOps)
  /-- PANDN (R193). -/
  | pandn (o : PredOps)
  /-- PSET (R194). -/
  | pset (o : PsetOps)
  /-- PSETG (R194). -/
  | psetg (o : PsetgOps)
  /-- PGETG (R194). -/
  | pgetg (o : PgetgOps)
  /-- PPOPC (R194). -/
  | ppopc (o : PgetgOps)
  /-- PPACK (R195). -/
  | ppack (o : PpackOps)
  /-- PUNPACK (R195). -/
  | punpack (o : PpackOps)
  /-- PSAVE (R196). -/
  | psave (o : PsaveOps)
  /-- PREST (R196). -/
  | prest (o : PsaveOps)
  /-- JOV (R203). -/
  | jov (o : JovOps)
  /-- ENTER (R204). -/
  | enter (o : FrameOps)
  /-- LEAVE (R205). -/
  | leave (o : FrameOps)
  /-- TRAP (R206). -/
  | trap (o : CodeOps)
  /-- BRK (R206). -/
  | brk (o : CodeOps)
  /-- BANY (R199). -/
  | bany (o : BrOps)
  /-- BALL (R199). -/
  | ball (o : BrOps)
  /-- TRET (R207). -/
  | tret (o : TretOps)
  /-- SRR (R208). -/
  | srr (o : SrOps)
  /-- SRW (R208). -/
  | srw (o : SrOps)
  /-- MBXS (R361). -/
  | mbxs (o : BcOps)
  /-- MBXR (R361). -/
  | mbxr (o : RdOps)
  /-- WFI (R361). -/
  | wfi (o : BareOps)
  /-- ECALL (R209). -/
  | ecall (o : EcallOps)
  /-- TLBSD_INVAL (R406). -/
  | tlbsdInval (o : BcOps)
  /-- TLBSD_TRANSIT (R406). -/
  | tlbsdTransit (o : BcOps)
  /-- TLBSD_LAND (R417). -/
  | tlbsdLand (o : BcOps)
  /-- TLBSD_DISCARD (R418). -/
  | tlbsdDiscard (o : BcOps)
  /-- TLBSD_RANGES (R406). -/
  | tlbsdRanges (o : BcOps)
  /-- TLBSD_RESUME (R413). -/
  | tlbsdResume (o : BcOps)
  /-- TLBSD_REFUSE (R413). -/
  | tlbsdRefuse (o : BcOps)
  /-- LD_SIGNED (R215). -/
  | ldSigned (o : MemOps)
  /-- LDO (R215). -/
  | ldo (o : MemOps)
  /-- LDO_SIGNED (R215). -/
  | ldoSigned (o : MemOps)
  /-- STO (R215). -/
  | sto (o : MemOps)
  /-- VGATHER_W (R220). -/
  | vgatherW (o : GathOps)
  /-- VGATHER_D (R220). -/
  | vgatherD (o : GathOps)
  /-- VSCATTER_W (R220). -/
  | vscatterW (o : GathOps)
  /-- VSCATTER_D (R220). -/
  | vscatterD (o : GathOps)
  /-- LDF (R221). -/
  | ldf (o : LdfOps)
  /-- FENCE (R222). -/
  | fence (o : FenceOps)
  /-- FENCE_SC (R222). -/
  | fenceSc (o : FenceOps)
  /-- GETL (R226). -/
  | getl (o : GetlOps)
  /-- STP (R225). -/
  | stp (o : StpOps)
  /-- AADD (R228). -/
  | aadd (o : AtomOps)
  /-- AMIN (R228). -/
  | amin (o : AtomOps)
  /-- AMAX (R228). -/
  | amax (o : AtomOps)
  /-- AMINU (R228). -/
  | aminu (o : AtomOps)
  /-- AMAXU (R228). -/
  | amaxu (o : AtomOps)
  /-- AAND (R228). -/
  | aand (o : AtomOps)
  /-- AOR (R228). -/
  | aor (o : AtomOps)
  /-- AXOR (R228). -/
  | axor (o : AtomOps)
  /-- ASWP (R228). -/
  | aswp (o : AtomOps)
  /-- ACAS (R229). -/
  | acas (o : AcasOps)
  /-- RED_ADD (R230). -/
  | redAdd (o : RedOps)
  /-- RED_MIN (R230). -/
  | redMin (o : RedOps)
  /-- RED_MAX (R230). -/
  | redMax (o : RedOps)
  /-- RED_MINU (R230). -/
  | redMinu (o : RedOps)
  /-- RED_MAXU (R230). -/
  | redMaxu (o : RedOps)
  /-- RED_AND (R230). -/
  | redAnd (o : RedOps)
  /-- RED_OR (R230). -/
  | redOr (o : RedOps)
  /-- RED_XOR (R230). -/
  | redXor (o : RedOps)
  /-- AFADD_F32 (R231). -/
  | afaddF32 (o : AfaddOps)
  /-- AFADD_BF16 (R231). -/
  | afaddBf16 (o : AfaddOps)
  /-- RED_FADD_F32 (R231). -/
  | redFaddF32 (o : RedFaddOps)
  /-- RED_FADD_BF16 (R231). -/
  | redFaddBf16 (o : RedFaddOps)
  /-- TADD_F32 (R232). -/
  | taddF32 (o : TaddOps)
  /-- TADD_I32 (R232). -/
  | taddI32 (o : TaddOps)
  /-- TADD_BF16 (R232). -/
  | taddBf16 (o : TaddOps)
  /-- SPAWN (R238). -/
  | spawn (o : SpawnOps)
  /-- QUIT (R240). -/
  | quit (o : BareOps)
  /-- SUSP (R241). -/
  | susp (o : BareOps)
  /-- FLD (R244). -/
  | fld (o : MemOps)
  /-- FLD_S (R244). -/
  | fldS (o : MemOps)
  /-- FFILL (R246). -/
  | ffill (o : MemOps)
  /-- FCLR (R247). -/
  | fclr (o : FclrOps)
  /-- WAITC (R248). -/
  | waitc (o : WaitcOps)
  /-- ARM_MSG (R250). -/
  | armMsg (o : RrrOps)
  /-- ARM_INC (R250). -/
  | armInc (o : RrrOps)
  /-- DISARM_MSG (R253). -/
  | disarmMsg (o : RrrOps)
  /-- DISARM_INC (R253). -/
  | disarmInc (o : RrrOps)
  /-- BAR_ARRIVE (R254). -/
  | barArrive (o : BarOps)
  /-- BAR_WAIT (R255). -/
  | barWait (o : BarOps)
  /-- BAR_TEST (R255). -/
  | barTest (o : BarTestOps)
  /-- GROW (R256). -/
  | grow (o : GrowOps)
  /-- WQUIET (R257). -/
  | wquiet (o : RbOps)
  /-- WSPLIT (R242). -/
  | wsplit (o : WsplitOps)
  /-- IBX (R259). -/
  | ibx (o : RdOps)
  /-- IBX_T (R259). -/
  | ibxT (o : RdOps)
  /-- VADD_ROUNDED (R271). -/
  | vaddRounded (o : VFpOps)
  /-- VSUB (R271). -/
  | vsub (o : VFpOps)
  /-- VMUL_ROUNDED (R271). -/
  | vmulRounded (o : VFpOps)
  /-- VFMA_ROUNDED (R271). -/
  | vfmaRounded (o : VFpOps)
  /-- VFMS (R271). -/
  | vfms (o : VFpOps)
  /-- VFNMA (R271). -/
  | vfnma (o : VFpOps)
  /-- VDIV (R272). -/
  | vdiv (o : VFpOps)
  /-- VSQRT (R272). -/
  | vsqrt (o : VFp1ROps)
  /-- VFMIN (R273). -/
  | vfmin (o : VFp2Ops)
  /-- VFMAX (R273). -/
  | vfmax (o : VFp2Ops)
  /-- VFABS (R273). -/
  | vfabs (o : VFp1Ops)
  /-- VFNEG (R273). -/
  | vfneg (o : VFp1Ops)
  /-- VFCEQ (R274). -/
  | vfceq (o : VFcmpOps)
  /-- VFCLT (R274). -/
  | vfclt (o : VFcmpOps)
  /-- VFCLE (R274). -/
  | vfcle (o : VFcmpOps)
  /-- VFCUN (R274). -/
  | vfcun (o : VFcmpOps)
  /-- VCEQ (R274). -/
  | vceq (o : VIcmpOps)
  /-- VCLT (R274). -/
  | vclt (o : VIcmpOps)
  /-- VCLTU (R274). -/
  | vcltu (o : VIcmpOps)
  /-- VIADD (R275). -/
  | viadd (o : VIntOps)
  /-- VISUB (R275). -/
  | visub (o : VIntOps)
  /-- VIMUL (R275). -/
  | vimul (o : VIntOps)
  /-- VIMIN (R275). -/
  | vimin (o : VIntOps)
  /-- VIMAX (R275). -/
  | vimax (o : VIntOps)
  /-- VIMINU (R275). -/
  | viminu (o : VIntOps)
  /-- VIMAXU (R275). -/
  | vimaxu (o : VIntOps)
  /-- VIADDSAT (R276). -/
  | viaddsat (o : VVVOps)
  /-- VISUBSAT (R276). -/
  | visubsat (o : VVVOps)
  /-- VIADDSATU (R276). -/
  | viaddsatu (o : VVVOps)
  /-- VISUBSATU (R276). -/
  | visubsatu (o : VVVOps)
  /-- VINARROW (R276). -/
  | vinarrow (o : VNarOps)
  /-- VINARROWU (R276). -/
  | vinarrowu (o : VNarOps)
  /-- VINARROWSU (R276). -/
  | vinarrowsu (o : VNarOps)
  /-- VIWIDEN (R276). -/
  | viwiden (o : VNarOps)
  /-- VIWIDENU (R276). -/
  | viwidenu (o : VNarOps)
  /-- VAND (R277). -/
  | vand (o : VIntOps)
  /-- VOR (R277). -/
  | vor (o : VIntOps)
  /-- VXOR (R277). -/
  | vxor (o : VIntOps)
  /-- VANDN (R277). -/
  | vandn (o : VIntOps)
  /-- VSHL (R277). -/
  | vshl (o : VIntOps)
  /-- VSHR (R277). -/
  | vshr (o : VIntOps)
  /-- VSAR (R277). -/
  | vsar (o : VIntOps)
  /-- VPOPC (R277). -/
  | vpopc (o : VUnOps)
  /-- VCLZ (R277). -/
  | vclz (o : VUnOps)
  /-- VSEL (R278). -/
  | vsel (o : VselOps)
  /-- VMOV (R278). -/
  | vmov (o : VUnOps)
  /-- VBCAST (R278). -/
  | vbcast (o : VbcastOps)
  /-- VEXT (R278). -/
  | vext (o : VextOps)
  /-- VINS (R278). -/
  | vins (o : VinsOps)
  /-- VFCVT (R279). -/
  | vfcvt (o : VFcvtOps)
  /-- VFTOI (R280). -/
  | vftoi (o : VFintOps)
  /-- VFTOIU (R280). -/
  | vftoiu (o : VFintOps)
  /-- VITOF (R280). -/
  | vitof (o : VFintOps)
  /-- VIUTOF (R280). -/
  | viutof (o : VFintOps)
  /-- VFTON (R281). -/
  | vfton (o : VFnarOps)
  /-- VNTOF (R281). -/
  | vntof (o : VFnarOps)
  /-- VMXSC (R282). -/
  | vmxsc (o : VmxscOps)
  /-- VMXPK (R282). -/
  | vmxpk (o : VmxOps)
  /-- VMXUNPK (R282). -/
  | vmxunpk (o : VmxOps)
  /-- VEXP2 (R283). -/
  | vexp2 (o : VFp1ROps)
  /-- VLOG2 (R283). -/
  | vlog2 (o : VFp1ROps)
  /-- VRCP (R283). -/
  | vrcp (o : VFp1ROps)
  /-- VRSQRT (R283). -/
  | vrsqrt (o : VFp1ROps)
  /-- VSINPI (R283). -/
  | vsinpi (o : VFp1ROps)
  /-- VCOSPI (R283). -/
  | vcospi (o : VFp1ROps)
  /-- VSHUF (R284). -/
  | vshuf (o : VVVOps)
  /-- VPERM (R285). -/
  | vperm (o : VpermOps)
  /-- VROT (R286). -/
  | vrot (o : VrotOps)
  /-- VVOTE_ANY (R287). -/
  | vvoteAny (o : VvoteOps)
  /-- VVOTE_ALL (R287). -/
  | vvoteAll (o : VvoteOps)
  /-- VVOTE_BALLOT (R287). -/
  | vvoteBallot (o : VballotOps)
  /-- VMATCH (R288). -/
  | vmatch (o : VUnOps)
  /-- VRED_ADD (R289). -/
  | vredAdd (o : VFredOps)
  /-- VRED_MIN (R289). -/
  | vredMin (o : VFredOps)
  /-- VRED_MAX (R289). -/
  | vredMax (o : VFredOps)
  /-- VRED_IADD (R289). -/
  | vredIadd (o : VIredOps)
  /-- VRED_IMIN (R289). -/
  | vredImin (o : VIredOps)
  /-- VRED_IMAX (R289). -/
  | vredImax (o : VIredOps)
  /-- VRED_IMINU (R289). -/
  | vredIminu (o : VIredOps)
  /-- VRED_IMAXU (R289). -/
  | vredImaxu (o : VIredOps)
  /-- VRED_AND (R289). -/
  | vredAnd (o : VIredOps)
  /-- VRED_OR (R289). -/
  | vredOr (o : VIredOps)
  /-- VRED_XOR (R289). -/
  | vredXor (o : VIredOps)
  /-- VSCAN_ADD (R290). -/
  | vscanAdd (o : VFscanOps)
  /-- VSCAN_MIN (R290). -/
  | vscanMin (o : VFscanOps)
  /-- VSCAN_MAX (R290). -/
  | vscanMax (o : VFscanOps)
  /-- VSCAN_IADD (R290). -/
  | vscanIadd (o : VIscanOps)
  /-- VSCAN_IMIN (R290). -/
  | vscanImin (o : VIscanOps)
  /-- VSCAN_IMAX (R290). -/
  | vscanImax (o : VIscanOps)
  /-- VSCAN_IMINU (R290). -/
  | vscanIminu (o : VIscanOps)
  /-- VSCAN_IMAXU (R290). -/
  | vscanImaxu (o : VIscanOps)
  /-- MMA (R300). -/
  | mma (o : MmaOps)
  /-- MMA_MX (R301). -/
  | mmaMx (o : MmaOps)
  /-- MMA_I8 (R300). -/
  | mmaI8 (o : MmaIOps)
  /-- MMA_I4 (R300). -/
  | mmaI4 (o : MmaIOps)
  /-- MMSR_MINPLUS (R300). -/
  | mmsrMinplus (o : MmaOps)
  /-- MMSR_MAXTIMES (R300). -/
  | mmsrMaxtimes (o : MmaOps)
  /-- MMSR_ORAND (R300). -/
  | mmsrOrand (o : MmaOps)
  /-- MZERO (R302). -/
  | mzero (o : TileOps)
  /-- MLOAD (R302). -/
  | mload (o : MloadOps)
  /-- MDRAIN (R303). -/
  | mdrain (o : MdrainOps)
  /-- MDRAIN_ADD (R303). -/
  | mdrainAdd (o : MdrainOps)
  /-- MDRAIN_Q (R304). -/
  | mdrainQ (o : MdrainQOps)
  /-- MWAIT (R306). -/
  | mwait (o : TileOps)
  /-- MWAIT_ALL (R306). -/
  | mwaitAll (o : BareOps)
  /-- MRD (R307). -/
  | mrd (o : MrdOps)
  /-- MCMD (R309). -/
  | mcmd (o : BcOps)
  /-- MGRANT (R308). -/
  | mgrant (o : RrrOps)
  /-- MRING (R312). -/
  | mring (o : MringOps)
  /-- MRING_RECV (R312). -/
  | mringRecv (o : BareOps)
  /-- MPASS (R312). -/
  | mpass (o : BareOps)
  /-- MCAP (R313). -/
  | mcap (o : RdOps)
  /-- MFMT (R314). -/
  | mfmt (o : MfmtOps)
  /-- MFMTR (R314). -/
  | mfmtr (o : MfmtrOps)
  /-- SHAPE (R319). -/
  | shape (o : ShapeOps)
  /-- COPY (R320). -/
  | copy (o : CopyOps)
  /-- LDS (R327). -/
  | lds (o : ShardOps)
  /-- LDSO (R327). -/
  | ldso (o : ShardOps)
  /-- STS (R327). -/
  | sts (o : ShardOps)
  /-- STSO (R327). -/
  | stso (o : ShardOps)
  /-- SHINV (R328). -/
  | shinv (o : RrrOps)
  /-- CFETCH (R329). -/
  | cfetch (o : CfetchOps)
  /-- CFETCH_NOTE (R329). -/
  | cfetchNote (o : CfetchOps)
  /-- AMP_APPLY (R332). -/
  | ampApply (o : AmpOps)
  /-- AMP_PERM (R333). -/
  | ampPerm (o : AmpOps)
  /-- COLL_RUN (R336). -/
  | collRun (o : CollOps)
  /-- COLL_RUN_RELOAD (R336). -/
  | collRunReload (o : CollOps)
  /-- BADDQ (R340). -/
  | baddq (o : BaddqOps)
  /-- BLKQ (R338). -/
  | blkq (o : RdOps)
  /-- BLKQ_DONE (R339). -/
  | blkqDone (o : RbOps)
  /-- RESULT_LANDING (R147). -/
  | resultLanding (c : CoreId) (slot k : Nat)
  /-- ACCESS_ACCEPTANCE (R152). -/
  | accessAcceptance (c : CoreId) (slot k : Nat)
  /-- RUN_AHEAD_END (R411). -/
  | runAheadEnd (c : CoreId) (slot ticket : Nat)
  /-- REFUSED_REQUEST_RETRY (R416). -/
  | refusedRequestRetry (k : Nat)
  /-- POSTED_ITEM_DELIVERY (R223). -/
  | postedItemDelivery (k : Nat)
  /-- COUNTED_ARRIVAL (R92). -/
  | countedArrival (k : Nat)
  /-- HELD_INBOX_RECORD_ENTRY (R227). -/
  | heldInboxRecordEntry (c : CoreId)
  /-- DEFERRED_LIST_WALK (R61). -/
  | deferredListWalk (k : Nat)
  /-- WAITC_POLL (R249). -/
  | waitcPoll (c : CoreId) (slot : Nat)
  /-- WQUIET_POLL (R257). -/
  | wquietPoll (c : CoreId) (slot : Nat)
  /-- NEIGHBOUR_WORD_ARRIVAL (R63). -/
  | neighbourWordArrival (k : Nat)
  /-- REEL_ARRIVAL_COMBINE (R65). -/
  | reelArrivalCombine (k : Nat)
  /-- REEL_RELEASE (R65). -/
  | reelRelease (k : Nat)
  /-- MATRIX_COMMAND_START (R315). -/
  | matrixCommandStart (c : CoreId)
  /-- MATRIX_TILE_WRITE (R293). -/
  | matrixTileWrite (c : CoreId)
  /-- REMOTE_COMMAND_ARRIVAL (R310). -/
  | remoteCommandArrival (k : Nat)
  /-- COPY_RUN (R321). -/
  | copyRun (c : CoreId)
  /-- CFETCH_LOAD_COMPLETE (R329). -/
  | cfetchLoadComplete (c : CoreId)
  /-- AMP_GROUP (R332). -/
  | ampGroup (pkg cluster g : Nat)
  /-- AMP_PERM_RUN (R333). -/
  | ampPermRun (pkg cluster : Nat)
  /-- BRAID_RUN_START (R336). -/
  | braidRunStart (pkg cluster : Nat)
  /-- BRAID_STEP_COMPLETE (R337). -/
  | braidStepComplete (pkg cluster run step : Nat)
  /-- QUEUE_STEP_PUSH (R338). -/
  | queueStepPush (pkg cluster run step : Nat)
  /-- SHOOTDOWN_AT_ROOT (R328). -/
  | shootdownAtRoot
  /-- SHOOTDOWN_AT_NODE (R328). -/
  | shootdownAtNode (pkg : Nat)
  /-- HUB_SHOOTDOWN_ACK (R106). -/
  | hubShootdownAck (pkg cluster : Nat)
  /-- SHINV_COMPLETION (R328). -/
  | shinvCompletion
  /-- KERNEL_PACKET (R385). -/
  | kernelPacket (pkg q : Nat)
  /-- COPY_PACKET (R386). -/
  | copyPacket (pkg q : Nat)
  /-- BRAID_PACKET (R386). -/
  | braidPacket (pkg q : Nat)
  /-- AMP_PACKET (R386). -/
  | ampPacket (pkg q : Nat)
  /-- WAITFLAG_PACKET (R387). -/
  | waitflagPacket (pkg q : Nat)
  /-- SIGNAL_PACKET (R387). -/
  | signalPacket (pkg q : Nat)
  /-- DESCRIPTOR_NOTIFICATION (R380). -/
  | descriptorNotification (pkg q : Nat)
  /-- GRID_ADMISSION (R389). -/
  | gridAdmission (pkg q : Nat)
  /-- GROUP_PLACEMENT (R390). -/
  | groupPlacement (pkg die : Nat)
  /-- AGEING_PROMOTION (R392). -/
  | ageingPromotion (pkg gslot : Nat)
  /-- EVICTION (R393). -/
  | eviction (pkg die : Nat)
  /-- GROUP_RESTORE (R394). -/
  | groupRestore (pkg die : Nat)
  /-- GRID_DONE_ARRIVAL (R385). -/
  | gridDoneArrival (pkg gslot : Nat)
  /-- RUN_QUEUE_PICKUP (R55). -/
  | runQueuePickup (pkg cluster : Nat)
  /-- HEAD_SEGMENT_LOAD (R55). -/
  | headSegmentLoad (pkg cluster : Nat)
  /-- USER_TRAP_ENTRY (R347). -/
  | userTrapEntry (c : CoreId) (slot : Nat)
  /-- TRAP_DELIVERY (R365). -/
  | trapDelivery (c : CoreId) (slot : Nat)
  /-- TRAP_RECORD_APPEND (R365). -/
  | trapRecordAppend (pkg pid : Nat)
  /-- MAILBOX_NOTIFICATION_ENTRY (R361). -/
  | mailboxNotificationEntry (pkg : Nat) (q : NoteQueue)
  /-- TIMER_WAKE (R361). -/
  | timerWake (c : CoreId) (slot : Nat)
  /-- PREEMPT_HALT_GRID (R369). -/
  | preemptHaltGrid (pkg pid gslot : Nat)
  /-- PREEMPT_HALT_PARTITION (R369). -/
  | preemptHaltPartition (pkg pid : Nat)
  /-- PREEMPT_HALT_CREWS (R369). -/
  | preemptHaltCrews (pkg pid gslot core : Nat)
  /-- PREEMPT_RESUME (R375). -/
  | preemptResume (pkg pid : Nat)
  /-- HALT_COMPLETE (R370). -/
  | haltComplete (pkg pid : Nat)
  /-- SAVE_COMPLETE (R370). -/
  | saveComplete (pkg pid : Nat)
  /-- LATE_RESULT_LANDING (R372). -/
  | lateResultLanding (k : Nat)
  /-- IMGCTL_RESTORE (R376). -/
  | imgctlRestore (pkg pid : Nat) (img : Dword)
  /-- IMGCTL_DISCARD (R376). -/
  | imgctlDiscard (pkg pid : Nat) (img : Dword)
  /-- REGISTER_WRITE (R359). -/
  | registerWrite (pkg pid k : Nat) (v : Dword)
  /-- UNCORRECTABLE_ERROR (R422). -/
  | uncorrectableError (pkg : Nat) (site : ErrSite)
  /-- CORRECTED_ERROR_REPORT (R421). -/
  | correctedErrorReport (pkg cluster : Nat)
  /-- SCRUB_PASS (R420). -/
  | scrubPass (pkg cluster : Nat)
  /-- LINK_REPLAY (R423). -/
  | linkReplay (pkg link : Nat)
  /-- LINK_DOWN (R423). -/
  | linkDown (pkg link : Nat)
  /-- FABRIC_RESEND (R440). -/
  | fabricResend (pkg link : Nat)
  /-- CHANNEL_REKEY (R447): channel 8·port + 2·class + 0 or 1 of a package, the classes in the order of R439. -/
  | channelRekey (pkg channel : Nat)
  /-- HOST_WINDOW_WRITE (R429, R431). -/
  | hostWindowWrite (pkg fn : Nat) (bar : HostBar) (off : Dword) (bytes : List Byte)
  /-- HOST_WINDOW_READ (R429, R431). -/
  | hostWindowRead (pkg fn : Nat) (bar : HostBar) (off : Dword) (n : Nat)
  /-- HMBX_WRITE (R430). -/
  | hmbxWrite (pkg pid : Nat) (v : Dword)
  /-- HFAULT_DOORBELL (R434). -/
  | hfaultDoorbell (pkg pid : Nat) (rec : HFaultRec)
  /-- FORDMAP_WRITE (R442). -/
  | fordmapWrite (pkg pid port : Nat) (v : Dword)
  /-- QTAB_WRITE (R450). -/
  | qtabWrite (pkg : Nat) (v : Dword)
  /-- RETENTION_ENTER (R451). -/
  | retentionEnter (pkg cluster : Nat)
  /-- RETENTION_EXIT (R451). -/
  | retentionExit (pkg cluster : Nat)
  /-- REENCODE_COMPLETE (R451). -/
  | reencodeComplete (pkg cluster : Nat)
  /-- PCAP_WRITE (R450). -/
  | pcapWrite (pkg : Nat) (v : Dword)
  /-- CLOCK_STEP (R453). -/
  | clockStep (pkg watts : Nat)
  /-- THERMAL_TRIP (R453). -/
  | thermalTrip (pkg die : Nat)
  /-- POWER_GOOD (R444). -/
  | powerGood (pkg : Nat) (bin : BootIn)
  /-- PARTITION_CREATE (R357). -/
  | partitionCreate (pkg pid : Nat) (reaches fpmap : Half) (notify : Nat)
  /-- PARTITION_DESTROY (R447). -/
  | partitionDestroy (pkg pid : Nat)
  /-- JOB_FORMATION (R436). -/
  | jobFormation (na nb nc nd : JobAxis)
  /-- GET_VERSION (R446). -/
  | getVersion (pkg : Nat) (overDoe : Bool)
  /-- GET_CAPABILITIES (R446). -/
  | getCapabilities (pkg : Nat) (overDoe : Bool)
  /-- NEGOTIATE_ALGORITHMS (R446). -/
  | negotiateAlgorithms (pkg : Nat) (overDoe : Bool)
  /-- GET_DIGESTS (R446). -/
  | getDigests (pkg : Nat) (overDoe : Bool)
  /-- GET_CERTIFICATE (R446). -/
  | getCertificate (pkg : Nat) (overDoe : Bool)
  /-- CHALLENGE (R446). -/
  | challenge (pkg : Nat) (overDoe : Bool) (nonce : Dword)
  /-- GET_MEASUREMENTS (R446). -/
  | getMeasurements (pkg : Nat) (overDoe : Bool) (index : Nat)
  /-- KEY_EXCHANGE (R446). -/
  | keyExchange (pkg : Nat) (overDoe : Bool)
  /-- FINISH (R446). -/
  | finish (pkg : Nat) (overDoe : Bool)
  /-- MGMT_READ_SENSORS (R443). -/
  | mgmtReadSensors (pkg : Nat)
  /-- MGMT_READ_ERROR_LOG (R443). -/
  | mgmtReadErrorLog (pkg : Nat) (pid : Option Nat)
  /-- MGMT_SET_POWER_CAP (R443). -/
  | mgmtSetPowerCap (pkg cap : Nat)
  /-- MGMT_PREEMPT (R443). -/
  | mgmtPreempt (pkg pid : Nat)
  /-- MODULE_RESET (R443). -/
  | moduleReset (pkg : Nat)
  /-- FIRMWARE_UPDATE (R445). -/
  | firmwareUpdate (pkg : Nat) (die : Option Nat) (img : FwImage)
  /-- UNDEFINED_INSTRUCTION (R156). -/
  | undefinedInstruction (e : DecErr)
deriving DecidableEq, Repr, Inhabited

/-- What moves next: a core issues one instruction (R396), or one of the machine's own steps happens. -/
inductive Act where
  | core (c : CoreId)
  | event (i : Instr)
deriving DecidableEq, Repr, Inhabited

/-- One turn of the machine: dt cycles of the 1.9 GHz reference clock go by (R154), then act happens. -/
structure Turn where
  dt : Nat
  act : Act
deriving DecidableEq, Repr, Inhabited

end Sys2Proof
end

