-- ==== Sys2Proof/WellFormed.lean ====
section
/-!
DEFINITION. Which instructions have words: the ranges of operands and the room that R142 leaves for immediates
(spec/05_instruction_encoding.md). The choices of form made here (when a REG word is needed) are the encoder's too.
A machine step is well formed when the numbers it carries name something a package can have.
-/
namespace Sys2Proof

/-- A value fits an immediate of k IMM words, signed or unsigned (R143). -/
def immFits (sg : Bool) (k : Nat) (v : Int) : Bool :=
  if sg then decide (-(2 ^ (4 + 10 * k) : Int) ≤ v) && decide (v < 2 ^ (4 + 10 * k))
  else decide (0 ≤ v) && decide (v < 2 ^ (5 + 10 * k))

/-- ORD as a number (R80). -/
def Order.code : Order → Nat
  | .rlx => 0 | .acq => 1 | .rel => 2 | .ar => 3

/-- SCOPE as a number (R79). -/
def Scope.code : Scope → Nat
  | .core => 0 | .clu => 1 | .die => 2 | .dev => 3 | .sys => 4

/-- Width as MOD (R171). -/
def Width.code : Width → Nat
  | .d => 0 | .w => 1

/-- Size as MOD (R213). -/
def Size.code : Size → Nat
  | .d => 0 | .w => 1 | .h => 2 | .b => 3

/-- Format as MOD (R183). -/
def FFmt.code : FFmt → Nat
  | .f32 => 0 | .f64 => 1 | .f16 => 2 | .bf16 => 3

/-- Integer width as MOD (R190). -/
def IWidth.code : IWidth → Nat
  | .i64 => 0 | .i32 => 1 | .i16 => 2 | .i8 => 3

/-- Rounding selector (R123). -/
def RSel.code : RSel → Nat
  | .dyn => 0 | .rne => 1 | .rtz => 2 | .rdn => 3 | .rup => 4

/-- Bits of a floating format. -/
def FFmt.bits : FFmt → Nat
  | .f32 => 32 | .f64 => 64 | .f16 => 16 | .bf16 => 16

/-- log2 of the element count of a vector register at a floating format (R264). -/
def FFmt.lg : FFmt → Nat
  | .f32 => 5 | .f64 => 4 | .f16 => 6 | .bf16 => 6

/-- Bits of an integer width. -/
def IWidth.bits : IWidth → Nat
  | .i64 => 64 | .i32 => 32 | .i16 => 16 | .i8 => 8

/-- log2 of the element count of a vector register at an integer width (R264). -/
def IWidth.lg : IWidth → Nat
  | .i64 => 4 | .i32 => 5 | .i16 => 6 | .i8 => 7

/-- The integer width that R280 pairs with a floating format. -/
def FFmt.paired : FFmt → IWidth
  | .f32 => .i32 | .f64 => .i64 | .f16 => .i16 | .bf16 => .i16

/-- The ratio of the wider to the narrower format of a conversion (R279). -/
def FFmt.ratio (d s : FFmt) : Nat := max d.bits s.bits / min d.bits s.bits

/-- The instruction carries a PRED word (R141): its predicate is not p0, it is inverted, or it has an order or a scope. -/
def predUsed (p : Pre) (os : OrdSc) : Bool :=
  p.neg || p.pn != 0 || os.ord != .rlx || os.scope != .core

/-- How many IMM words R142 leaves room for. -/
def room (paged : Bool) (p : Pre) (os : OrdSc) (reg : Bool) : Nat :=
  4 - ((if paged then 1 else 0) + (if predUsed p os then 1 else 0) + (if reg then 1 else 0))

/-- An immediate that takes at least kmin IMM words fits the room left (R142, R143). -/
def immOk (sg paged : Bool) (p : Pre) (os : OrdSc) (reg : Bool) (kmin : Nat) (v : Int) : Bool :=
  decide (kmin ≤ room paged p os reg) && immFits sg (room paged p os reg) v

/-- A register number that needs no extension bit (R141). -/
def low (r : GReg) : Bool := decide (r.val < 32)

/-- The orders an ordered instruction may carry (R80). -/
def ordIn (l : List Order) (os : OrdSc) : Bool := l.contains os.ord

/-- Loads: relaxed or acquire (R80). -/
def ordLd : List Order := [.rlx, .acq]
/-- Stores and items: relaxed or release (R80). -/
def ordSt : List Order := [.rlx, .rel]
/-- Read-modify-writes: all four (R80). -/
def ordAll : List Order := [.rlx, .acq, .rel, .ar]

/-- Whether each shape of operands needs the REG word. -/
def AluOps.reg (o : AluOps) : Bool :=
  !(o.rd == o.x && low o.rd && o.w == .d && (match o.y with | .reg r => low r | .imm _ => true))
def MulhOps.reg (o : MulhOps) : Bool := !(o.rd == o.x && low o.rd && low o.y && o.w == .d)
def MovOps.reg (o : MovOps) : Bool := !(low o.rd && (match o.y with | .reg r => low r | .imm _ => true))
def BitfOps.reg (o : BitfOps) : Bool := !(o.rd == o.x && low o.rd)
def MovhOps.reg (o : MovhOps) : Bool := !low o.rd
def CallOps.reg (o : CallOps) : Bool := !low o.link
def JovOps.reg (o : JovOps) : Bool := !low o.g
def SrOps.reg (o : SrOps) : Bool := !low o.g

def wAlu (sg paged : Bool) (o : AluOps) : Bool :=
  match o.y with | .reg _ => true | .imm v => immOk sg paged o.pre .plain o.reg 1 v
def wMov (o : MovOps) : Bool :=
  match o.y with | .reg _ => true | .imm v => immOk true false o.pre .plain o.reg 1 v
def wCmp (sg : Bool) (o : CmpOps) : Bool :=
  match o.y with | .reg _ => true | .imm v => immOk sg false o.pre .plain true 1 v
/-- R179: pos + len is at most 64. -/
def wBitf (o : BitfOps) : Bool := decide (1 ≤ o.len) && decide (o.pos < 64) && decide (o.pos + o.len ≤ 64)
def wBfx (o : BitfOps) : Bool := wBitf o && immOk false true o.pre .plain o.reg 1 ((o.len - 1) * 64 + o.pos : Nat)
def wBfi (o : BitfOps) : Bool := wBitf o && immOk false true o.pre .plain true 1 ((o.len - 1) * 64 + o.pos : Nat)
/-- R180, majors with MOD 0 only. -/
def wUnD (o : UnOps) : Bool := o.w == .d
/-- R182: an upper half of at most 32 bits. -/
def wMovh (o : MovhOps) : Bool := decide (o.imm < 2 ^ 32) && immOk false true o.pre .plain o.reg 1 o.imm
/-- Page 0 rounds in the dynamic mode (R184). -/
def wFp0 (o : FpOps) : Bool := o.rm == .dyn
def wFp1Rt (o : Fp1ROps) : Bool := o.fmt == .f32 || o.fmt == .f64
def wFcvt (o : FcvtOps) : Bool := o.dst != o.src
/-- R191: no saturation and no selector for `ntof`. -/
def wNtof (o : FnarOps) : Bool := !o.sat && o.rm == .dyn
def wPset (o : PsetOps) : Bool := decide (o.imm < 2 ^ 32) && immOk false true o.pre .plain false 1 o.imm
def wBr (paged : Bool) (o : BrOps) : Bool :=
  immFits true (if paged then 3 else 4) o.off
def wCall (o : CallOps) : Bool := immOk true false o.pre .plain o.reg 1 o.off
def wJov (o : JovOps) : Bool := immOk false true o.pre .plain o.reg 1 o.target
/-- R204: a multiple of 16 from 16 to 32,768. -/
def wFrame (o : FrameOps) : Bool := decide (o.n % 16 = 0) && decide (16 ≤ o.n) && decide (o.n ≤ 32768)
/-- R208: a number of at most 1,023. -/
def wSr (o : SrOps) : Bool := decide (o.num ≤ 1023)
def wEcall (o : EcallOps) : Bool := decide (o.n ≤ 1023)
def wMem (sx paged : Bool) (ords : List Order) (o : MemOps) : Bool :=
  ordIn ords o.os && !(sx && o.size == .d) &&
  (match o.off with
   | .none => o.size == .d && low o.data && low o.base
   | .reg _ => true
   | .imm v => immOk true paged o.pre o.os true 1 v)
/-- A memory operand of an instruction without order (R80). -/
def wMemPlain (sx paged : Bool) (o : MemOps) : Bool := o.os == .plain && wMem sx paged [.rlx] o
def wVMem (o : VMemOps) : Bool :=
  match o.off with
  | .none => low o.base | .reg _ => true | .imm v => immOk true false o.pre .plain true 1 v
def wFence (o : FenceOps) : Bool := ordIn [.acq, .rel, .ar] o.os
def wFenceSc (o : FenceOps) : Bool := ordIn [.rlx] o.os
def wGetl (o : GetlOps) : Bool :=
  ordIn ordSt o.os && (o.flag.isSome || (!o.fill && low o.dst && low o.src))
def wStp (o : StpOps) : Bool :=
  ordIn ordSt o.os &&
  (o.flag.isSome || (low o.base && (match o.data with | .g s r => s == .d && low r | .v _ => true)))
def wAtom (sg : Bool) (o : AtomOps) : Bool :=
  ordIn ordAll o.os && (match o.y with | .reg _ => true | .imm v => immOk sg true o.pre o.os true 1 v)
def wAcas (o : AcasOps) : Bool := ordIn ordAll o.os
def wRed (o : RedOps) : Bool :=
  ordIn ordSt o.os && (o.flag.isSome || (o.w == .d && low o.data && low o.base))
def wAfadd (o : AfaddOps) : Bool := ordIn ordAll o.os
def wRedFadd (o : RedFaddOps) : Bool := ordIn ordSt o.os && (o.flag.isSome || (low o.data && low o.base))
def wTadd (o : TaddOps) : Bool := ordIn ordSt o.os && (o.flag.isSome || low o.base)
def wSpawn (o : SpawnOps) : Bool :=
  match o.start with | .reg _ => true | .imm v => immOk false true o.pre .plain true 1 v
def wFclr (o : FclrOps) : Bool := ordIn ordSt o.os && low o.b
def wWaitc (o : WaitcOps) : Bool :=
  match o.n with
  | .reg _ => true
  | .imm v => decide (v < 2 ^ 32) && immOk false true o.pre .plain true 1 v
/-- R250: AH and CH must be zero. -/
def wArm (o : RrrOps) : Bool := low o.rd && low o.c
def wGrow (o : GrowOps) : Bool :=
  match o.y with | .reg _ => true | .imm v => immOk false true o.pre .plain true 1 v
def wRbN (o : RbOps) : Bool := low o.b
def wRdN (o : RdOps) : Bool := low o.rd
/-- Page 0 rounds in the dynamic mode and takes no broadcast (R270). -/
def wVFp0 (o : VFpOps) : Bool := o.rm == .dyn && (match o.y with | .v _ => true | .g _ => false)
def wVdiv (o : VFpOps) : Bool := match o.y with | .v _ => true | .g _ => false
def wVFp1Rt (o : VFp1ROps) : Bool := o.fmt == .f32 || o.fmt == .f64
/-- R274: SEL below the number of elements that share a lane. -/
def wVFcmp (o : VFcmpOps) : Bool := decide (o.sel < if o.fmt.bits = 16 then 2 else 1)
def wVIcmp (o : VIcmpOps) : Bool :=
  decide (o.sel < match o.iw with | .i64 => 1 | .i32 => 1 | .i16 => 2 | .i8 => 4)
/-- R276: no narrowing to 64 bits and no widening to 8. -/
def wVNar (o : VNarOps) : Bool := o.iw != .i64
def wVWid (o : VNarOps) : Bool := o.iw != .i8
def wVext (o : VextOps) : Bool := decide (o.i < 2 ^ o.iw.lg) && immOk false true o.pre .plain true 1 o.i
def wVins (o : VinsOps) : Bool := decide (o.i < 2 ^ o.iw.lg) && immOk false true o.pre .plain true 1 o.i
def wVFcvt (o : VFcvtOps) : Bool := o.dst != o.src && decide (o.q.val < o.dst.ratio o.src)
def wVntof (o : VFnarOps) : Bool := !o.sat && o.rm == .dyn
def wVmatch (o : VUnOps) : Bool := o.iw == .i64 || o.iw == .i32
/-- R285: the limits of a pattern. -/
def wVperm (o : VpermOps) : Bool :=
  decide (if o.mode.val < 2 then o.k < 2 ^ o.iw.lg else o.k = 0) &&
  immOk false true o.pre .plain true 1 (o.mode.val * 128 + o.k : Nat)
/-- GS from 1 to log2 n. -/
def gsOk (gs lg : Nat) : Bool := decide (1 ≤ gs) && decide (gs ≤ lg)
def wVrot (o : VrotOps) : Bool :=
  gsOk o.gs o.iw.lg &&
  (match o.y with | .reg _ => true | .imm v => immOk false true o.pre .plain true 1 v)
def wVvote (o : VvoteOps) : Bool := gsOk o.gs 5
def wVFred (mm : Bool) (o : VFredOps) : Bool := gsOk o.gs o.fmt.lg && (!mm || o.rm == .dyn)
def wVIred (o : VIredOps) : Bool := gsOk o.gs o.iw.lg
def wVFscan (mm : Bool) (o : VFscanOps) : Bool := gsOk o.gs o.fmt.lg && (!mm || o.rm == .dyn)
def wVIscan (o : VIscanOps) : Bool := gsOk o.gs o.iw.lg
def wNoHalf (o : MmaOps) : Bool := !o.half
def wMload (o : MloadOps) : Bool := low o.b
def wMdrain (o : MdrainOps) : Bool := ordIn ordSt o.os && !o.i32 && (o.flag.isSome || low o.b)
def wMdrainAdd (o : MdrainOps) : Bool := ordIn ordSt o.os && (o.flag.isSome || (!o.i32 && low o.b))
def wMdrainQ (o : MdrainQOps) : Bool := ordIn ordSt o.os
def wMfmt (o : MfmtOps) : Bool := low o.x
def wMfmtr (o : MfmtrOps) : Bool := low o.rd
def wCopy (o : CopyOps) : Bool := ordIn ordSt o.os
def wLds (o : ShardOps) : Bool := o.os == .plain
def wLdso (o : ShardOps) : Bool := ordIn ordLd o.os
def wSts (o : ShardOps) : Bool := o.os == .plain && !o.sx
def wStso (o : ShardOps) : Bool := ordIn ordSt o.os && !o.sx
def wCfetch (o : CfetchOps) : Bool := ordIn ordSt o.os && (o.flag.isSome || low o.b)
def wAmp (o : AmpOps) : Bool := ordIn ordSt o.os && low o.b
def wColl (o : CollOps) : Bool := ordIn ordSt o.os

/-- Numbers of a machine step: a package (R74), a core or fault processor (R15, R356), a slot (R34), a cluster (R15). -/
def pkgOk (n : Nat) : Bool := decide (n < 4096)
def coreOk (c : CoreId) : Bool := pkgOk c.pkg && decide (c.n < 8208)
def slotOk (n : Nat) : Bool := decide (n < 16)
def clusterOk (n : Nat) : Bool := decide (n < 512)
def dieOk (n : Nat) : Bool := decide (n < 4)
/-- A partition: a PID of 4 bits (R357). -/
def pidOk (n : Nat) : Bool := decide (n < 16)

/-- The checks of an instruction's operands, and of the numbers a machine step carries. -/
def Instr.wf : Instr → Bool
  | .add o => wAlu true false o
  | .sub o => wAlu true false o
  | .and o => wAlu true false o
  | .or o => wAlu true false o
  | .xor o => wAlu true false o
  | .shl o => wAlu false false o
  | .shr o => wAlu false false o
  | .sar o => wAlu false false o
  | .mul o => wAlu true false o
  | .mov o => wMov o
  | .ld o => wMemPlain false false o
  | .st o => wMemPlain false false o
  | .vld o => wVMem o
  | .vst o => wVMem o
  | .br o => wBr false o
  | .call o => wCall o
  | .jmp _ => true
  | .ceq o => wCmp true o
  | .clt o => wCmp true o
  | .cltu o => wCmp false o
  | .fadd o => wFp0 o
  | .fmul o => wFp0 o
  | .ffma o => wFp0 o
  | .fsub o => wFp0 o
  | .vadd o => wVFp0 o
  | .vmul o => wVFp0 o
  | .vfma o => wVFp0 o
  | .div o => wAlu true true o
  | .divu o => wAlu false true o
  | .rem o => wAlu true true o
  | .remu o => wAlu false true o
  | .mulh _ => true
  | .mulhu _ => true
  | .mulhsu _ => true
  | .bfx o => wBfx o
  | .bfxu o => wBfx o
  | .bfi o => wBfi o
  | .clz _ => true
  | .ctz _ => true
  | .popc _ => true
  | .bswap _ => true
  | .sextB o => wUnD o
  | .sextH o => wUnD o
  | .sextW o => wUnD o
  | .zextB o => wUnD o
  | .zextH o => wUnD o
  | .zextW o => wUnD o
  | .min o => wAlu true true o
  | .max o => wAlu true true o
  | .minu o => wAlu false true o
  | .maxu o => wAlu false true o
  | .addsat o => wAlu true true o
  | .subsat o => wAlu true true o
  | .addsatu o => wAlu false true o
  | .subsatu o => wAlu false true o
  | .addsh _ => true
  | .movh o => wMovh o
  | .faddRounded _ => true
  | .fsubRounded _ => true
  | .fmulRounded _ => true
  | .ffmaRounded _ => true
  | .ffms _ => true
  | .fnma _ => true
  | .fdiv _ => true
  | .fsqrt _ => true
  | .fmin _ => true
  | .fmax _ => true
  | .fabs _ => true
  | .fneg _ => true
  | .fceq _ => true
  | .fclt _ => true
  | .fcle _ => true
  | .fcun _ => true
  | .fclass _ => true
  | .fcvt o => wFcvt o
  | .ftoi _ => true
  | .ftoiu _ => true
  | .itof _ => true
  | .iutof _ => true
  | .fton _ => true
  | .ntof o => wNtof o
  | .fexp2 o => wFp1Rt o
  | .flog2 o => wFp1Rt o
  | .frcp o => wFp1Rt o
  | .frsqrt o => wFp1Rt o
  | .fsinpi o => wFp1Rt o
  | .fcospi o => wFp1Rt o
  | .pand _ => true
  | .por _ => true
  | .pxor _ => true
  | .pandn _ => true
  | .pset o => wPset o
  | .psetg _ => true
  | .pgetg _ => true
  | .ppopc _ => true
  | .ppack _ => true
  | .punpack _ => true
  | .psave _ => true
  | .prest _ => true
  | .jov o => wJov o
  | .enter o => wFrame o
  | .leave o => wFrame o
  | .trap _ => true
  | .brk _ => true
  | .bany o => wBr true o
  | .ball o => wBr true o
  | .tret _ => true
  | .srr o => wSr o
  | .srw o => wSr o
  | .mbxs _ => true
  | .mbxr o => wRdN o
  | .wfi _ => true
  | .ecall o => wEcall o
  | .tlbsdInval _ => true
  | .tlbsdTransit _ => true
  | .tlbsdLand _ => true
  | .tlbsdDiscard _ => true
  | .tlbsdRanges _ => true
  | .tlbsdResume _ => true
  | .tlbsdRefuse _ => true
  | .ldSigned o => wMemPlain true true o
  | .ldo o => wMem false true ordLd o
  | .ldoSigned o => wMem true true ordLd o
  | .sto o => wMem false true ordSt o
  | .vgatherW _ => true
  | .vgatherD _ => true
  | .vscatterW _ => true
  | .vscatterD _ => true
  | .ldf _ => true
  | .fence o => wFence o
  | .fenceSc o => wFenceSc o
  | .getl o => wGetl o
  | .stp o => wStp o
  | .aadd o => wAtom true o
  | .amin o => wAtom true o
  | .amax o => wAtom true o
  | .aminu o => wAtom false o
  | .amaxu o => wAtom false o
  | .aand o => wAtom true o
  | .aor o => wAtom true o
  | .axor o => wAtom true o
  | .aswp o => wAtom true o
  | .acas o => wAcas o
  | .redAdd o => wRed o
  | .redMin o => wRed o
  | .redMax o => wRed o
  | .redMinu o => wRed o
  | .redMaxu o => wRed o
  | .redAnd o => wRed o
  | .redOr o => wRed o
  | .redXor o => wRed o
  | .afaddF32 o => wAfadd o
  | .afaddBf16 o => wAfadd o
  | .redFaddF32 o => wRedFadd o
  | .redFaddBf16 o => wRedFadd o
  | .taddF32 o => wTadd o
  | .taddI32 o => wTadd o
  | .taddBf16 o => wTadd o
  | .spawn o => wSpawn o
  | .quit _ => true
  | .susp _ => true
  | .fld o => wMemPlain false true o
  | .fldS o => wMemPlain false true o
  | .ffill o => wMem false true [.rel] o
  | .fclr o => wFclr o
  | .waitc o => wWaitc o
  | .armMsg o => wArm o
  | .armInc o => wArm o
  | .disarmMsg _ => true
  | .disarmInc _ => true
  | .barArrive _ => true
  | .barWait _ => true
  | .barTest _ => true
  | .grow o => wGrow o
  | .wquiet _ => true
  | .wsplit _ => true
  | .ibx _ => true
  | .ibxT _ => true
  | .vaddRounded _ => true
  | .vsub _ => true
  | .vmulRounded _ => true
  | .vfmaRounded _ => true
  | .vfms _ => true
  | .vfnma _ => true
  | .vdiv o => wVdiv o
  | .vsqrt _ => true
  | .vfmin _ => true
  | .vfmax _ => true
  | .vfabs _ => true
  | .vfneg _ => true
  | .vfceq o => wVFcmp o
  | .vfclt o => wVFcmp o
  | .vfcle o => wVFcmp o
  | .vfcun o => wVFcmp o
  | .vceq o => wVIcmp o
  | .vclt o => wVIcmp o
  | .vcltu o => wVIcmp o
  | .viadd _ => true
  | .visub _ => true
  | .vimul _ => true
  | .vimin _ => true
  | .vimax _ => true
  | .viminu _ => true
  | .vimaxu _ => true
  | .viaddsat _ => true
  | .visubsat _ => true
  | .viaddsatu _ => true
  | .visubsatu _ => true
  | .vinarrow o => wVNar o
  | .vinarrowu o => wVNar o
  | .vinarrowsu o => wVNar o
  | .viwiden o => wVWid o
  | .viwidenu o => wVWid o
  | .vand _ => true
  | .vor _ => true
  | .vxor _ => true
  | .vandn _ => true
  | .vshl _ => true
  | .vshr _ => true
  | .vsar _ => true
  | .vpopc _ => true
  | .vclz _ => true
  | .vsel _ => true
  | .vmov _ => true
  | .vbcast _ => true
  | .vext o => wVext o
  | .vins o => wVins o
  | .vfcvt o => wVFcvt o
  | .vftoi _ => true
  | .vftoiu _ => true
  | .vitof _ => true
  | .viutof _ => true
  | .vfton _ => true
  | .vntof o => wVntof o
  | .vmxsc _ => true
  | .vmxpk _ => true
  | .vmxunpk _ => true
  | .vexp2 o => wVFp1Rt o
  | .vlog2 o => wVFp1Rt o
  | .vrcp o => wVFp1Rt o
  | .vrsqrt o => wVFp1Rt o
  | .vsinpi o => wVFp1Rt o
  | .vcospi o => wVFp1Rt o
  | .vshuf _ => true
  | .vperm o => wVperm o
  | .vrot o => wVrot o
  | .vvoteAny o => wVvote o
  | .vvoteAll o => wVvote o
  | .vvoteBallot _ => true
  | .vmatch o => wVmatch o
  | .vredAdd o => wVFred false o
  | .vredMin o => wVFred true o
  | .vredMax o => wVFred true o
  | .vredIadd o => wVIred o
  | .vredImin o => wVIred o
  | .vredImax o => wVIred o
  | .vredIminu o => wVIred o
  | .vredImaxu o => wVIred o
  | .vredAnd o => wVIred o
  | .vredOr o => wVIred o
  | .vredXor o => wVIred o
  | .vscanAdd o => wVFscan false o
  | .vscanMin o => wVFscan true o
  | .vscanMax o => wVFscan true o
  | .vscanIadd o => wVIscan o
  | .vscanImin o => wVIscan o
  | .vscanImax o => wVIscan o
  | .vscanIminu o => wVIscan o
  | .vscanImaxu o => wVIscan o
  | .mma _ => true
  | .mmaMx o => wNoHalf o
  | .mmaI8 _ => true
  | .mmaI4 _ => true
  | .mmsrMinplus o => wNoHalf o
  | .mmsrMaxtimes o => wNoHalf o
  | .mmsrOrand o => wNoHalf o
  | .mzero _ => true
  | .mload o => wMload o
  | .mdrain o => wMdrain o
  | .mdrainAdd o => wMdrainAdd o
  | .mdrainQ o => wMdrainQ o
  | .mwait _ => true
  | .mwaitAll _ => true
  | .mrd _ => true
  | .mcmd _ => true
  | .mgrant _ => true
  | .mring _ => true
  | .mringRecv _ => true
  | .mpass _ => true
  | .mcap o => wRdN o
  | .mfmt o => wMfmt o
  | .mfmtr o => wMfmtr o
  | .shape _ => true
  | .copy o => wCopy o
  | .lds o => wLds o
  | .ldso o => wLdso o
  | .sts o => wSts o
  | .stso o => wStso o
  | .shinv _ => true
  | .cfetch o => wCfetch o
  | .cfetchNote o => wCfetch o
  | .ampApply o => wAmp o
  | .ampPerm o => wAmp o
  | .collRun o => wColl o
  | .collRunReload o => wColl o
  | .baddq _ => true
  | .blkq o => wRdN o
  | .blkqDone o => wRbN o
  | .resultLanding c slot _ => coreOk c && slotOk slot
  | .accessAcceptance c slot _ => coreOk c && slotOk slot
  | .runAheadEnd c slot _ => coreOk c && slotOk slot
  | .refusedRequestRetry _ => true
  | .postedItemDelivery _ => true
  | .countedArrival _ => true
  | .heldInboxRecordEntry c => coreOk c
  | .deferredListWalk _ => true
  | .waitcPoll c slot => coreOk c && slotOk slot
  | .wquietPoll c slot => coreOk c && slotOk slot
  | .neighbourWordArrival _ => true
  | .reelArrivalCombine _ => true
  | .reelRelease _ => true
  | .matrixCommandStart c => coreOk c
  | .matrixTileWrite c => coreOk c
  | .remoteCommandArrival _ => true
  | .copyRun c => coreOk c
  | .cfetchLoadComplete c => coreOk c
  | .ampGroup pkg cluster _ => pkgOk pkg && clusterOk cluster
  | .ampPermRun pkg cluster => pkgOk pkg && clusterOk cluster
  | .braidRunStart pkg cluster => pkgOk pkg && clusterOk cluster
  | .braidStepComplete pkg cluster _ _ => pkgOk pkg && clusterOk cluster
  | .queueStepPush pkg cluster _ _ => pkgOk pkg && clusterOk cluster
  | .shootdownAtRoot => true
  | .shootdownAtNode pkg => pkgOk pkg
  | .hubShootdownAck pkg cluster => pkgOk pkg && clusterOk cluster
  | .shinvCompletion => true
  | .kernelPacket pkg _ => pkgOk pkg
  | .copyPacket pkg _ => pkgOk pkg
  | .braidPacket pkg _ => pkgOk pkg
  | .ampPacket pkg _ => pkgOk pkg
  | .waitflagPacket pkg _ => pkgOk pkg
  | .signalPacket pkg _ => pkgOk pkg
  | .descriptorNotification pkg _ => pkgOk pkg
  | .gridAdmission pkg _ => pkgOk pkg
  | .groupPlacement pkg die => pkgOk pkg && dieOk die
  | .ageingPromotion pkg _ => pkgOk pkg
  | .eviction pkg die => pkgOk pkg && dieOk die
  | .groupRestore pkg die => pkgOk pkg && dieOk die
  | .gridDoneArrival pkg _ => pkgOk pkg
  | .runQueuePickup pkg cluster => pkgOk pkg && clusterOk cluster
  | .headSegmentLoad pkg cluster => pkgOk pkg && clusterOk cluster
  | .userTrapEntry c slot => coreOk c && slotOk slot
  | .trapDelivery c slot => coreOk c && slotOk slot
  | .trapRecordAppend pkg pid => pkgOk pkg && pidOk pid
  | .mailboxNotificationEntry pkg _ => pkgOk pkg
  | .timerWake c slot => coreOk c && slotOk slot
  | .preemptHaltGrid pkg pid _ => pkgOk pkg && pidOk pid
  | .preemptHaltPartition pkg pid => pkgOk pkg && pidOk pid
  | .preemptHaltCrews pkg pid _ _ => pkgOk pkg && pidOk pid
  | .preemptResume pkg pid => pkgOk pkg && pidOk pid
  | .haltComplete pkg pid => pkgOk pkg && pidOk pid
  | .saveComplete pkg pid => pkgOk pkg && pidOk pid
  | .lateResultLanding _ => true
  | .imgctlRestore pkg pid _ => pkgOk pkg && pidOk pid
  | .imgctlDiscard pkg pid _ => pkgOk pkg && pidOk pid
  | .registerWrite pkg pid _ _ => pkgOk pkg && pidOk pid
  | .uncorrectableError pkg _ => pkgOk pkg
  | .correctedErrorReport pkg cluster => pkgOk pkg && clusterOk cluster
  | .scrubPass pkg cluster => pkgOk pkg && clusterOk cluster
  | .linkReplay pkg _ => pkgOk pkg
  | .linkDown pkg _ => pkgOk pkg
  | .fabricResend pkg _ => pkgOk pkg
  | .channelRekey pkg _ => pkgOk pkg
  | .hostWindowWrite pkg _ _ _ _ => pkgOk pkg
  | .hostWindowRead pkg _ _ _ _ => pkgOk pkg
  | .hmbxWrite pkg pid _ => pkgOk pkg && pidOk pid
  | .hfaultDoorbell pkg pid _ => pkgOk pkg && pidOk pid
  | .fordmapWrite pkg pid _ _ => pkgOk pkg && pidOk pid
  | .qtabWrite pkg _ => pkgOk pkg
  | .retentionEnter pkg cluster => pkgOk pkg && clusterOk cluster
  | .retentionExit pkg cluster => pkgOk pkg && clusterOk cluster
  | .reencodeComplete pkg cluster => pkgOk pkg && clusterOk cluster
  | .pcapWrite pkg _ => pkgOk pkg
  | .clockStep pkg _ => pkgOk pkg
  | .thermalTrip pkg die => pkgOk pkg && dieOk die
  | .powerGood pkg _ => pkgOk pkg
  | .partitionCreate pkg pid _ _ _ => pkgOk pkg && pidOk pid
  | .partitionDestroy pkg pid => pkgOk pkg && pidOk pid
  | .jobFormation _ _ _ _ => true
  | .getVersion pkg _ => pkgOk pkg
  | .getCapabilities pkg _ => pkgOk pkg
  | .negotiateAlgorithms pkg _ => pkgOk pkg
  | .getDigests pkg _ => pkgOk pkg
  | .getCertificate pkg _ => pkgOk pkg
  | .challenge pkg _ _ => pkgOk pkg
  | .getMeasurements pkg _ _ => pkgOk pkg
  | .keyExchange pkg _ => pkgOk pkg
  | .finish pkg _ => pkgOk pkg
  | .mgmtReadSensors pkg => pkgOk pkg
  | .mgmtReadErrorLog pkg _ => pkgOk pkg
  | .mgmtSetPowerCap pkg _ => pkgOk pkg
  | .mgmtPreempt pkg pid => pkgOk pkg && pidOk pid
  | .moduleReset pkg => pkgOk pkg
  | .firmwareUpdate pkg _ _ => pkgOk pkg
  | .undefinedInstruction e => decide (1 ≤ e.cause) && decide (e.cause ≤ 5)

end Sys2Proof
end

