-- ==== Sys2Proof/Decode.lean ====
section
/-!
DEFINITION. Decoding of instruction words and the encoder (spec/05_instruction_encoding.md, and the encoding tables of
spec/06 to spec/11 and spec/15). Decoding is total: a word chain that is no instruction decodes to
`undefinedInstruction` with the CAUSE and the AUX word of R455. A chain is read into a `Raw` (R141 to R144), and a `Raw` into
an instruction; the checks of a row stand in the order of R455: field and form rules (CAUSE 3), order and scope (CAUSE 5),
register files (CAUSE 2). A register at or beyond the kernel's allotment (R35) is judged when the instruction issues.
-/
namespace Sys2Proof

/-- The forms of R144. -/
inductive Form where
  | n | i | x | xi
deriving DecidableEq, Repr

/-- The payload of a REG word (R141). -/
structure RegWord where
  mod : Nat
  ah : Nat
  bh : Nat
  ch : Nat
  c : Nat
deriving DecidableEq, Repr

/-- The payload of a PRED word (R141). -/
structure PredWord where
  ord : Nat
  scope : Nat
  neg : Bool
  pn : Nat
deriving DecidableEq, Repr

/-- The opcode slot of R157. -/
structure Slot where
  page : Nat
  major : Nat
  func : Nat
deriving DecidableEq, Repr

/-- A chain of prefixes with its base word (R139, R141): fields only, no meaning. -/
structure Raw where
  slot : Slot
  sw : Bool
  a : Nat
  b : Nat
  reg : Option RegWord
  imms : List Nat
  pred : Option PredWord
deriving DecidableEq, Repr

namespace Raw

def mod (r : Raw) : Nat := match r.reg with | some w => w.mod | none => 0
def ah (r : Raw) : Nat := match r.reg with | some w => w.ah | none => 0
def bh (r : Raw) : Nat := match r.reg with | some w => w.bh | none => 0
def ch (r : Raw) : Nat := match r.reg with | some w => w.ch | none => 0
def c (r : Raw) : Nat := match r.reg with | some w => w.c | none => 0
def func (r : Raw) : Nat := r.slot.func

/-- The form of R144. -/
def form (r : Raw) : Form :=
  match r.reg, r.imms with
  | none, [] => .n
  | none, _ :: _ => .i
  | some _, [] => .x
  | some _, _ :: _ => .xi

/-- The unsigned immediate (R143). -/
def immU (r : Raw) : Nat :=
  (r.imms.foldl (fun acc w => acc * 1024 + w) 0) * 32 + (match r.reg with | some w => w.c | none => r.b)

/-- The signed immediate: the top bit of the 5 + 10 k bits is the sign (R143). -/
def immS (r : Raw) : Int :=
  let n := 5 + 10 * r.imms.length
  if 2 ^ (n - 1) ≤ r.immU then (r.immU : Int) - 2 ^ n else r.immU

def immOf (sg : Bool) (r : Raw) : Int := if sg then r.immS else r.immU

def gA (r : Raw) : GReg := Fin.ofNat 64 (r.ah * 32 + r.a)
def gB (r : Raw) : GReg := Fin.ofNat 64 (r.bh * 32 + r.b)
def gC (r : Raw) : GReg := Fin.ofNat 64 (r.ch * 32 + r.c)
def vA (r : Raw) : VReg := Fin.ofNat 32 r.a
def vB (r : Raw) : VReg := Fin.ofNat 32 r.b
def vC (r : Raw) : VReg := Fin.ofNat 32 r.c
def pA (r : Raw) : PReg := Fin.ofNat 8 r.a
def pB (r : Raw) : PReg := Fin.ofNat 8 r.b
def pC (r : Raw) : PReg := Fin.ofNat 8 r.c

/-- The extension bit of a field is zero: a vector field then names a register of the file; in a predicate, tile or nf field, and where an
entry says so, it must be zero (R153, R455). DESIGN CHOICE: log entry 17. -/
def vAok (r : Raw) : Bool := r.ah == 0
def vBok (r : Raw) : Bool := r.bh == 0
def vCok (r : Raw) : Bool := r.ch == 0
/-- A predicate, tile or nf field names a register of the file (R153). -/
def eAok (r : Raw) : Bool := decide (r.a < 8)
def eBok (r : Raw) : Bool := decide (r.b < 8)
def eCok (r : Raw) : Bool := decide (r.c < 8)
/-- REG.C and CH are zero where the third operand is absent. -/
def c0 (r : Raw) : Bool := r.c == 0 && r.ch == 0

def pre (r : Raw) : Pre :=
  match r.pred with
  | none => { sw := r.sw, neg := false, pn := 0 }
  | some p => { sw := r.sw, neg := p.neg, pn := Fin.ofNat 8 p.pn }

def ord (r : Raw) : Nat := match r.pred with | some p => p.ord | none => 0
def scope (r : Raw) : Nat := match r.pred with | some p => p.scope | none => 0

/-- The order and scope of PRED (R79, R80). -/
def os (r : Raw) : OrdSc :=
  { ord := match r.ord with | 0 => .rlx | 1 => .acq | 2 => .rel | _ => .ar
    scope := match r.scope with | 0 => .core | 1 => .clu | 2 => .die | 3 => .dev | _ => .sys }

/-- Order and scope bits that the instruction permits; an empty list stands for an instruction with no ordering (R80). -/
def ordsOk (r : Raw) (ords : List Nat) : Bool :=
  match ords with
  | [] => r.ord == 0 && r.scope == 0
  | _ => ords.contains r.ord && decide (r.scope ≤ 4)

/-- The checks of R455, rows 4 to 6, in their order; `mods` is how many MOD values the instruction lists. -/
def need {α : Type} (r : Raw) (forms : List Form) (mods : Nat) (fields : Bool) (ords : List Nat) (regs : Bool) (v : α) :
    Except Nat α :=
  if !(forms.contains r.form && decide (r.mod < mods) && (r.form != .xi || r.ch == 0) && fields) then .error 3
  else if !(r.ordsOk ords) then .error 5
  else if !regs then .error 2
  else .ok v

/-- As `need`, where some values of a field make the instruction trap by itself (R154, R259, R320, R327, R338): its meaning raises that
trap, which comes before an order or scope that the instruction forbids (R455). -/
def needOr {α : Type} (r : Raw) (forms : List Form) (mods : Nat) (fields traps : Bool) (ords : List Nat) (v : α) : Except Nat α :=
  if !(forms.contains r.form && decide (r.mod < mods) && (r.form != .xi || r.ch == 0) && fields) then .error 3
  else if !traps && !(r.ordsOk ords) then .error 5
  else .ok v

/-- A register number that names no block of four (R259, R320, R338). -/
def noBlock (x : GReg) : Bool := x == 0 || decide (x.val % 4 ≠ 0)

/-- A number that no `srr`, or no `srw`, of a user-level thread can name (R154). -/
def srTraps (write : Bool) (n : Nat) : Bool :=
  n == 15 || (decide (20 ≤ n) && decide (n < 64)) || (write && decide (n < 16) && n != 12)

/-- First source of the arithmetic forms (R170). -/
def x (r : Raw) : GReg := match r.form with | .n | .i => r.gA | .x | .xi => r.gB
/-- Second source of the arithmetic forms (R170). -/
def y (sg : Bool) (r : Raw) : Src :=
  match r.form with
  | .n => .reg r.gB | .x => .reg r.gC | .i | .xi => .imm (r.immOf sg)
def yR (r : Raw) : GReg := match r.form with | .n | .i => r.gB | .x | .xi => r.gC
/-- gC or an immediate. -/
def yC (sg : Bool) (r : Raw) : Src := match r.form with | .xi | .i => .imm (r.immOf sg) | .x | .n => .reg r.gC
/-- gB or an immediate (R175, R256). -/
def yB (sg : Bool) (r : Raw) : Src := match r.form with | .xi | .i => .imm (r.immOf sg) | .x | .n => .reg r.gB
/-- The flag operand of an item: form X names gC, form N has none (R212). -/
def flag (r : Raw) : Option GReg := match r.form with | .x | .xi => some r.gC | .n | .i => none
/-- The offset of a memory operand (R144, R213). -/
def off (r : Raw) : Off := match r.form with | .n | .i => .none | .x => .reg r.gC | .xi => .imm r.immS
/-- First and second vector source of the two-source forms (R267). -/
def vx (r : Raw) : VReg := match r.form with | .n | .i => r.vA | .x | .xi => r.vB
def vyV (r : Raw) : VReg := match r.form with | .n | .i => r.vB | .x | .xi => r.vC
def vy (bc : Bool) (r : Raw) : VSrc := if bc then .g r.gC else .v r.vyV

end Raw

def widthOf : Nat → Width
  | 0 => .d | _ => .w
def sizeOf' : Nat → Size
  | 0 => .d | 1 => .w | 2 => .h | _ => .b
def ffmtOf : Nat → FFmt
  | 0 => .f32 | 1 => .f64 | 2 => .f16 | _ => .bf16
def iwOf : Nat → IWidth
  | 0 => .i64 | 1 => .i32 | 2 => .i16 | _ => .i8
def rselOf : Nat → RSel
  | 0 => .dyn | 1 => .rne | 2 => .rtz | 3 => .rdn | _ => .rup

/-! The operand shapes, each with the checks its table gives. -/

def dAlu (sg : Bool) (r : Raw) : Except Nat AluOps :=
  r.need [.n, .i, .x, .xi] 2 true [] true { pre := r.pre, w := widthOf r.mod, rd := r.gA, x := r.x, y := r.y sg }
def dMulh (r : Raw) : Except Nat MulhOps :=
  r.need [.n, .x] 2 true [] true { pre := r.pre, w := widthOf r.mod, rd := r.gA, x := r.x, y := r.yR }
/-- R175. A bit AH or BH set for an operand that the form does not have is ignored, in every form that has REG: R8 and R175 speak of field B, CH and
MOD, and only R200 names BH (`mov`, `movh`, `jov`, `tret`, `srr`, `srw`, `mbxr`, `ppack`, `punpack`). DESIGN CHOICE: log entry 76. -/
def dMov (r : Raw) : Except Nat MovOps :=
  r.need [.n, .i, .x, .xi] 1 ((r.form != .x || r.c0) && (r.form != .xi || r.b == 0)) [] true
    { pre := r.pre, rd := r.gA, y := r.yB true }
def dCmp (sg : Bool) (r : Raw) : Except Nat CmpOps :=
  r.need [.x, .xi] 2 r.vAok [] r.eAok { pre := r.pre, w := widthOf r.mod, pd := r.pA, x := r.gB, y := r.yC sg }
/-- R179: the immediate holds len − 1 and pos. -/
def dBitf (forms : List Form) (r : Raw) : Except Nat BitfOps :=
  r.need forms 1 (decide (r.immU < 4096) && decide (r.immU % 64 + r.immU / 64 + 1 ≤ 64)) [] true
    { pre := r.pre, rd := r.gA, x := r.x, pos := r.immU % 64, len := r.immU / 64 + 1 }
def dUn (mods : Nat) (r : Raw) : Except Nat UnOps :=
  r.need [.n, .x] mods r.c0 [] true { pre := r.pre, w := widthOf r.mod, rd := r.gA, x := r.gB }
def dAddsh (r : Raw) : Except Nat AddshOps :=
  r.need [.x] 1 true [] true { pre := r.pre, rd := r.gA, x := r.gB, y := r.gC, sh := Fin.ofNat 8 r.func }
/-- R175. DESIGN CHOICE: log entry 76. -/
def dMovh (r : Raw) : Except Nat MovhOps :=
  r.need [.i, .xi] 1 (decide (r.immU < 2 ^ 32) && (r.form != .xi || r.b == 0)) [] true
    { pre := r.pre, rd := r.gA, imm := r.immU }
def dFp (fma : Bool) (sel : Nat) (rest : Bool) (r : Raw) : Except Nat FpOps :=
  r.need (if fma then [.x] else [.n, .x]) 4 (rest && decide (sel ≤ 4)) [] true
    { pre := r.pre, fmt := ffmtOf r.mod, rm := rselOf sel, rd := r.gA, x := r.x, y := r.yR }
def dFp1R (mods : Nat) (r : Raw) : Except Nat Fp1ROps :=
  r.need [.n, .x] mods (r.c0 && decide (r.func % 8 ≤ 4)) [] true
    { pre := r.pre, fmt := ffmtOf r.mod, rm := rselOf (r.func % 8), rd := r.gA, x := r.gB }
def dFp2 (r : Raw) : Except Nat Fp2Ops :=
  r.need [.n, .x] 4 true [] true { pre := r.pre, fmt := ffmtOf r.mod, rd := r.gA, x := r.x, y := r.yR }
def dFp1 (r : Raw) : Except Nat Fp1Ops :=
  r.need [.n, .x] 4 r.c0 [] true { pre := r.pre, fmt := ffmtOf r.mod, rd := r.gA, x := r.gB }
def dFcmp (r : Raw) : Except Nat FcmpOps :=
  r.need [.x] 4 r.vAok [] r.eAok { pre := r.pre, fmt := ffmtOf r.mod, pd := r.pA, x := r.gB, y := r.gC }
def dFcvt (r : Raw) : Except Nat FcvtOps :=
  r.need [.n, .x] 1 (r.c0 && r.func / 32 != r.func / 8 % 4 && decide (r.func % 8 ≤ 4)) [] true
    { pre := r.pre, dst := ffmtOf (r.func / 32), src := ffmtOf (r.func / 8 % 4), rm := rselOf (r.func % 8),
      rd := r.gA, x := r.gB }
def dFint (r : Raw) : Except Nat FintOps :=
  r.need [.n, .x] 4 (r.c0 && decide (r.func % 8 ≤ 4)) [] true
    { pre := r.pre, fmt := ffmtOf (r.func / 16 % 4), iw := iwOf r.mod, rm := rselOf (r.func % 8), rd := r.gA, x := r.gB }
def dFnar (ntof : Bool) (r : Raw) : Except Nat FnarOps :=
  r.need [.x] 1 (r.func / 8 % 4 == 0 && decide (r.func % 8 ≤ 4) && (!ntof || r.func % 64 == 0) && r.vCok) [] r.eCok
    { pre := r.pre, sat := r.func / 32 % 2 == 1, rm := rselOf (r.func % 8), nf := r.pC, rd := r.gA, x := r.gB }
def dPred (r : Raw) : Except Nat PredOps :=
  r.need [.n, .x] 1 (r.vAok && r.vBok && r.vCok) [] (r.eAok && r.eBok && r.eCok)
    { pre := r.pre, pd := r.pA
      x := match r.form with | .n | .i => r.pA | .x | .xi => r.pB
      y := match r.form with | .n | .i => r.pB | .x | .xi => r.pC }
def dPset (r : Raw) : Except Nat PsetOps :=
  r.need [.i] 1 (decide (r.immU < 2 ^ 32)) [] r.eAok { pre := r.pre, pd := r.pA, imm := r.immU }
def dPsetg (r : Raw) : Except Nat PsetgOps :=
  r.need [.n, .x] 1 (r.c0 && r.vAok) [] r.eAok { pre := r.pre, pd := r.pA, x := r.gB }
def dPgetg (r : Raw) : Except Nat PgetgOps :=
  r.need [.n, .x] 1 (r.c0 && r.vBok) [] r.eBok { pre := r.pre, rd := r.gA, x := r.pB }
/-- DESIGN CHOICE: log entry 76. -/
def dPpack (r : Raw) : Except Nat PpackOps :=
  r.need [.n, .i, .x, .xi] 1 (decide (r.immU < 32) && (r.reg.isNone || (r.b == 0 && r.ch == 0))) [] true
    { pre := r.pre, g := r.gA, lane := Fin.ofNat 32 r.immU }
def dPsave (r : Raw) : Except Nat PsaveOps :=
  r.need [.n] 1 (decide (r.b < 4)) [] true { pre := r.pre, v := r.vA, k := Fin.ofNat 4 r.b }
/-- R198: PRED is refused, and the predicate stands in field A. -/
def dBr (r : Raw) : Except Nat BrOps :=
  r.need [.n, .i] 1 (r.pred.isNone && decide (r.a < 16)) [] true
    { sw := r.sw, neg := r.a / 8 % 2 == 1, pn := Fin.ofNat 8 (r.a % 8), off := r.immS }
/-- R200. Form XI with a link in g0 to g31 (AH = 0) is accepted, and so in `jov`, `srr` and `srw`: the spec gives the form for g32 to g63 and does not say
that another register traps. DESIGN CHOICE: log entry 76. -/
def dCall (r : Raw) : Except Nat CallOps :=
  r.need [.i, .xi] 1 (r.form != .xi || (r.b == 0 && r.bh == 0)) [] true { pre := r.pre, link := r.gA, off := r.immS }
def dJmp (r : Raw) : Except Nat JmpOps :=
  r.need [.n, .x] 1 r.c0 [] true { pre := r.pre, link := r.gA, tgt := r.gB }
/-- R203. DESIGN CHOICE: log entry 76. -/
def dJov (r : Raw) : Except Nat JovOps :=
  r.need [.i, .xi] 1 (r.form != .xi || r.b == 0) [] true { pre := r.pre, g := r.gA, target := r.immU }
def dFrame (r : Raw) : Except Nat FrameOps :=
  r.need [.n, .i] 1 (r.a == 0 && r.immU % 16 == 0 && decide (16 ≤ r.immU) && decide (r.immU ≤ 32768)) [] true
    { pre := r.pre, n := r.immU }
def dCode (r : Raw) : Except Nat CodeOps :=
  r.need [.n] 1 (r.a == 0) [] true { pre := r.pre, code := Fin.ofNat 32 r.b }
/-- R207. DESIGN CHOICE: log entry 76. -/
def dTret (r : Raw) : Except Nat TretOps :=
  r.need [.n, .x] 1 (r.c0 && r.a == 0) [] true { pre := r.pre, g := r.gB }
/-- R208: a number of 0 to 31 in form I, whose IMM word is then zero, and in form XI with gA in g0 to g31 is accepted. DESIGN CHOICE: log entry 76. -/
def dSr (write : Bool) (r : Raw) : Except Nat SrOps :=
  r.needOr [.n, .i, .xi] 1 ((r.form != .xi || r.b == 0) && decide (r.immU ≤ 1023)) (Raw.srTraps write r.immU) []
    { pre := r.pre, g := r.gA, num := r.immU }
def dBc (r : Raw) : Except Nat BcOps :=
  r.need [.x] 1 (r.a == 0) [] true { pre := r.pre, b := r.gB, c := r.gC }
def dRd (forms : List Form) (r : Raw) : Except Nat RdOps :=
  r.need forms 1 (r.b == 0 && r.c0) [] true { pre := r.pre, rd := r.gA }
def dBlock (forms : List Form) (r : Raw) : Except Nat RdOps :=
  r.needOr forms 1 (r.b == 0 && r.c0) (Raw.noBlock r.gA) [] { pre := r.pre, rd := r.gA }
def dBare (r : Raw) : Except Nat BareOps :=
  r.need [.n] 1 (r.a == 0 && r.b == 0) [] true { pre := r.pre }
def dEcall (r : Raw) : Except Nat EcallOps :=
  r.need [.n, .i] 1 (r.a == 0 && decide (r.immU ≤ 1023)) [] true { pre := r.pre, n := r.immU }
def dMem (sx : Bool) (ords : List Nat) (r : Raw) : Except Nat MemOps :=
  r.need [.n, .x, .xi] 4 (!sx || r.mod != 0) ords true
    { pre := r.pre, os := r.os, size := sizeOf' r.mod, data := r.gA, base := r.gB, off := r.off }
def dVMem (r : Raw) : Except Nat VMemOps :=
  r.need [.n, .x, .xi] 1 r.vAok [] true { pre := r.pre, v := r.vA, base := r.gB, off := r.off }
def dGath (r : Raw) : Except Nat GathOps :=
  r.need [.x] 4 (r.vAok && r.vCok) [] true { pre := r.pre, sc := Fin.ofNat 4 r.mod, v := r.vA, base := r.gB, idx := r.vC }
def dLdf (r : Raw) : Except Nat LdfOps :=
  r.need [.x] 2 true [] r.vAok { pre := r.pre, half := r.mod == 1, v := r.vA, base := r.gB, pitch := r.gC }
def dFence (ords : List Nat) (r : Raw) : Except Nat FenceOps :=
  r.need [.n] 1 (r.a == 0 && r.b == 0) ords true { pre := r.pre, os := r.os }
def dGetl (r : Raw) : Except Nat GetlOps :=
  r.need [.n, .x] 2 true [0, 2] true
    { pre := r.pre, os := r.os, fill := r.mod == 1, dst := r.gA, src := r.gB, flag := r.flag }
/-- R225: FUNC is [2] V, [1] WT, [0] FILL. -/
def dStp (r : Raw) : Except Nat StpOps :=
  if r.func / 4 == 1 then
    r.need [.n, .x] 1 r.vAok [0, 2] true
      { pre := r.pre, os := r.os, wt := r.func / 2 % 2 == 1, fill := r.func % 2 == 1, data := .v r.vA, base := r.gB,
        flag := r.flag }
  else
    r.need [.n, .x] 4 true [0, 2] true
      { pre := r.pre, os := r.os, wt := r.func / 2 % 2 == 1, fill := r.func % 2 == 1, data := .g (sizeOf' r.mod) r.gA,
        base := r.gB, flag := r.flag }
def dAtom (sg : Bool) (r : Raw) : Except Nat AtomOps :=
  r.need [.x, .xi] 2 true [0, 1, 2, 3] true
    { pre := r.pre, os := r.os, w := widthOf r.mod, rd := r.gA, base := r.gB, y := r.yC sg }
def dAcas (r : Raw) : Except Nat AcasOps :=
  r.need [.x] 2 true [0, 1, 2, 3] true
    { pre := r.pre, os := r.os, w := widthOf r.mod, rd := r.gA, base := r.gB, c := r.gC }
def dRed (r : Raw) : Except Nat RedOps :=
  r.need [.n, .x] 2 true [0, 2] true
    { pre := r.pre, os := r.os, w := widthOf r.mod, data := r.gA, base := r.gB, flag := r.flag }
def dAfadd (r : Raw) : Except Nat AfaddOps :=
  r.need [.x] 1 true [0, 1, 2, 3] true { pre := r.pre, os := r.os, rd := r.gA, base := r.gB, y := r.gC }
def dRedFadd (r : Raw) : Except Nat RedFaddOps :=
  r.need [.n, .x] 1 true [0, 2] true { pre := r.pre, os := r.os, data := r.gA, base := r.gB, flag := r.flag }
def dTadd (r : Raw) : Except Nat TaddOps :=
  r.need [.n, .x] 1 r.vAok [0, 2] true { pre := r.pre, os := r.os, v := r.vA, base := r.gB, flag := r.flag }
def dSpawn (r : Raw) : Except Nat SpawnOps :=
  r.need [.x, .xi] 1 true [] true { pre := r.pre, rd := r.gA, b := r.gB, start := r.yC false }
def dFclr (r : Raw) : Except Nat FclrOps :=
  r.need [.n] 1 (r.a == 0) [0, 2] true { pre := r.pre, os := r.os, b := r.gB }
/-- R248: form N takes the count from gA. -/
def dWaitc (r : Raw) : Except Nat WaitcOps :=
  r.need [.n, .x, .xi] 1 (r.form != .xi || decide (r.immU < 2 ^ 32)) [] true
    { pre := r.pre, rd := r.gA, b := r.gB
      n := match r.form with | .n | .i => .reg r.gA | .x => .reg r.gC | .xi => .imm r.immU }
/-- R250: `strict` requires AH and CH to be zero. -/
def dRrr (strict : Bool) (r : Raw) : Except Nat RrrOps :=
  r.need [.x] 1 (!strict || (r.ah == 0 && r.ch == 0)) [] true { pre := r.pre, rd := r.gA, b := r.gB, c := r.gC }
def dBar (r : Raw) : Except Nat BarOps :=
  r.need [.n, .x] 1 (match r.form with
      | .n | .i => decide (r.b < 4)
      | .x | .xi => r.b == 0 && r.ch == 0 && decide (r.c < 4)) [] true
    { pre := r.pre, g := r.gA, k := match r.form with | .n | .i => Fin.ofNat 4 r.b | .x | .xi => Fin.ofNat 4 r.c }
def dBarTest (r : Raw) : Except Nat BarTestOps :=
  r.need [.x] 1 (r.ch == 0 && decide (r.c < 4)) [] true { pre := r.pre, rd := r.gA, x := r.gB, k := Fin.ofNat 4 r.c }
/-- R256: of form XI, of which R256 names no field that is zero, field B is ignored. DESIGN CHOICE: log entry 76. -/
def dGrow (r : Raw) : Except Nat GrowOps :=
  r.need [.n, .x, .xi] 1 (r.form != .x || r.c0) [] true { pre := r.pre, rd := r.gA, y := r.yB false }
def dRb (forms : List Form) (r : Raw) : Except Nat RbOps :=
  r.need forms 1 (r.a == 0 && r.c0) [] true { pre := r.pre, b := r.gB }
def dWsplit (r : Raw) : Except Nat WsplitOps :=
  r.need [.n, .x] 1 r.c0 [] true { pre := r.pre, rd := r.gA, b := r.gB }
def dVFp (fma bc : Bool) (sel : Nat) (r : Raw) : Except Nat VFpOps :=
  r.need (if fma || bc then [.x] else [.n, .x]) 4 (decide (sel ≤ 4)) [] (r.vAok && r.vBok && (bc || r.vCok))
    { pre := r.pre, fmt := ffmtOf r.mod, rm := rselOf sel, vd := r.vA, x := r.vx, y := r.vy bc }
def dVFp1R (mods : Nat) (r : Raw) : Except Nat VFp1ROps :=
  r.need [.n, .x] mods (r.c0 && decide (r.func % 8 ≤ 4)) [] (r.vAok && r.vBok)
    { pre := r.pre, fmt := ffmtOf r.mod, rm := rselOf (r.func % 8), vd := r.vA, x := r.vB }
def dVFp2 (r : Raw) : Except Nat VFp2Ops :=
  r.need [.n, .x] 4 true [] (r.vAok && r.vBok && r.vCok)
    { pre := r.pre, fmt := ffmtOf r.mod, vd := r.vA, x := r.vx, y := r.vyV }
def dVFp1 (r : Raw) : Except Nat VFp1Ops :=
  r.need [.n, .x] 4 r.c0 [] (r.vAok && r.vBok) { pre := r.pre, fmt := ffmtOf r.mod, vd := r.vA, x := r.vB }
/-- R274: FUNC is op, BC, zero, SEL. -/
def dVFcmp (r : Raw) : Except Nat VFcmpOps :=
  r.need [.x] 4 (r.func / 4 % 2 == 0 && decide (r.func % 4 < if (ffmtOf r.mod).bits = 16 then 2 else 1) && r.vAok) []
    (r.eAok && r.vBok && (r.func / 8 % 2 == 1 || r.vCok))
    { pre := r.pre, fmt := ffmtOf r.mod, pd := r.pA, x := r.vB, y := r.vy (r.func / 8 % 2 == 1), sel := r.func % 4 }
def dVIcmp (r : Raw) : Except Nat VIcmpOps :=
  r.need [.x] 4 (r.func / 4 % 2 == 0 &&
      decide (r.func % 4 < match iwOf r.mod with | .i64 => 1 | .i32 => 1 | .i16 => 2 | .i8 => 4) && r.vAok) []
    (r.eAok && r.vBok && (r.func / 8 % 2 == 1 || r.vCok))
    { pre := r.pre, iw := iwOf r.mod, pd := r.pA, x := r.vB, y := r.vy (r.func / 8 % 2 == 1), sel := r.func % 4 }
def dVInt (r : Raw) : Except Nat VIntOps :=
  r.need (if r.func / 8 % 2 == 1 then [.x] else [.n, .x]) 4 (r.func % 8 == 0) []
    (r.vAok && r.vBok && (r.func / 8 % 2 == 1 || r.vCok))
    { pre := r.pre, iw := iwOf r.mod, vd := r.vA, x := r.vx, y := r.vy (r.func / 8 % 2 == 1) }
def dVVV (forms : List Form) (r : Raw) : Except Nat VVVOps :=
  r.need forms 4 (r.func % 8 == 0) [] (r.vAok && r.vBok && r.vCok)
    { pre := r.pre, iw := iwOf r.mod, vd := r.vA, x := r.vx, y := r.vyV }
def dVNar (bad : Nat) (r : Raw) : Except Nat VNarOps :=
  r.need [.n, .x] 4 (r.c0 && r.func / 2 % 4 == 0 && r.mod != bad) [] (r.vAok && r.vBok)
    { pre := r.pre, iw := iwOf r.mod, q := r.func % 2 == 1, vd := r.vA, x := r.vB }
def dVUn (mods : Nat) (fields : Bool) (r : Raw) : Except Nat VUnOps :=
  r.need [.n, .x] mods (r.c0 && fields) [] (r.vAok && r.vBok) { pre := r.pre, iw := iwOf r.mod, vd := r.vA, x := r.vB }
def dVsel (r : Raw) : Except Nat VselOps :=
  r.need [.x] 4 true [] (r.vAok && r.vBok && r.vCok)
    { pre := r.pre, iw := iwOf r.mod, vd := r.vA, x := r.vB, y := r.vC, k := Fin.ofNat 8 (r.func % 8) }
def dVbcast (r : Raw) : Except Nat VbcastOps :=
  r.need [.n, .x] 4 (r.c0 && r.func % 8 == 0) [] r.vAok { pre := r.pre, iw := iwOf r.mod, vd := r.vA, g := r.gB }
def dVext (r : Raw) : Except Nat VextOps :=
  r.need [.xi] 4 (r.func % 8 == 0 && decide (r.immU < 2 ^ (iwOf r.mod).lg)) [] r.vBok
    { pre := r.pre, iw := iwOf r.mod, rd := r.gA, x := r.vB, i := r.immU }
def dVins (r : Raw) : Except Nat VinsOps :=
  r.need [.xi] 4 (r.func % 8 == 0 && decide (r.immU < 2 ^ (iwOf r.mod).lg)) [] r.vAok
    { pre := r.pre, iw := iwOf r.mod, vd := r.vA, g := r.gB, i := r.immU }
def dVFcvt (r : Raw) : Except Nat VFcvtOps :=
  r.need [.n, .x] 4 (r.c0 && r.func / 32 != r.func / 8 % 4 && decide (r.func % 8 ≤ 4) &&
      decide (r.mod < (ffmtOf (r.func / 32)).ratio (ffmtOf (r.func / 8 % 4)))) [] (r.vAok && r.vBok)
    { pre := r.pre, dst := ffmtOf (r.func / 32), src := ffmtOf (r.func / 8 % 4), rm := rselOf (r.func % 8),
      q := Fin.ofNat 4 r.mod, vd := r.vA, x := r.vB }
/-- R280: MOD names the integer width of the floating format. -/
def dVFint (r : Raw) : Except Nat VFintOps :=
  r.need [.n, .x] 4 (r.c0 && decide (r.func % 8 ≤ 4) && iwOf r.mod == (ffmtOf (r.func / 16 % 4)).paired) []
    (r.vAok && r.vBok)
    { pre := r.pre, fmt := ffmtOf (r.func / 16 % 4), rm := rselOf (r.func % 8), vd := r.vA, x := r.vB }
def dVFnar (ntof : Bool) (r : Raw) : Except Nat VFnarOps :=
  r.need [.x] 4 (r.func / 8 % 2 == 0 && decide (r.func % 8 ≤ 4) && (!ntof || (r.func / 32 % 2 == 0 && r.func % 8 == 0)) && r.vCok) []
    (r.vAok && r.vBok && r.eCok)
    { pre := r.pre, sat := r.func / 32 % 2 == 1, rm := rselOf (r.func % 8), nf := r.pC,
      q := Fin.ofNat 8 (r.func / 16 % 2 * 4 + r.mod), vd := r.vA, x := r.vB }
def dVmxsc (r : Raw) : Except Nat VmxscOps :=
  r.need [.x] 1 r.vCok [] (r.vBok && r.eCok) { pre := r.pre, rd := r.gA, x := r.vB, nf := r.pC }
def dVmx (r : Raw) : Except Nat VmxOps :=
  r.need [.x] 4 (decide (r.func % 8 ≤ 4)) [] (r.vAok && r.vBok)
    { pre := r.pre, rm := rselOf (r.func % 8), nf := Fin.ofNat 8 (r.func / 16),
      q := Fin.ofNat 8 (r.func / 8 % 2 * 4 + r.mod), vd := r.vA, x := r.vB, g := r.gC }
def dVperm (r : Raw) : Except Nat VpermOps :=
  r.need [.xi] 4 (decide (r.immU < 512) &&
      decide (if r.immU / 128 < 2 then r.immU % 128 < 2 ^ (iwOf r.mod).lg else r.immU % 128 = 0)) [] (r.vAok && r.vBok)
    { pre := r.pre, iw := iwOf r.mod, vd := r.vA, x := r.vB, mode := Fin.ofNat 4 (r.immU / 128), k := r.immU % 128 }
/-- R286: a GS that no width allows (FUNC 16 and 24 to 127) is a field out of range, CAUSE 3, and no unassigned FUNC. DESIGN CHOICE: log entry 76. -/
def dVrot (r : Raw) : Except Nat VrotOps :=
  r.need [.x, .xi] 4 (gsOk (r.func - 16) (iwOf r.mod).lg) [] (r.vAok && r.vBok)
    { pre := r.pre, iw := iwOf r.mod, gs := r.func - 16, vd := r.vA, x := r.vB, y := r.yC false }
def dVvote (r : Raw) : Except Nat VvoteOps :=
  r.need [.x] 1 (r.ch == 0 && gsOk r.c 5 && r.vAok && r.vBok) [] (r.eAok && r.eBok) { pre := r.pre, pd := r.pA, x := r.pB, gs := r.c }
def dVballot (r : Raw) : Except Nat VballotOps :=
  r.need [.n, .x] 1 (r.c0 && r.vBok) [] r.eBok { pre := r.pre, rd := r.gA, x := r.pB }
def dVFred (mm : Bool) (r : Raw) : Except Nat VFredOps :=
  r.need [.x] 4 (r.ch == 0 && gsOk r.c (ffmtOf r.mod).lg && r.func / 8 % 2 == 0 && decide (r.func % 8 ≤ 4) &&
      (!mm || r.func % 8 == 0)) [] (r.vAok && r.vBok)
    { pre := r.pre, fmt := ffmtOf r.mod, rm := rselOf (r.func % 8), gs := r.c, vd := r.vA, x := r.vB }
def dVIred (r : Raw) : Except Nat VIredOps :=
  r.need [.x] 4 (r.ch == 0 && gsOk r.c (iwOf r.mod).lg) [] (r.vAok && r.vBok)
    { pre := r.pre, iw := iwOf r.mod, gs := r.c, vd := r.vA, x := r.vB }
def dVFscan (mm : Bool) (r : Raw) : Except Nat VFscanOps :=
  r.need [.x] 4 (r.ch == 0 && gsOk r.c (ffmtOf r.mod).lg && decide (r.func % 8 ≤ 4) && (!mm || r.func % 8 == 0)) []
    (r.vAok && r.vBok)
    { pre := r.pre, fmt := ffmtOf r.mod, rm := rselOf (r.func % 8), ex := r.func / 8 % 2 == 1, gs := r.c, vd := r.vA,
      x := r.vB }
def dVIscan (r : Raw) : Except Nat VIscanOps :=
  r.need [.x] 4 (r.ch == 0 && gsOk r.c (iwOf r.mod).lg && r.func % 8 == 0) [] (r.vAok && r.vBok)
    { pre := r.pre, iw := iwOf r.mod, ex := r.func / 8 % 2 == 1, gs := r.c, vd := r.vA, x := r.vB }
/-- R300: with RING the B operand is omitted. -/
def dMma (mods : Nat) (half : Bool) (r : Raw) : Except Nat MmaOps :=
  r.need [.x] mods ((r.func / 2 % 2 == 0 || r.c0) && r.vAok) [] r.eAok
    { pre := r.pre, half := half && r.mod == 1, z := r.func % 2 == 1, t := r.pA, a := r.gB,
      b := if r.func / 2 % 2 == 1 then none else some r.gC }
def dMmaI (r : Raw) : Except Nat MmaIOps :=
  r.need [.x] 2 ((r.func / 2 % 2 == 0 || r.c0) && r.vAok) [] r.eAok
    { pre := r.pre, z := r.func % 2 == 1, sat := r.func / 4 % 2 == 1, sa := r.func / 8 % 2 == 1,
      sb := r.func / 16 % 2 == 1, t := r.pA, a := r.gB, b := if r.func / 2 % 2 == 1 then none else some r.gC }
def dTile (r : Raw) : Except Nat TileOps := r.need [.n] 1 (r.b == 0) [] r.eAok { pre := r.pre, t := r.pA }
def dMload (r : Raw) : Except Nat MloadOps := r.need [.n] 1 true [] r.eAok { pre := r.pre, t := r.pA, b := r.gB }
def dMdrain (mods : Nat) (r : Raw) : Except Nat MdrainOps :=
  r.need [.n, .x] mods (r.func / 8 % 2 == 0 && r.vAok) [0, 2] r.eAok
    { pre := r.pre, os := r.os, note := r.func / 4 % 2 == 1, i32 := r.mod == 1, t := r.pA, b := r.gB, flag := r.flag }
def dMdrainQ (r : Raw) : Except Nat MdrainQOps :=
  r.need [.x] 1 r.vAok [0, 2] r.eAok
    { pre := r.pre, os := r.os, note := r.func / 4 % 2 == 1, u := r.func / 8 % 2 == 1, t := r.pA, b := r.gB, param := r.gC }
def dMrd (r : Raw) : Except Nat MrdOps :=
  r.need [.x] 1 (r.ch == 0 && decide (r.c < 8) && r.vBok) [] (r.vAok && r.eBok) { pre := r.pre, v := r.vA, t := r.pB, h := r.pC }
def dMring (r : Raw) : Except Nat MringOps :=
  r.need [.x] 4 (r.a == 0 && r.c0) [] true { pre := r.pre, cls := Fin.ofNat 4 r.mod, b := r.gB }
def dMfmt (r : Raw) : Except Nat MfmtOps := r.need [.n] 1 true [] r.eAok { pre := r.pre, nf := r.pA, x := r.gB }
def dMfmtr (r : Raw) : Except Nat MfmtrOps := r.need [.n] 1 true [] r.eBok { pre := r.pre, rd := r.gA, nf := r.pB }
def dShape (r : Raw) : Except Nat ShapeOps :=
  r.need [.n, .x] 1 r.c0 [] (r.vAok && r.vBok) { pre := r.pre, vd := r.vA, x := r.vB }
def dCopy (r : Raw) : Except Nat CopyOps :=
  if Raw.noBlock r.gB then r.needOr [.n, .x] 1 r.c0 true [0, 2] { pre := r.pre, os := r.os, v := r.vA, b := r.gB }
  else r.need [.n, .x] 1 r.c0 [0, 2] r.vAok { pre := r.pre, os := r.os, v := r.vA, b := r.gB }
def dShard (mods : Nat) (ords : List Nat) (r : Raw) : Except Nat ShardOps :=
  r.needOr [.x] mods true (r.c % 2 == 1) ords { pre := r.pre, os := r.os, sx := r.mod == 1, rd := r.gA, b := r.gB, c := r.gC }
def dCfetch (r : Raw) : Except Nat CfetchOps :=
  r.need [.n, .x] 1 (r.a == 0) [0, 2] true { pre := r.pre, os := r.os, b := r.gB, flag := r.flag }
def dAmp (r : Raw) : Except Nat AmpOps := r.need [.n] 1 (r.a == 0) [0, 2] true { pre := r.pre, os := r.os, b := r.gB }
def dColl (r : Raw) : Except Nat CollOps :=
  r.need [.x] 1 (r.a == 0) [0, 2] true { pre := r.pre, os := r.os, b := r.gB, c := r.gC }
def dBaddq (r : Raw) : Except Nat BaddqOps :=
  r.need [.x] 1 (r.func / 8 % 2 == 0 && decide (r.func % 8 ≤ 4)) [] (r.vAok && r.vBok && r.vCok)
    { pre := r.pre, rm := rselOf (r.func % 8), nf := Fin.ofNat 8 (r.func / 16), vd := r.vA, x := r.vB, y := r.vC }

/-! Lean's compiled code can tag at most 245 constructors that hold data, and Instr has more: what builds an instruction is
marked noncomputable, which concerns compiled code only. -/
noncomputable section

/-- Page 0: the assigned slots (R156, R158). -/
def decodePage0 (r : Raw) : Except Nat Instr :=
  match r.slot.major with
  | 1 => (dAlu true r).map .add
  | 2 => (dAlu true r).map .sub
  | 3 => (dAlu true r).map .and
  | 4 => (dAlu true r).map .or
  | 5 => (dAlu true r).map .xor
  | 6 => (dAlu false r).map .shl
  | 7 => (dAlu false r).map .shr
  | 8 => (dAlu false r).map .sar
  | 9 => (dAlu true r).map .mul
  | 10 => (dMov r).map .mov
  | 11 => (dMem false [] r).map .ld
  | 12 => (dMem false [] r).map .st
  | 13 => (dVMem r).map .vld
  | 14 => (dVMem r).map .vst
  | 15 => (dBr r).map .br
  | 16 => (dCall r).map .call
  | 17 => (dJmp r).map .jmp
  | 18 => (dCmp true r).map .ceq
  | 19 => (dCmp true r).map .clt
  | 20 => (dCmp false r).map .cltu
  | 21 => (dFp false 0 true r).map .fadd
  | 22 => (dFp false 0 true r).map .fmul
  | 23 => (dFp true 0 true r).map .ffma
  | 27 => (dFp false 0 true r).map .fsub
  | 24 => (dVFp false false 0 r).map .vadd
  | 25 => (dVFp false false 0 r).map .vmul
  | 26 => (dVFp true false 0 r).map .vfma
  | _ => .error 1

/-- Page 1: the assigned slots (R156, R158). -/
def decodePage1 (r : Raw) : Except Nat Instr :=
  match r.slot.major with
  | 0 =>
    match r.func with
    | 0 => (dAlu true r).map .div
    | 1 => (dAlu false r).map .divu
    | 2 => (dAlu true r).map .rem
    | 3 => (dAlu false r).map .remu
    | _ => .error 1
  | 1 =>
    match r.func with
    | 0 => (dMulh r).map .mulh
    | 1 => (dMulh r).map .mulhu
    | 2 => (dMulh r).map .mulhsu
    | _ => .error 1
  | 2 =>
    match r.func with
    | 0 => (dBitf [.i, .xi] r).map .bfx
    | 1 => (dBitf [.i, .xi] r).map .bfxu
    | 2 => (dBitf [.xi] r).map .bfi
    | _ => .error 1
  | 3 =>
    match r.func with
    | 0 => (dUn 2 r).map .clz
    | 1 => (dUn 2 r).map .ctz
    | 2 => (dUn 2 r).map .popc
    | 3 => (dUn 2 r).map .bswap
    | _ => .error 1
  | 4 =>
    match r.func with
    | 0 => (dUn 1 r).map .sextB
    | 1 => (dUn 1 r).map .sextH
    | 2 => (dUn 1 r).map .sextW
    | 4 => (dUn 1 r).map .zextB
    | 5 => (dUn 1 r).map .zextH
    | 6 => (dUn 1 r).map .zextW
    | _ => .error 1
  | 5 =>
    match r.func with
    | 0 => (dAlu true r).map .min
    | 1 => (dAlu true r).map .max
    | 2 => (dAlu false r).map .minu
    | 3 => (dAlu false r).map .maxu
    | _ => .error 1
  | 6 =>
    match r.func with
    | 0 => (dAlu true r).map .addsat
    | 1 => (dAlu true r).map .subsat
    | 2 => (dAlu false r).map .addsatu
    | 3 => (dAlu false r).map .subsatu
    | _ => .error 1
  | 7 =>
    if r.func < 8 then (dAddsh r).map .addsh else if r.func = 8 then (dMovh r).map .movh else .error 1
  | 8 =>
    match r.func / 8 with
    | 0 => (dFp false (r.func % 8) true r).map .fdiv
    | 1 => (dFp1R 4 r).map .fsqrt
    | _ => .error 1
  | 9 =>
    match r.func with
    | 0 => (dFp2 r).map .fmin
    | 1 => (dFp2 r).map .fmax
    | 2 => (dFp1 r).map .fabs
    | 3 => (dFp1 r).map .fneg
    | _ => .error 1
  | 10 =>
    match r.func with
    | 0 => (dFcmp r).map .fceq
    | 1 => (dFcmp r).map .fclt
    | 2 => (dFcmp r).map .fcle
    | 3 => (dFcmp r).map .fcun
    | 4 => (dFp1 r).map .fclass
    | _ => .error 1
  | 11 => (dFcvt r).map .fcvt
  | 12 =>
    match r.func / 64, r.func / 8 % 2 with
    | 0, 0 => (dFint r).map .ftoi
    | 0, _ => (dFint r).map .ftoiu
    | _, 0 => (dFint r).map .itof
    | _, _ => (dFint r).map .iutof
  | 13 => if r.func / 64 = 0 then (dFnar false r).map .fton else (dFnar true r).map .ntof
  | 14 =>
    match r.func / 8 with
    | 0 => (dFp1R 2 r).map .fexp2
    | 1 => (dFp1R 2 r).map .flog2
    | 2 => (dFp1R 2 r).map .frcp
    | 3 => (dFp1R 2 r).map .frsqrt
    | 4 => (dFp1R 2 r).map .fsinpi
    | 5 => (dFp1R 2 r).map .fcospi
    | _ => .error 1
  | 15 =>
    match r.func / 16 with
    | 0 => (dFp false (r.func % 8) (r.func / 8 % 2 == 0) r).map .faddRounded
    | 1 => (dFp false (r.func % 8) (r.func / 8 % 2 == 0) r).map .fsubRounded
    | 2 => (dFp false (r.func % 8) (r.func / 8 % 2 == 0) r).map .fmulRounded
    | 3 => (dFp true (r.func % 8) (r.func / 8 % 2 == 0) r).map .ffmaRounded
    | 4 => (dFp true (r.func % 8) (r.func / 8 % 2 == 0) r).map .ffms
    | 5 => (dFp true (r.func % 8) (r.func / 8 % 2 == 0) r).map .fnma
    | _ => .error 1
  | _ => .error 1

/-- Page 2: the assigned slots (R156, R158). -/
def decodePage2 (r : Raw) : Except Nat Instr :=
  match r.slot.major with
  | 0 =>
    match r.func with
    | 0 => (dPred r).map .pand
    | 1 => (dPred r).map .por
    | 2 => (dPred r).map .pxor
    | 3 => (dPred r).map .pandn
    | _ => .error 1
  | 1 =>
    match r.func with
    | 0 => (dPset r).map .pset
    | 1 => (dPsetg r).map .psetg
    | 2 => (dPgetg r).map .pgetg
    | 3 => (dPgetg r).map .ppopc
    | _ => .error 1
  | 2 =>
    match r.func with
    | 0 => (dPpack r).map .ppack
    | 1 => (dPpack r).map .punpack
    | _ => .error 1
  | 3 =>
    match r.func with
    | 0 => (dPsave r).map .psave
    | 1 => (dPsave r).map .prest
    | _ => .error 1
  | 4 =>
    match r.func with
    | 0 => (dJov r).map .jov
    | _ => .error 1
  | 5 =>
    match r.func with
    | 0 => (dFrame r).map .enter
    | _ => .error 1
  | 6 =>
    match r.func with
    | 0 => (dFrame r).map .leave
    | _ => .error 1
  | 7 =>
    match r.func with
    | 0 => (dCode r).map .trap
    | _ => .error 1
  | 8 =>
    match r.func with
    | 0 => (dCode r).map .brk
    | _ => .error 1
  | 9 =>
    match r.func with
    | 0 => (dBr r).map .bany
    | 1 => (dBr r).map .ball
    | _ => .error 1
  | 10 =>
    match r.func with
    | 0 => (dTret r).map .tret
    | _ => .error 1
  | 11 =>
    match r.func with
    | 0 => (dSr false r).map .srr
    | _ => .error 1
  | 12 =>
    match r.func with
    | 0 => (dSr true r).map .srw
    | _ => .error 1
  | 13 =>
    match r.func with
    | 0 => (dBc r).map .mbxs
    | 1 => (dRd [.n] r).map .mbxr
    | _ => .error 1
  | 14 =>
    match r.func with
    | 0 => (dBc r).map .tlbsdInval
    | _ => .error 1
  | 15 =>
    match r.func with
    | 0 => (dBare r).map .wfi
    | 1 => (dEcall r).map .ecall
    | _ => .error 1
  | _ => .error 1

/-- Page 3: the assigned slots (R156, R158). -/
def decodePage3 (r : Raw) : Except Nat Instr :=
  match r.slot.major with
  | 0 =>
    match r.func with
    | 0 => (dMem true [] r).map .ldSigned
    | 1 => (dMem false [0, 1] r).map .ldo
    | 2 => (dMem true [0, 1] r).map .ldoSigned
    | _ => .error 1
  | 1 =>
    match r.func with
    | 0 => (dMem false [0, 2] r).map .sto
    | _ => .error 1
  | 2 =>
    match r.func with
    | 0 => (dGath r).map .vgatherW
    | 1 => (dGath r).map .vgatherD
    | 2 => (dGath r).map .vscatterW
    | 3 => (dGath r).map .vscatterD
    | _ => .error 1
  | 3 =>
    match r.func with
    | 0 => (dLdf r).map .ldf
    | _ => .error 1
  | 4 =>
    match r.func with
    | 0 => (dFence [1, 2, 3] r).map .fence
    | 1 => (dFence [0] r).map .fenceSc
    | _ => .error 1
  | 5 =>
    match r.func with
    | 0 => (dGetl r).map .getl
    | _ => .error 1
  | 8 => if r.func < 8 then (dStp r).map .stp else .error 1
  | 9 =>
    match r.func with
    | 0 => (dAtom true r).map .aadd
    | 1 => (dAtom true r).map .amin
    | 2 => (dAtom true r).map .amax
    | 3 => (dAtom false r).map .aminu
    | 4 => (dAtom false r).map .amaxu
    | 5 => (dAtom true r).map .aand
    | 6 => (dAtom true r).map .aor
    | 7 => (dAtom true r).map .axor
    | 8 => (dAtom true r).map .aswp
    | _ => .error 1
  | 11 =>
    match r.func with
    | 0 => (dAcas r).map .acas
    | _ => .error 1
  | 10 =>
    match r.func with
    | 0 => (dRed r).map .redAdd
    | 1 => (dRed r).map .redMin
    | 2 => (dRed r).map .redMax
    | 3 => (dRed r).map .redMinu
    | 4 => (dRed r).map .redMaxu
    | 5 => (dRed r).map .redAnd
    | 6 => (dRed r).map .redOr
    | 7 => (dRed r).map .redXor
    | _ => .error 1
  | 12 =>
    match r.func with
    | 0 => (dAfadd r).map .afaddF32
    | 1 => (dAfadd r).map .afaddBf16
    | 2 => (dRedFadd r).map .redFaddF32
    | 3 => (dRedFadd r).map .redFaddBf16
    | _ => .error 1
  | 13 =>
    match r.func with
    | 0 => (dTadd r).map .taddF32
    | 1 => (dTadd r).map .taddI32
    | 2 => (dTadd r).map .taddBf16
    | _ => .error 1
  | _ => .error 1

/-- Page 4: the assigned slots (R156, R158). -/
def decodePage4 (r : Raw) : Except Nat Instr :=
  match r.slot.major with
  | 0 =>
    match r.func with
    | 0 => (dSpawn r).map .spawn
    | _ => .error 1
  | 1 =>
    match r.func with
    | 0 => (dBare r).map .quit
    | 1 => (dBare r).map .susp
    | _ => .error 1
  | 2 =>
    match r.func with
    | 0 => (dMem false [] r).map .fld
    | 1 => (dMem false [] r).map .fldS
    | _ => .error 1
  | 3 =>
    match r.func with
    | 0 => (dMem false [2] r).map .ffill
    | 1 => (dFclr r).map .fclr
    | _ => .error 1
  | 4 =>
    match r.func with
    | 0 => (dWaitc r).map .waitc
    | _ => .error 1
  | 5 =>
    match r.func with
    | 0 => (dRrr true r).map .armMsg
    | 1 => (dRrr true r).map .armInc
    | 8 => (dRrr false r).map .disarmMsg
    | 9 => (dRrr false r).map .disarmInc
    | _ => .error 1
  | 6 =>
    match r.func with
    | 0 => (dBar r).map .barArrive
    | 1 => (dBar r).map .barWait
    | 2 => (dBarTest r).map .barTest
    | _ => .error 1
  | 7 =>
    match r.func with
    | 0 => (dGrow r).map .grow
    | _ => .error 1
  | 8 =>
    match r.func with
    | 0 => (dRb [.n, .x] r).map .wquiet
    | 1 => (dWsplit r).map .wsplit
    | _ => .error 1
  | 9 =>
    match r.func with
    | 0 => (dBlock [.n, .x] r).map .ibx
    | 1 => (dBlock [.n, .x] r).map .ibxT
    | _ => .error 1
  | _ => .error 1

/-- Page 5: the assigned slots (R156, R158). -/
def decodePage5 (r : Raw) : Except Nat Instr :=
  match r.slot.major with
  | 0 =>
    match r.func / 16 with
    | 0 => (dVFp false (r.func / 8 % 2 == 1) (r.func % 8) r).map .vaddRounded
    | 1 => (dVFp false (r.func / 8 % 2 == 1) (r.func % 8) r).map .vsub
    | 2 => (dVFp false (r.func / 8 % 2 == 1) (r.func % 8) r).map .vmulRounded
    | 3 => (dVFp true (r.func / 8 % 2 == 1) (r.func % 8) r).map .vfmaRounded
    | 4 => (dVFp true (r.func / 8 % 2 == 1) (r.func % 8) r).map .vfms
    | 5 => (dVFp true (r.func / 8 % 2 == 1) (r.func % 8) r).map .vfnma
    | _ => .error 1
  | 1 =>
    match r.func / 8 with
    | 0 => (dVFp false false (r.func % 8) r).map .vdiv
    | 1 => (dVFp1R 4 r).map .vsqrt
    | _ => .error 1
  | 2 =>
    match r.func with
    | 0 => (dVFp2 r).map .vfmin
    | 1 => (dVFp2 r).map .vfmax
    | 2 => (dVFp1 r).map .vfabs
    | 3 => (dVFp1 r).map .vfneg
    | _ => .error 1
  | 3 =>
    match r.func / 16 with
    | 0 => (dVFcmp r).map .vfceq
    | 1 => (dVFcmp r).map .vfclt
    | 2 => (dVFcmp r).map .vfcle
    | 3 => (dVFcmp r).map .vfcun
    | _ => .error 1
  | 4 =>
    match r.func / 16 with
    | 0 => (dVInt r).map .viadd
    | 1 => (dVInt r).map .visub
    | 2 => (dVInt r).map .vimul
    | 3 => (dVInt r).map .vimin
    | 4 => (dVInt r).map .vimax
    | 5 => (dVInt r).map .viminu
    | 6 => (dVInt r).map .vimaxu
    | _ => .error 1
  | 5 =>
    match r.func / 8 with
    | 0 => (dVVV [.n, .x] r).map .viaddsat
    | 1 => (dVVV [.n, .x] r).map .visubsat
    | 2 => (dVVV [.n, .x] r).map .viaddsatu
    | 3 => (dVVV [.n, .x] r).map .visubsatu
    | 4 => (dVNar 0 r).map .vinarrow
    | 5 => (dVNar 0 r).map .vinarrowu
    | 6 => (dVNar 0 r).map .vinarrowsu
    | 7 => (dVNar 3 r).map .viwiden
    | 8 => (dVNar 3 r).map .viwidenu
    | _ => .error 1
  | 6 =>
    match r.func / 16 with
    | 0 => (dVInt r).map .vand
    | 1 => (dVInt r).map .vor
    | 2 => (dVInt r).map .vxor
    | 3 => (dVInt r).map .vandn
    | 4 => (dVInt r).map .vshl
    | 5 => (dVInt r).map .vshr
    | 6 => (dVInt r).map .vsar
    | 7 => if r.func % 2 = 0 then (dVUn 4 (r.func / 2 % 8 == 0) r).map .vpopc else (dVUn 4 (r.func / 2 % 8 == 0) r).map .vclz
    | _ => .error 1
  | 7 =>
    match r.func / 16 with
    | 0 => (dVIcmp r).map .vceq
    | 1 => (dVIcmp r).map .vclt
    | 2 => (dVIcmp r).map .vcltu
    | _ => .error 1
  | 8 =>
    match r.func / 8 with
    | 0 => (dVsel r).map .vsel
    | 1 => (dVUn 4 (r.func % 8 == 0) r).map .vmov
    | 2 => (dVbcast r).map .vbcast
    | 3 => (dVext r).map .vext
    | 4 => (dVins r).map .vins
    | _ => .error 1
  | 9 => (dVFcvt r).map .vfcvt
  | 10 =>
    match r.func / 64, r.func / 8 % 2 with
    | 0, 0 => (dVFint r).map .vftoi
    | 0, _ => (dVFint r).map .vftoiu
    | _, 0 => (dVFint r).map .vitof
    | _, _ => (dVFint r).map .viutof
  | 11 => if r.func / 64 = 0 then (dVFnar false r).map .vfton else (dVFnar true r).map .vntof
  | 12 => (dVmx r).map .vmxpk
  | 13 => (dVmx r).map .vmxunpk
  | 14 =>
    match r.func with
    | 0 => (dVmxsc r).map .vmxsc
    | _ => .error 1
  | 15 =>
    match r.func / 8 with
    | 0 => (dVFp1R 2 r).map .vexp2
    | 1 => (dVFp1R 2 r).map .vlog2
    | 2 => (dVFp1R 2 r).map .vrcp
    | 3 => (dVFp1R 2 r).map .vrsqrt
    | 4 => (dVFp1R 2 r).map .vsinpi
    | 5 => (dVFp1R 2 r).map .vcospi
    | _ => .error 1
  | 16 =>
    match r.func with
    | 0 => (dVVV [.x] r).map .vshuf
    | 1 => (dVperm r).map .vperm
    | _ => if 16 ≤ r.func then (dVrot r).map .vrot else .error 1
  | 17 =>
    match r.func with
    | 0 => (dVvote r).map .vvoteAny
    | 1 => (dVvote r).map .vvoteAll
    | 2 => (dVballot r).map .vvoteBallot
    | 3 => (dVUn 2 true r).map .vmatch
    | _ => .error 1
  | 18 =>
    match r.func / 16 with
    | 0 => (dVFred false r).map .vredAdd
    | 1 => (dVFred true r).map .vredMin
    | 2 => (dVFred true r).map .vredMax
    | _ => .error 1
  | 19 =>
    match r.func with
    | 0 => (dVIred r).map .vredIadd
    | 1 => (dVIred r).map .vredImin
    | 2 => (dVIred r).map .vredImax
    | 3 => (dVIred r).map .vredIminu
    | 4 => (dVIred r).map .vredImaxu
    | 5 => (dVIred r).map .vredAnd
    | 6 => (dVIred r).map .vredOr
    | 7 => (dVIred r).map .vredXor
    | _ => .error 1
  | 20 =>
    match r.func / 16 with
    | 0 => (dVFscan false r).map .vscanAdd
    | 1 => (dVFscan true r).map .vscanMin
    | 2 => (dVFscan true r).map .vscanMax
    | _ => .error 1
  | 21 =>
    match r.func / 16 with
    | 0 => (dVIscan r).map .vscanIadd
    | 1 => (dVIscan r).map .vscanImin
    | 2 => (dVIscan r).map .vscanImax
    | 3 => (dVIscan r).map .vscanIminu
    | 4 => (dVIscan r).map .vscanImaxu
    | _ => .error 1
  | _ => .error 1

/-- Page 6: the assigned slots (R156, R158). -/
def decodePage6 (r : Raw) : Except Nat Instr :=
  match r.slot.major with
  | 0 => if r.func < 4 then (dMma 2 true r).map .mma else .error 1
  | 1 => if r.func < 4 then (dMma 1 false r).map .mmaMx else .error 1
  | 2 =>
    if r.func < 32 then
      match r.mod with
      | 0 => (dMmaI r).map .mmaI8
      | _ => (dMmaI r).map .mmaI4
    else .error 1
  | 3 =>
    if r.func < 4 then
      match r.mod with
      | 0 => (dMma 3 false r).map .mmsrMinplus
      | 1 => (dMma 3 false r).map .mmsrMaxtimes
      | _ => (dMma 3 false r).map .mmsrOrand
    else .error 1
  | 4 =>
    match r.func with
    | 0 => (dTile r).map .mzero
    | 1 => (dMload r).map .mload
    | _ => .error 1
  | 5 =>
    if r.func < 16 then
      match r.func % 4 with
      | 0 => (dMdrain 1 r).map .mdrain
      | 1 => (dMdrain 2 r).map .mdrainAdd
      | 2 => (dMdrainQ r).map .mdrainQ
      | _ => .error 3
    else .error 1
  | 6 =>
    match r.func with
    | 0 => (dTile r).map .mwait
    | 1 => (dBare r).map .mwaitAll
    | _ => .error 1
  | 7 =>
    match r.func with
    | 0 => (dMrd r).map .mrd
    | _ => .error 1
  | 8 =>
    match r.func with
    | 0 => (dBc r).map .mcmd
    | _ => .error 1
  | 9 =>
    match r.func with
    | 0 => (dRrr false r).map .mgrant
    | _ => .error 1
  | 10 =>
    match r.func with
    | 0 => (dMring r).map .mring
    | 1 => (dBare r).map .mringRecv
    | _ => .error 1
  | 11 =>
    match r.func with
    | 0 => (dBare r).map .mpass
    | _ => .error 1
  | 12 =>
    match r.func with
    | 0 => (dRd [.n] r).map .mcap
    | _ => .error 1
  | 13 =>
    match r.func with
    | 0 => (dMfmt r).map .mfmt
    | 1 => (dMfmtr r).map .mfmtr
    | _ => .error 1
  | _ => .error 1

/-- Page 7: the assigned slots (R156, R158). -/
def decodePage7 (r : Raw) : Except Nat Instr :=
  match r.slot.major with
  | 0 =>
    match r.func with
    | 0 => (dShape r).map .shape
    | _ => .error 1
  | 1 =>
    match r.func with
    | 0 => (dCopy r).map .copy
    | _ => .error 1
  | 2 =>
    match r.func with
    | 0 => (dShard 2 [] r).map .lds
    | 1 => (dShard 2 [0, 1] r).map .ldso
    | _ => .error 1
  | 3 =>
    match r.func with
    | 0 => (dShard 1 [] r).map .sts
    | 1 => (dShard 1 [0, 2] r).map .stso
    | _ => .error 1
  | 4 =>
    match r.func with
    | 0 => (dRrr false r).map .shinv
    | _ => .error 1
  | 5 =>
    match r.func with
    | 0 => (dCfetch r).map .cfetch
    | 1 => (dCfetch r).map .cfetchNote
    | _ => .error 1
  | 6 =>
    match r.func with
    | 0 => (dAmp r).map .ampApply
    | _ => .error 1
  | 7 =>
    match r.func with
    | 0 => (dAmp r).map .ampPerm
    | _ => .error 1
  | 8 =>
    match r.func with
    | 0 => (dColl r).map .collRun
    | 1 => (dColl r).map .collRunReload
    | _ => .error 1
  | 9 => (dBaddq r).map .baddq
  | 10 =>
    match r.func with
    | 0 => (dBlock [.n] r).map .blkq
    | 1 => (dRb [.n] r).map .blkqDone
    | _ => .error 1
  | _ => .error 1

/-- The instruction of a chain, or the CAUSE of class illegal (R156 to R158, R455). -/
def decodeRaw (r : Raw) : Except Nat Instr :=
  match r.slot.page with
  | 0 => decodePage0 r
  | 1 => decodePage1 r
  | 2 => decodePage2 r
  | 3 => decodePage3 r
  | 4 => decodePage4 r
  | 5 => decodePage5 r
  | 6 => decodePage6 r
  | 7 => decodePage7 r
  | _ => .error 1

/-- The slot is privileged (R210), or it names a privileged special register (R154). -/
def Raw.privileged (r : Raw) : Bool :=
  r.slot.page == 2 &&
  (match r.slot.major, r.slot.func with
   | 13, 0 | 13, 1 | 14, 0 | 15, 0 => true
   | 11, 0 | 12, 0 => decide (64 ≤ r.immU) && decide (r.immU ≤ 1023)
   | _, _ => false)

/-- The base word (R139). -/
def Raw.baseWord (r : Raw) : Nat := (if r.sw then 32768 else 0) + r.slot.major * 1024 + r.a * 32 + r.b

end

/-- The prefixes of a chain seen so far (R142). -/
structure Chain where
  n : Nat := 0
  page : Option (Nat × Nat) := none
  reg : Option RegWord := none
  pred : Option PredWord := none
  imms : List Nat := []
deriving DecidableEq, Repr

def regWordOf (pay : Nat) : RegWord :=
  { mod := pay / 256, ah := pay / 128 % 2, bh := pay / 64 % 2, ch := pay / 32 % 2, c := pay % 32 }
def predWordOf (pay : Nat) : PredWord :=
  { ord := pay / 128 % 4, scope := pay / 16 % 8, neg := pay / 8 % 2 == 1, pn := pay % 8 }

/-- A chain as it is fetched: the base word ends it; a prefix that breaks R141 or R142 ends it with that word; words that run
out end it with 0 (R455). The number counts the words read, up to the offending one: NWORDS and WORDS of an instruction without a base word (R347).
DESIGN CHOICE: log entry 24. -/
def readChain : List Nat → Chain → Except Nat Raw × Nat
  | [], ch => (.error 0, ch.n)
  | w :: ws, ch =>
    let major := w / 1024 % 32
    let pay := w % 1024
    if major < 28 then
      (.ok { slot := { page := (ch.page.getD (0, 0)).2, major := major, func := (ch.page.getD (0, 0)).1 }
             sw := w / 32768 % 2 == 1, a := w / 32 % 32, b := w % 32, reg := ch.reg, imms := ch.imms, pred := ch.pred },
        ch.n + 1)
    else if w / 32768 % 2 = 1 || ch.n == 4 then (.error w, ch.n + 1)
    else
      match major with
      | 28 => readChain ws { ch with n := ch.n + 1, imms := ch.imms ++ [pay] }
      | 29 =>
        if ch.reg.isSome then (.error w, ch.n + 1)
        else readChain ws { ch with n := ch.n + 1, reg := some (regWordOf pay) }
      | 30 =>
        if ch.page.isSome || pay % 8 == 0 then (.error w, ch.n + 1)
        else readChain ws { ch with n := ch.n + 1, page := some (pay / 8, pay % 8) }
      | _ =>
        if ch.pred.isSome || decide (512 ≤ pay) then (.error w, ch.n + 1)
        else readChain ws { ch with n := ch.n + 1, pred := some (predWordOf pay) }

noncomputable section

/-- An instruction and the number of its words. -/
structure Decoded where
  instr : Instr
  nwords : Nat
deriving DecidableEq, Repr

/-- The words at an address as the instruction they are (R139 to R158, R455). DEDUCED: log entry 70. -/
def decode (ws : List Nat) : Decoded :=
  match readChain ws {} with
  | (.error aux, k) => { instr := .undefinedInstruction { cause := 3, aux := aux, priv := false }, nwords := k }
  | (.ok r, k) =>
    match decodeRaw r with
    | .ok i => { instr := i, nwords := k }
    | .error cause =>
      { instr := .undefinedInstruction { cause := cause, aux := r.baseWord, priv := r.privileged && cause != 1 }, nwords := k }

/-! The encoder: the words of a well-formed instruction, in the prefix order PAGE, PRED, REG, IMM of R142. -/

/-- The IMM payloads of `u`, most significant first: k words of ten bits (R143). -/
def immWords : Nat → Nat → List Nat
  | 0, _ => []
  | k + 1, u => immWords k (u / 1024) ++ [u % 1024]

/-- The fewest IMM words, from k up, that hold the value. -/
def immLen (sg : Bool) (v : Int) : Nat → Nat → Nat
  | 0, k => k
  | fuel + 1, k => if immFits sg k v then k else immLen sg v fuel (k + 1)

/-- The low field and the IMM payloads of an immediate (R143). -/
def immPut (sg : Bool) (kmin : Nat) (v : Int) : Nat × List Nat :=
  let k := immLen sg v 4 kmin
  let u := (v % (2 ^ (5 + 10 * k) : Int)).toNat
  (u % 32, immWords k (u / 32))

/-- A chain with operand numbers a, b, c, with or without a REG word. -/
def enc (useReg : Bool) (s : Slot) (p : Pre) (os : OrdSc) (mod a b c : Nat) (imms : List Nat) : Raw :=
  { slot := s, sw := p.sw, a := a % 32, b := b % 32
    reg := if useReg then some { mod := mod, ah := a / 32, bh := b / 32, ch := c / 32, c := c % 32 } else none
    imms := imms
    pred := if predUsed p os then some { ord := os.ord.code, scope := os.scope.code, neg := p.neg, pn := p.pn.val } else none }

/-- A two-source instruction: form N or I without REG, X or XI with it. -/
def enc2 (useReg : Bool) (s : Slot) (p : Pre) (mod rd x : Nat) (sg : Bool) (y : Src) : Raw :=
  match y with
  | .reg r => enc useReg s p .plain mod rd (if useReg then x else r.val) r.val []
  | .imm v =>
    let i := immPut sg 1 v
    enc useReg s p .plain mod rd (if useReg then x else i.1) i.1 i.2

/-- A one-source instruction: form N, or X with C zero. -/
def enc1 (s : Slot) (p : Pre) (mod rd x : Nat) : Raw :=
  enc (!(decide (rd < 32) && decide (x < 32) && mod == 0)) s p .plain mod rd x 0 []

/-- Form X or XI with gC or an immediate as the third operand. -/
def encC (s : Slot) (p : Pre) (os : OrdSc) (mod a b : Nat) (sg : Bool) (y : Src) : Raw :=
  match y with
  | .reg r => enc true s p os mod a b r.val []
  | .imm v => let i := immPut sg 1 v; enc true s p os mod a b i.1 i.2

/-- An item with an optional flag: form N without it, X with it (R212). -/
def encF (s : Slot) (p : Pre) (os : OrdSc) (mod a b : Nat) (flag : Option GReg) : Raw :=
  match flag with
  | none => enc false s p os mod a b 0 []
  | some f => enc true s p os mod a b f.val []

/-- An immediate-field instruction without REG (R144). -/
def encI (s : Slot) (p : Pre) (a : Nat) (sg : Bool) (v : Int) : Raw :=
  let i := immPut sg 0 v
  enc false s p .plain 0 a i.1 0 i.2

/-- An immediate in form I, or XI where the register needs its extension bit. -/
def encIX (useReg : Bool) (s : Slot) (p : Pre) (a : Nat) (sg : Bool) (v : Int) : Raw :=
  let i := immPut sg 1 v
  enc useReg s p .plain 0 a (if useReg then 0 else i.1) i.1 i.2

def eAlu (s : Slot) (sg : Bool) (o : AluOps) : Raw := enc2 o.reg s o.pre o.w.code o.rd.val o.x.val sg o.y
def eMulh (s : Slot) (o : MulhOps) : Raw := enc2 o.reg s o.pre o.w.code o.rd.val o.x.val false (.reg o.y)
def eMov (s : Slot) (o : MovOps) : Raw :=
  match o.y with
  | .reg r => enc o.reg s o.pre .plain 0 o.rd.val r.val 0 []
  | .imm v => encIX o.reg s o.pre o.rd.val true v
def eCmp (s : Slot) (sg : Bool) (o : CmpOps) : Raw := encC s o.pre .plain o.w.code o.pd.val o.x.val sg o.y
def eBfx (s : Slot) (o : BitfOps) : Raw :=
  enc2 o.reg s o.pre 0 o.rd.val o.x.val false (.imm ((o.len - 1) * 64 + o.pos : Nat))
def eBfi (s : Slot) (o : BitfOps) : Raw :=
  enc2 true s o.pre 0 o.rd.val o.x.val false (.imm ((o.len - 1) * 64 + o.pos : Nat))
def eUn (s : Slot) (o : UnOps) : Raw := enc1 s o.pre o.w.code o.rd.val o.x.val
def eAddsh (o : AddshOps) : Raw := enc true ⟨1, 7, o.sh.val⟩ o.pre .plain 0 o.rd.val o.x.val o.y.val []
def eMovh (o : MovhOps) : Raw := encIX o.reg ⟨1, 7, 8⟩ o.pre o.rd.val false o.imm
def eFp (s : Slot) (fma : Bool) (o : FpOps) : Raw :=
  enc2 (fma || !(o.rd == o.x && low o.rd && low o.y && o.fmt == .f32)) s o.pre o.fmt.code o.rd.val o.x.val false (.reg o.y)
def eFp1R (s : Slot) (o : Fp1ROps) : Raw := enc1 s o.pre o.fmt.code o.rd.val o.x.val
def eFp2 (s : Slot) (o : Fp2Ops) : Raw :=
  enc2 (!(o.rd == o.x && low o.rd && low o.y && o.fmt == .f32)) s o.pre o.fmt.code o.rd.val o.x.val false (.reg o.y)
def eFp1 (s : Slot) (o : Fp1Ops) : Raw := enc1 s o.pre o.fmt.code o.rd.val o.x.val
def eFcmp (s : Slot) (o : FcmpOps) : Raw := enc true s o.pre .plain o.fmt.code o.pd.val o.x.val o.y.val []
def eFcvt (o : FcvtOps) : Raw := enc1 ⟨1, 11, o.dst.code * 32 + o.src.code * 8 + o.rm.code⟩ o.pre 0 o.rd.val o.x.val
def eFint (dir uns : Nat) (o : FintOps) : Raw :=
  enc1 ⟨1, 12, dir * 64 + o.fmt.code * 16 + uns * 8 + o.rm.code⟩ o.pre o.iw.code o.rd.val o.x.val
def eFnar (dir : Nat) (o : FnarOps) : Raw :=
  enc true ⟨1, 13, dir * 64 + (if o.sat then 32 else 0) + o.rm.code⟩ o.pre .plain 0 o.rd.val o.x.val o.nf.val []
def ePred (s : Slot) (o : PredOps) : Raw :=
  if o.pd = o.x then enc false s o.pre .plain 0 o.pd.val o.y.val 0 []
  else enc true s o.pre .plain 0 o.pd.val o.x.val o.y.val []
def ePset (o : PsetOps) : Raw := encIX false ⟨2, 1, 0⟩ o.pre o.pd.val false o.imm
def ePpack (s : Slot) (o : PpackOps) : Raw :=
  if low o.g then enc false s o.pre .plain 0 o.g.val o.lane.val 0 [] else enc true s o.pre .plain 0 o.g.val 0 o.lane.val []
def eBr (s : Slot) (o : BrOps) : Raw :=
  encI s { sw := o.sw, neg := false, pn := 0 } ((if o.neg then 8 else 0) + o.pn.val) true o.off
def eCall (o : CallOps) : Raw := encIX o.reg ⟨0, 16, 0⟩ o.pre o.link.val true o.off
def eSr (s : Slot) (o : SrOps) : Raw :=
  if o.reg then encIX true s o.pre o.g.val false o.num else encI s o.pre o.g.val false o.num
def eBc (s : Slot) (o : BcOps) : Raw := enc true s o.pre .plain 0 0 o.b.val o.c.val []
def eRd (x : Bool) (s : Slot) (o : RdOps) : Raw := enc (x && !low o.rd) s o.pre .plain 0 o.rd.val 0 0 []
def eRb (x : Bool) (s : Slot) (o : RbOps) : Raw := enc (x && !low o.b) s o.pre .plain 0 0 o.b.val 0 []
def eBare (s : Slot) (o : BareOps) : Raw := enc false s o.pre .plain 0 0 0 0 []
def eMem (s : Slot) (o : MemOps) : Raw :=
  match o.off with
  | .none => enc false s o.pre o.os 0 o.data.val o.base.val 0 []
  | .reg r => enc true s o.pre o.os o.size.code o.data.val o.base.val r.val []
  | .imm v => let i := immPut true 1 v; enc true s o.pre o.os o.size.code o.data.val o.base.val i.1 i.2
def eVMem (s : Slot) (o : VMemOps) : Raw :=
  match o.off with
  | .none => enc false s o.pre .plain 0 o.v.val o.base.val 0 []
  | .reg r => enc true s o.pre .plain 0 o.v.val o.base.val r.val []
  | .imm v => let i := immPut true 1 v; enc true s o.pre .plain 0 o.v.val o.base.val i.1 i.2
def eGath (s : Slot) (o : GathOps) : Raw := enc true s o.pre .plain o.sc.val o.v.val o.base.val o.idx.val []
def eLdf (o : LdfOps) : Raw := enc true ⟨3, 3, 0⟩ o.pre .plain (if o.half then 1 else 0) o.v.val o.base.val o.pitch.val []
def eFence (s : Slot) (o : FenceOps) : Raw := enc false s o.pre o.os 0 0 0 0 []
def eGetl (o : GetlOps) : Raw := encF ⟨3, 5, 0⟩ o.pre o.os (if o.fill then 1 else 0) o.dst.val o.src.val o.flag
def eStp (o : StpOps) : Raw :=
  let f := (if o.wt then 2 else 0) + (if o.fill then 1 else 0)
  match o.data with
  | .g sz r => encF ⟨3, 8, f⟩ o.pre o.os sz.code r.val o.base.val o.flag
  | .v r => encF ⟨3, 8, 4 + f⟩ o.pre o.os 0 r.val o.base.val o.flag
def eAtom (f : Nat) (sg : Bool) (o : AtomOps) : Raw := encC ⟨3, 9, f⟩ o.pre o.os o.w.code o.rd.val o.base.val sg o.y
def eAcas (o : AcasOps) : Raw := enc true ⟨3, 11, 0⟩ o.pre o.os o.w.code o.rd.val o.base.val o.c.val []
def eRed (f : Nat) (o : RedOps) : Raw := encF ⟨3, 10, f⟩ o.pre o.os o.w.code o.data.val o.base.val o.flag
def eAfadd (f : Nat) (o : AfaddOps) : Raw := enc true ⟨3, 12, f⟩ o.pre o.os 0 o.rd.val o.base.val o.y.val []
def eRedFadd (f : Nat) (o : RedFaddOps) : Raw := encF ⟨3, 12, f⟩ o.pre o.os 0 o.data.val o.base.val o.flag
def eTadd (f : Nat) (o : TaddOps) : Raw := encF ⟨3, 13, f⟩ o.pre o.os 0 o.v.val o.base.val o.flag
def eSpawn (o : SpawnOps) : Raw := encC ⟨4, 0, 0⟩ o.pre .plain 0 o.rd.val o.b.val false o.start
def eFclr (o : FclrOps) : Raw := enc false ⟨4, 3, 1⟩ o.pre o.os 0 0 o.b.val 0 []
def eWaitc (o : WaitcOps) : Raw :=
  match o.n with
  | .reg r =>
    if r = o.rd && low o.rd && low o.b then enc false ⟨4, 4, 0⟩ o.pre .plain 0 o.rd.val o.b.val 0 []
    else enc true ⟨4, 4, 0⟩ o.pre .plain 0 o.rd.val o.b.val r.val []
  | .imm v => encC ⟨4, 4, 0⟩ o.pre .plain 0 o.rd.val o.b.val false (.imm v)
def eRrr (s : Slot) (o : RrrOps) : Raw := enc true s o.pre .plain 0 o.rd.val o.b.val o.c.val []
def eBar (s : Slot) (o : BarOps) : Raw :=
  if low o.g then enc false s o.pre .plain 0 o.g.val o.k.val 0 [] else enc true s o.pre .plain 0 o.g.val 0 o.k.val []
def eBarTest (o : BarTestOps) : Raw := enc true ⟨4, 6, 2⟩ o.pre .plain 0 o.rd.val o.x.val o.k.val []
def eGrow (o : GrowOps) : Raw :=
  match o.y with
  | .reg r => enc1 ⟨4, 7, 0⟩ o.pre 0 o.rd.val r.val
  | .imm v => let i := immPut false 1 v; enc true ⟨4, 7, 0⟩ o.pre .plain 0 o.rd.val 0 i.1 i.2
def encV (s : Slot) (p : Pre) (mod vd x : Nat) (n : Bool) : VSrc → Raw
  | .g r => enc true s p .plain mod vd x r.val []
  | .v r => enc (!(n && vd == x && mod == 0)) s p .plain mod vd (if n && vd == x && mod == 0 then r.val else x) r.val []
def eVFp (page major op : Nat) (fma : Bool) (o : VFpOps) : Raw :=
  let bc := match o.y with | .g _ => 8 | .v _ => 0
  encV ⟨page, major, if page = 0 then 0 else op * 16 + bc + o.rm.code⟩ o.pre o.fmt.code o.vd.val o.x.val (!fma) o.y
def eVFp1R (s : Slot) (o : VFp1ROps) : Raw := enc1 s o.pre o.fmt.code o.vd.val o.x.val
def eVFp2 (s : Slot) (o : VFp2Ops) : Raw := encV s o.pre o.fmt.code o.vd.val o.x.val true (.v o.y)
def eVFp1 (s : Slot) (o : VFp1Ops) : Raw := enc1 s o.pre o.fmt.code o.vd.val o.x.val
def eVcmp (major op mod sel : Nat) (p : Pre) (pd : PReg) (x : VReg) : VSrc → Raw
  | .g r => enc true ⟨5, major, op * 16 + 8 + sel⟩ p .plain mod pd.val x.val r.val []
  | .v r => enc true ⟨5, major, op * 16 + sel⟩ p .plain mod pd.val x.val r.val []
def eVFcmp (op : Nat) (o : VFcmpOps) : Raw := eVcmp 3 op o.fmt.code o.sel o.pre o.pd o.x o.y
def eVIcmp (op : Nat) (o : VIcmpOps) : Raw := eVcmp 7 op o.iw.code o.sel o.pre o.pd o.x o.y
def eVInt (major op : Nat) (o : VIntOps) : Raw :=
  let bc := match o.y with | .g _ => 8 | .v _ => 0
  encV ⟨5, major, op * 16 + bc⟩ o.pre o.iw.code o.vd.val o.x.val true o.y
def eVVV (s : Slot) (n : Bool) (o : VVVOps) : Raw := encV s o.pre o.iw.code o.vd.val o.x.val n (.v o.y)
def eVNar (op : Nat) (o : VNarOps) : Raw :=
  enc1 ⟨5, 5, op * 8 + (if o.q then 1 else 0)⟩ o.pre o.iw.code o.vd.val o.x.val
def eVUn (s : Slot) (o : VUnOps) : Raw := enc1 s o.pre o.iw.code o.vd.val o.x.val
def eVsel (o : VselOps) : Raw := enc true ⟨5, 8, o.k.val⟩ o.pre .plain o.iw.code o.vd.val o.x.val o.y.val []
def eVbcast (o : VbcastOps) : Raw := enc1 ⟨5, 8, 16⟩ o.pre o.iw.code o.vd.val o.g.val
def eVext (o : VextOps) : Raw := encC ⟨5, 8, 24⟩ o.pre .plain o.iw.code o.rd.val o.x.val false (.imm o.i)
def eVins (o : VinsOps) : Raw := encC ⟨5, 8, 32⟩ o.pre .plain o.iw.code o.vd.val o.g.val false (.imm o.i)
def eVFcvt (o : VFcvtOps) : Raw :=
  enc1 ⟨5, 9, o.dst.code * 32 + o.src.code * 8 + o.rm.code⟩ o.pre o.q.val o.vd.val o.x.val
def eVFint (dir uns : Nat) (o : VFintOps) : Raw :=
  enc1 ⟨5, 10, dir * 64 + o.fmt.code * 16 + uns * 8 + o.rm.code⟩ o.pre o.fmt.paired.code o.vd.val o.x.val
def eVFnar (dir : Nat) (o : VFnarOps) : Raw :=
  enc true ⟨5, 11, dir * 64 + (if o.sat then 32 else 0) + o.q.val / 4 * 16 + o.rm.code⟩ o.pre .plain (o.q.val % 4)
    o.vd.val o.x.val o.nf.val []
def eVmxsc (o : VmxscOps) : Raw := enc true ⟨5, 14, 0⟩ o.pre .plain 0 o.rd.val o.x.val o.nf.val []
def eVmx (major : Nat) (o : VmxOps) : Raw :=
  enc true ⟨5, major, o.nf.val * 16 + o.q.val / 4 * 8 + o.rm.code⟩ o.pre .plain (o.q.val % 4) o.vd.val o.x.val o.g.val []
def eVperm (o : VpermOps) : Raw :=
  encC ⟨5, 16, 1⟩ o.pre .plain o.iw.code o.vd.val o.x.val false (.imm (o.mode.val * 128 + o.k : Nat))
def eVrot (o : VrotOps) : Raw := encC ⟨5, 16, 16 + o.gs⟩ o.pre .plain o.iw.code o.vd.val o.x.val false o.y
def eVvote (s : Slot) (o : VvoteOps) : Raw := enc true s o.pre .plain 0 o.pd.val o.x.val o.gs []
def eVFred (op : Nat) (o : VFredOps) : Raw :=
  enc true ⟨5, 18, op * 16 + o.rm.code⟩ o.pre .plain o.fmt.code o.vd.val o.x.val o.gs []
def eVIred (op : Nat) (o : VIredOps) : Raw := enc true ⟨5, 19, op⟩ o.pre .plain o.iw.code o.vd.val o.x.val o.gs []
def eVFscan (op : Nat) (o : VFscanOps) : Raw :=
  enc true ⟨5, 20, op * 16 + (if o.ex then 8 else 0) + o.rm.code⟩ o.pre .plain o.fmt.code o.vd.val o.x.val o.gs []
def eVIscan (op : Nat) (o : VIscanOps) : Raw :=
  enc true ⟨5, 21, op * 16 + (if o.ex then 8 else 0)⟩ o.pre .plain o.iw.code o.vd.val o.x.val o.gs []
def encRing (s : Nat → Slot) (p : Pre) (mod : Nat) (f : Nat) (t : MReg) (a : GReg) : Option GReg → Raw
  | none => enc true (s (f + 2)) p .plain mod t.val a.val 0 []
  | some r => enc true (s f) p .plain mod t.val a.val r.val []
def eMma (major mod : Nat) (o : MmaOps) : Raw :=
  encRing (fun f => ⟨6, major, f⟩) o.pre mod (if o.z then 1 else 0) o.t o.a o.b
def eMmaI (mod : Nat) (o : MmaIOps) : Raw :=
  encRing (fun f => ⟨6, 2, f⟩) o.pre mod
    ((if o.z then 1 else 0) + (if o.sat then 4 else 0) + (if o.sa then 8 else 0) + (if o.sb then 16 else 0)) o.t o.a o.b
def eTile (s : Slot) (o : TileOps) : Raw := enc false s o.pre .plain 0 o.t.val 0 0 []
def eMdrain (kind : Nat) (o : MdrainOps) : Raw :=
  encF ⟨6, 5, kind + (if o.note then 4 else 0)⟩ o.pre o.os (if o.i32 then 1 else 0) o.t.val o.b.val o.flag
def eMdrainQ (o : MdrainQOps) : Raw :=
  enc true ⟨6, 5, 2 + (if o.note then 4 else 0) + (if o.u then 8 else 0)⟩ o.pre o.os 0 o.t.val o.b.val o.param.val []
def eShard (s : Slot) (o : ShardOps) : Raw :=
  enc true s o.pre o.os (if o.sx then 1 else 0) o.rd.val o.b.val o.c.val []
def eBaddq (o : BaddqOps) : Raw :=
  enc true ⟨7, 9, o.nf.val * 16 + o.rm.code⟩ o.pre .plain 0 o.vd.val o.x.val o.y.val []

/-- The chain of an instruction; a machine step has none. The seven rows of `tlbsd` share one word (R405). -/
def encodeRaw : Instr → Option Raw
  | .add o => some (eAlu ⟨0, 1, 0⟩ true o)
  | .sub o => some (eAlu ⟨0, 2, 0⟩ true o)
  | .and o => some (eAlu ⟨0, 3, 0⟩ true o)
  | .or o => some (eAlu ⟨0, 4, 0⟩ true o)
  | .xor o => some (eAlu ⟨0, 5, 0⟩ true o)
  | .shl o => some (eAlu ⟨0, 6, 0⟩ false o)
  | .shr o => some (eAlu ⟨0, 7, 0⟩ false o)
  | .sar o => some (eAlu ⟨0, 8, 0⟩ false o)
  | .mul o => some (eAlu ⟨0, 9, 0⟩ true o)
  | .mov o => some (eMov ⟨0, 10, 0⟩ o)
  | .ld o => some (eMem ⟨0, 11, 0⟩ o)
  | .st o => some (eMem ⟨0, 12, 0⟩ o)
  | .vld o => some (eVMem ⟨0, 13, 0⟩ o)
  | .vst o => some (eVMem ⟨0, 14, 0⟩ o)
  | .br o => some (eBr ⟨0, 15, 0⟩ o)
  | .call o => some (eCall o)
  | .jmp o => some (enc1 ⟨0, 17, 0⟩ o.pre 0 o.link.val o.tgt.val)
  | .ceq o => some (eCmp ⟨0, 18, 0⟩ true o)
  | .clt o => some (eCmp ⟨0, 19, 0⟩ true o)
  | .cltu o => some (eCmp ⟨0, 20, 0⟩ false o)
  | .fadd o => some (eFp ⟨0, 21, 0⟩ false o)
  | .fmul o => some (eFp ⟨0, 22, 0⟩ false o)
  | .ffma o => some (eFp ⟨0, 23, 0⟩ true o)
  | .fsub o => some (eFp ⟨0, 27, 0⟩ false o)
  | .vadd o => some (eVFp 0 24 0 false o)
  | .vmul o => some (eVFp 0 25 0 false o)
  | .vfma o => some (eVFp 0 26 0 true o)
  | .div o => some (eAlu ⟨1, 0, 0⟩ true o)
  | .divu o => some (eAlu ⟨1, 0, 1⟩ false o)
  | .rem o => some (eAlu ⟨1, 0, 2⟩ true o)
  | .remu o => some (eAlu ⟨1, 0, 3⟩ false o)
  | .mulh o => some (eMulh ⟨1, 1, 0⟩ o)
  | .mulhu o => some (eMulh ⟨1, 1, 1⟩ o)
  | .mulhsu o => some (eMulh ⟨1, 1, 2⟩ o)
  | .bfx o => some (eBfx ⟨1, 2, 0⟩ o)
  | .bfxu o => some (eBfx ⟨1, 2, 1⟩ o)
  | .bfi o => some (eBfi ⟨1, 2, 2⟩ o)
  | .clz o => some (eUn ⟨1, 3, 0⟩ o)
  | .ctz o => some (eUn ⟨1, 3, 1⟩ o)
  | .popc o => some (eUn ⟨1, 3, 2⟩ o)
  | .bswap o => some (eUn ⟨1, 3, 3⟩ o)
  | .sextB o => some (eUn ⟨1, 4, 0⟩ o)
  | .sextH o => some (eUn ⟨1, 4, 1⟩ o)
  | .sextW o => some (eUn ⟨1, 4, 2⟩ o)
  | .zextB o => some (eUn ⟨1, 4, 4⟩ o)
  | .zextH o => some (eUn ⟨1, 4, 5⟩ o)
  | .zextW o => some (eUn ⟨1, 4, 6⟩ o)
  | .min o => some (eAlu ⟨1, 5, 0⟩ true o)
  | .max o => some (eAlu ⟨1, 5, 1⟩ true o)
  | .minu o => some (eAlu ⟨1, 5, 2⟩ false o)
  | .maxu o => some (eAlu ⟨1, 5, 3⟩ false o)
  | .addsat o => some (eAlu ⟨1, 6, 0⟩ true o)
  | .subsat o => some (eAlu ⟨1, 6, 1⟩ true o)
  | .addsatu o => some (eAlu ⟨1, 6, 2⟩ false o)
  | .subsatu o => some (eAlu ⟨1, 6, 3⟩ false o)
  | .addsh o => some (eAddsh o)
  | .movh o => some (eMovh o)
  | .faddRounded o => some (eFp ⟨1, 15, 0 + o.rm.code⟩ false o)
  | .fsubRounded o => some (eFp ⟨1, 15, 16 + o.rm.code⟩ false o)
  | .fmulRounded o => some (eFp ⟨1, 15, 32 + o.rm.code⟩ false o)
  | .ffmaRounded o => some (eFp ⟨1, 15, 48 + o.rm.code⟩ true o)
  | .ffms o => some (eFp ⟨1, 15, 64 + o.rm.code⟩ true o)
  | .fnma o => some (eFp ⟨1, 15, 80 + o.rm.code⟩ true o)
  | .fdiv o => some (eFp ⟨1, 8, o.rm.code⟩ false o)
  | .fsqrt o => some (eFp1R ⟨1, 8, 8 + o.rm.code⟩ o)
  | .fmin o => some (eFp2 ⟨1, 9, 0⟩ o)
  | .fmax o => some (eFp2 ⟨1, 9, 1⟩ o)
  | .fabs o => some (eFp1 ⟨1, 9, 2⟩ o)
  | .fneg o => some (eFp1 ⟨1, 9, 3⟩ o)
  | .fceq o => some (eFcmp ⟨1, 10, 0⟩ o)
  | .fclt o => some (eFcmp ⟨1, 10, 1⟩ o)
  | .fcle o => some (eFcmp ⟨1, 10, 2⟩ o)
  | .fcun o => some (eFcmp ⟨1, 10, 3⟩ o)
  | .fclass o => some (eFp1 ⟨1, 10, 4⟩ o)
  | .fcvt o => some (eFcvt o)
  | .ftoi o => some (eFint 0 0 o)
  | .ftoiu o => some (eFint 0 1 o)
  | .itof o => some (eFint 1 0 o)
  | .iutof o => some (eFint 1 1 o)
  | .fton o => some (eFnar 0 o)
  | .ntof o => some (eFnar 1 o)
  | .fexp2 o => some (eFp1R ⟨1, 14, 0 + o.rm.code⟩ o)
  | .flog2 o => some (eFp1R ⟨1, 14, 8 + o.rm.code⟩ o)
  | .frcp o => some (eFp1R ⟨1, 14, 16 + o.rm.code⟩ o)
  | .frsqrt o => some (eFp1R ⟨1, 14, 24 + o.rm.code⟩ o)
  | .fsinpi o => some (eFp1R ⟨1, 14, 32 + o.rm.code⟩ o)
  | .fcospi o => some (eFp1R ⟨1, 14, 40 + o.rm.code⟩ o)
  | .pand o => some (ePred ⟨2, 0, 0⟩ o)
  | .por o => some (ePred ⟨2, 0, 1⟩ o)
  | .pxor o => some (ePred ⟨2, 0, 2⟩ o)
  | .pandn o => some (ePred ⟨2, 0, 3⟩ o)
  | .pset o => some (ePset o)
  | .psetg o => some (enc1 ⟨2, 1, 1⟩ o.pre 0 o.pd.val o.x.val)
  | .pgetg o => some (enc1 ⟨2, 1, 2⟩ o.pre 0 o.rd.val o.x.val)
  | .ppopc o => some (enc1 ⟨2, 1, 3⟩ o.pre 0 o.rd.val o.x.val)
  | .ppack o => some (ePpack ⟨2, 2, 0⟩ o)
  | .punpack o => some (ePpack ⟨2, 2, 1⟩ o)
  | .psave o => some (enc false ⟨2, 3, 0⟩ o.pre .plain 0 o.v.val o.k.val 0 [])
  | .prest o => some (enc false ⟨2, 3, 1⟩ o.pre .plain 0 o.v.val o.k.val 0 [])
  | .jov o => some (encIX o.reg ⟨2, 4, 0⟩ o.pre o.g.val false o.target)
  | .enter o => some (encI ⟨2, 5, 0⟩ o.pre 0 false o.n)
  | .leave o => some (encI ⟨2, 6, 0⟩ o.pre 0 false o.n)
  | .trap o => some (enc false ⟨2, 7, 0⟩ o.pre .plain 0 0 o.code.val 0 [])
  | .brk o => some (enc false ⟨2, 8, 0⟩ o.pre .plain 0 0 o.code.val 0 [])
  | .bany o => some (eBr ⟨2, 9, 0⟩ o)
  | .ball o => some (eBr ⟨2, 9, 1⟩ o)
  | .tret o => some (enc (!low o.g) ⟨2, 10, 0⟩ o.pre .plain 0 0 o.g.val 0 [])
  | .srr o => some (eSr ⟨2, 11, 0⟩ o)
  | .srw o => some (eSr ⟨2, 12, 0⟩ o)
  | .mbxs o => some (eBc ⟨2, 13, 0⟩ o)
  | .mbxr o => some (eRd false ⟨2, 13, 1⟩ o)
  | .wfi o => some (eBare ⟨2, 15, 0⟩ o)
  | .ecall o => some (encI ⟨2, 15, 1⟩ o.pre 0 false o.n)
  | .tlbsdInval o => some (eBc ⟨2, 14, 0⟩ o)
  | .tlbsdTransit o => some (eBc ⟨2, 14, 0⟩ o)
  | .tlbsdLand o => some (eBc ⟨2, 14, 0⟩ o)
  | .tlbsdDiscard o => some (eBc ⟨2, 14, 0⟩ o)
  | .tlbsdRanges o => some (eBc ⟨2, 14, 0⟩ o)
  | .tlbsdResume o => some (eBc ⟨2, 14, 0⟩ o)
  | .tlbsdRefuse o => some (eBc ⟨2, 14, 0⟩ o)
  | .ldSigned o => some (eMem ⟨3, 0, 0⟩ o)
  | .ldo o => some (eMem ⟨3, 0, 1⟩ o)
  | .ldoSigned o => some (eMem ⟨3, 0, 2⟩ o)
  | .sto o => some (eMem ⟨3, 1, 0⟩ o)
  | .vgatherW o => some (eGath ⟨3, 2, 0⟩ o)
  | .vgatherD o => some (eGath ⟨3, 2, 1⟩ o)
  | .vscatterW o => some (eGath ⟨3, 2, 2⟩ o)
  | .vscatterD o => some (eGath ⟨3, 2, 3⟩ o)
  | .ldf o => some (eLdf o)
  | .fence o => some (eFence ⟨3, 4, 0⟩ o)
  | .fenceSc o => some (eFence ⟨3, 4, 1⟩ o)
  | .getl o => some (eGetl o)
  | .stp o => some (eStp o)
  | .aadd o => some (eAtom 0 true o)
  | .amin o => some (eAtom 1 true o)
  | .amax o => some (eAtom 2 true o)
  | .aminu o => some (eAtom 3 false o)
  | .amaxu o => some (eAtom 4 false o)
  | .aand o => some (eAtom 5 true o)
  | .aor o => some (eAtom 6 true o)
  | .axor o => some (eAtom 7 true o)
  | .aswp o => some (eAtom 8 true o)
  | .acas o => some (eAcas o)
  | .redAdd o => some (eRed 0 o)
  | .redMin o => some (eRed 1 o)
  | .redMax o => some (eRed 2 o)
  | .redMinu o => some (eRed 3 o)
  | .redMaxu o => some (eRed 4 o)
  | .redAnd o => some (eRed 5 o)
  | .redOr o => some (eRed 6 o)
  | .redXor o => some (eRed 7 o)
  | .afaddF32 o => some (eAfadd 0 o)
  | .afaddBf16 o => some (eAfadd 1 o)
  | .redFaddF32 o => some (eRedFadd 2 o)
  | .redFaddBf16 o => some (eRedFadd 3 o)
  | .taddF32 o => some (eTadd 0 o)
  | .taddI32 o => some (eTadd 1 o)
  | .taddBf16 o => some (eTadd 2 o)
  | .spawn o => some (eSpawn o)
  | .quit o => some (eBare ⟨4, 1, 0⟩ o)
  | .susp o => some (eBare ⟨4, 1, 1⟩ o)
  | .fld o => some (eMem ⟨4, 2, 0⟩ o)
  | .fldS o => some (eMem ⟨4, 2, 1⟩ o)
  | .ffill o => some (eMem ⟨4, 3, 0⟩ o)
  | .fclr o => some (eFclr o)
  | .waitc o => some (eWaitc o)
  | .armMsg o => some (eRrr ⟨4, 5, 0⟩ o)
  | .armInc o => some (eRrr ⟨4, 5, 1⟩ o)
  | .disarmMsg o => some (eRrr ⟨4, 5, 8⟩ o)
  | .disarmInc o => some (eRrr ⟨4, 5, 9⟩ o)
  | .barArrive o => some (eBar ⟨4, 6, 0⟩ o)
  | .barWait o => some (eBar ⟨4, 6, 1⟩ o)
  | .barTest o => some (eBarTest o)
  | .grow o => some (eGrow o)
  | .wquiet o => some (eRb true ⟨4, 8, 0⟩ o)
  | .wsplit o => some (enc1 ⟨4, 8, 1⟩ o.pre 0 o.rd.val o.b.val)
  | .ibx o => some (eRd true ⟨4, 9, 0⟩ o)
  | .ibxT o => some (eRd true ⟨4, 9, 1⟩ o)
  | .vaddRounded o => some (eVFp 5 0 0 false o)
  | .vsub o => some (eVFp 5 0 1 false o)
  | .vmulRounded o => some (eVFp 5 0 2 false o)
  | .vfmaRounded o => some (eVFp 5 0 3 true o)
  | .vfms o => some (eVFp 5 0 4 true o)
  | .vfnma o => some (eVFp 5 0 5 true o)
  | .vdiv o => some (eVFp 5 1 0 false o)
  | .vsqrt o => some (eVFp1R ⟨5, 1, 8 + o.rm.code⟩ o)
  | .vfmin o => some (eVFp2 ⟨5, 2, 0⟩ o)
  | .vfmax o => some (eVFp2 ⟨5, 2, 1⟩ o)
  | .vfabs o => some (eVFp1 ⟨5, 2, 2⟩ o)
  | .vfneg o => some (eVFp1 ⟨5, 2, 3⟩ o)
  | .vfceq o => some (eVFcmp 0 o)
  | .vfclt o => some (eVFcmp 1 o)
  | .vfcle o => some (eVFcmp 2 o)
  | .vfcun o => some (eVFcmp 3 o)
  | .vceq o => some (eVIcmp 0 o)
  | .vclt o => some (eVIcmp 1 o)
  | .vcltu o => some (eVIcmp 2 o)
  | .viadd o => some (eVInt 4 0 o)
  | .visub o => some (eVInt 4 1 o)
  | .vimul o => some (eVInt 4 2 o)
  | .vimin o => some (eVInt 4 3 o)
  | .vimax o => some (eVInt 4 4 o)
  | .viminu o => some (eVInt 4 5 o)
  | .vimaxu o => some (eVInt 4 6 o)
  | .viaddsat o => some (eVVV ⟨5, 5, 0⟩ true o)
  | .visubsat o => some (eVVV ⟨5, 5, 8⟩ true o)
  | .viaddsatu o => some (eVVV ⟨5, 5, 16⟩ true o)
  | .visubsatu o => some (eVVV ⟨5, 5, 24⟩ true o)
  | .vinarrow o => some (eVNar 4 o)
  | .vinarrowu o => some (eVNar 5 o)
  | .vinarrowsu o => some (eVNar 6 o)
  | .viwiden o => some (eVNar 7 o)
  | .viwidenu o => some (eVNar 8 o)
  | .vand o => some (eVInt 6 0 o)
  | .vor o => some (eVInt 6 1 o)
  | .vxor o => some (eVInt 6 2 o)
  | .vandn o => some (eVInt 6 3 o)
  | .vshl o => some (eVInt 6 4 o)
  | .vshr o => some (eVInt 6 5 o)
  | .vsar o => some (eVInt 6 6 o)
  | .vpopc o => some (eVUn ⟨5, 6, 112⟩ o)
  | .vclz o => some (eVUn ⟨5, 6, 113⟩ o)
  | .vsel o => some (eVsel o)
  | .vmov o => some (eVUn ⟨5, 8, 8⟩ o)
  | .vbcast o => some (eVbcast o)
  | .vext o => some (eVext o)
  | .vins o => some (eVins o)
  | .vfcvt o => some (eVFcvt o)
  | .vftoi o => some (eVFint 0 0 o)
  | .vftoiu o => some (eVFint 0 1 o)
  | .vitof o => some (eVFint 1 0 o)
  | .viutof o => some (eVFint 1 1 o)
  | .vfton o => some (eVFnar 0 o)
  | .vntof o => some (eVFnar 1 o)
  | .vmxsc o => some (eVmxsc o)
  | .vmxpk o => some (eVmx 12 o)
  | .vmxunpk o => some (eVmx 13 o)
  | .vexp2 o => some (eVFp1R ⟨5, 15, 0 + o.rm.code⟩ o)
  | .vlog2 o => some (eVFp1R ⟨5, 15, 8 + o.rm.code⟩ o)
  | .vrcp o => some (eVFp1R ⟨5, 15, 16 + o.rm.code⟩ o)
  | .vrsqrt o => some (eVFp1R ⟨5, 15, 24 + o.rm.code⟩ o)
  | .vsinpi o => some (eVFp1R ⟨5, 15, 32 + o.rm.code⟩ o)
  | .vcospi o => some (eVFp1R ⟨5, 15, 40 + o.rm.code⟩ o)
  | .vshuf o => some (eVVV ⟨5, 16, 0⟩ false o)
  | .vperm o => some (eVperm o)
  | .vrot o => some (eVrot o)
  | .vvoteAny o => some (eVvote ⟨5, 17, 0⟩ o)
  | .vvoteAll o => some (eVvote ⟨5, 17, 1⟩ o)
  | .vvoteBallot o => some (enc1 ⟨5, 17, 2⟩ o.pre 0 o.rd.val o.x.val)
  | .vmatch o => some (eVUn ⟨5, 17, 3⟩ o)
  | .vredAdd o => some (eVFred 0 o)
  | .vredMin o => some (eVFred 1 o)
  | .vredMax o => some (eVFred 2 o)
  | .vredIadd o => some (eVIred 0 o)
  | .vredImin o => some (eVIred 1 o)
  | .vredImax o => some (eVIred 2 o)
  | .vredIminu o => some (eVIred 3 o)
  | .vredImaxu o => some (eVIred 4 o)
  | .vredAnd o => some (eVIred 5 o)
  | .vredOr o => some (eVIred 6 o)
  | .vredXor o => some (eVIred 7 o)
  | .vscanAdd o => some (eVFscan 0 o)
  | .vscanMin o => some (eVFscan 1 o)
  | .vscanMax o => some (eVFscan 2 o)
  | .vscanIadd o => some (eVIscan 0 o)
  | .vscanImin o => some (eVIscan 1 o)
  | .vscanImax o => some (eVIscan 2 o)
  | .vscanIminu o => some (eVIscan 3 o)
  | .vscanImaxu o => some (eVIscan 4 o)
  | .mma o => some (eMma 0 (if o.half then 1 else 0) o)
  | .mmaMx o => some (eMma 1 0 o)
  | .mmaI8 o => some (eMmaI 0 o)
  | .mmaI4 o => some (eMmaI 1 o)
  | .mmsrMinplus o => some (eMma 3 0 o)
  | .mmsrMaxtimes o => some (eMma 3 1 o)
  | .mmsrOrand o => some (eMma 3 2 o)
  | .mzero o => some (eTile ⟨6, 4, 0⟩ o)
  | .mload o => some (enc false ⟨6, 4, 1⟩ o.pre .plain 0 o.t.val o.b.val 0 [])
  | .mdrain o => some (eMdrain 0 o)
  | .mdrainAdd o => some (eMdrain 1 o)
  | .mdrainQ o => some (eMdrainQ o)
  | .mwait o => some (eTile ⟨6, 6, 0⟩ o)
  | .mwaitAll o => some (eBare ⟨6, 6, 1⟩ o)
  | .mrd o => some (enc true ⟨6, 7, 0⟩ o.pre .plain 0 o.v.val o.t.val o.h.val [])
  | .mcmd o => some (eBc ⟨6, 8, 0⟩ o)
  | .mgrant o => some (eRrr ⟨6, 9, 0⟩ o)
  | .mring o => some (enc true ⟨6, 10, 0⟩ o.pre .plain o.cls.val 0 o.b.val 0 [])
  | .mringRecv o => some (eBare ⟨6, 10, 1⟩ o)
  | .mpass o => some (eBare ⟨6, 11, 0⟩ o)
  | .mcap o => some (eRd false ⟨6, 12, 0⟩ o)
  | .mfmt o => some (enc false ⟨6, 13, 0⟩ o.pre .plain 0 o.nf.val o.x.val 0 [])
  | .mfmtr o => some (enc false ⟨6, 13, 1⟩ o.pre .plain 0 o.rd.val o.nf.val 0 [])
  | .shape o => some (enc1 ⟨7, 0, 0⟩ o.pre 0 o.vd.val o.x.val)
  | .copy o => some (enc (!low o.b) ⟨7, 1, 0⟩ o.pre o.os 0 o.v.val o.b.val 0 [])
  | .lds o => some (eShard ⟨7, 2, 0⟩ o)
  | .ldso o => some (eShard ⟨7, 2, 1⟩ o)
  | .sts o => some (eShard ⟨7, 3, 0⟩ o)
  | .stso o => some (eShard ⟨7, 3, 1⟩ o)
  | .shinv o => some (eRrr ⟨7, 4, 0⟩ o)
  | .cfetch o => some (encF ⟨7, 5, 0⟩ o.pre o.os 0 0 o.b.val o.flag)
  | .cfetchNote o => some (encF ⟨7, 5, 1⟩ o.pre o.os 0 0 o.b.val o.flag)
  | .ampApply o => some (enc false ⟨7, 6, 0⟩ o.pre o.os 0 0 o.b.val 0 [])
  | .ampPerm o => some (enc false ⟨7, 7, 0⟩ o.pre o.os 0 0 o.b.val 0 [])
  | .collRun o => some (enc true ⟨7, 8, 0⟩ o.pre o.os 0 0 o.b.val o.c.val [])
  | .collRunReload o => some (enc true ⟨7, 8, 1⟩ o.pre o.os 0 0 o.b.val o.c.val [])
  | .baddq o => some (eBaddq o)
  | .blkq o => some (eRd false ⟨7, 10, 0⟩ o)
  | .blkqDone o => some (eRb false ⟨7, 10, 1⟩ o)
  | .resultLanding _ _ _ => none
  | .accessAcceptance _ _ _ => none
  | .runAheadEnd _ _ _ => none
  | .refusedRequestRetry _ => none
  | .postedItemDelivery _ => none
  | .countedArrival _ => none
  | .heldInboxRecordEntry _ => none
  | .deferredListWalk _ => none
  | .waitcPoll _ _ => none
  | .wquietPoll _ _ => none
  | .neighbourWordArrival _ => none
  | .reelArrivalCombine _ => none
  | .reelRelease _ => none
  | .matrixCommandStart _ => none
  | .matrixTileWrite _ => none
  | .remoteCommandArrival _ => none
  | .copyRun _ => none
  | .cfetchLoadComplete _ => none
  | .ampGroup _ _ _ => none
  | .ampPermRun _ _ => none
  | .braidRunStart _ _ => none
  | .braidStepComplete _ _ _ _ => none
  | .queueStepPush _ _ _ _ => none
  | .shootdownAtRoot => none
  | .shootdownAtNode _ => none
  | .hubShootdownAck _ _ => none
  | .shinvCompletion => none
  | .kernelPacket _ _ => none
  | .copyPacket _ _ => none
  | .braidPacket _ _ => none
  | .ampPacket _ _ => none
  | .waitflagPacket _ _ => none
  | .signalPacket _ _ => none
  | .descriptorNotification _ _ => none
  | .gridAdmission _ _ => none
  | .groupPlacement _ _ => none
  | .ageingPromotion _ _ => none
  | .eviction _ _ => none
  | .groupRestore _ _ => none
  | .gridDoneArrival _ _ => none
  | .runQueuePickup _ _ => none
  | .headSegmentLoad _ _ => none
  | .userTrapEntry _ _ => none
  | .trapDelivery _ _ => none
  | .trapRecordAppend _ _ => none
  | .mailboxNotificationEntry _ _ => none
  | .timerWake _ _ => none
  | .preemptHaltGrid _ _ _ => none
  | .preemptHaltPartition _ _ => none
  | .preemptHaltCrews _ _ _ _ => none
  | .preemptResume _ _ => none
  | .haltComplete _ _ => none
  | .saveComplete _ _ => none
  | .lateResultLanding _ => none
  | .imgctlRestore _ _ _ => none
  | .imgctlDiscard _ _ _ => none
  | .registerWrite _ _ _ _ => none
  | .uncorrectableError _ _ => none
  | .correctedErrorReport _ _ => none
  | .scrubPass _ _ => none
  | .linkReplay _ _ => none
  | .linkDown _ _ => none
  | .fabricResend _ _ => none
  | .channelRekey _ _ => none
  | .hostWindowWrite _ _ _ _ _ => none
  | .hostWindowRead _ _ _ _ _ => none
  | .hmbxWrite _ _ _ => none
  | .hfaultDoorbell _ _ _ => none
  | .fordmapWrite _ _ _ _ => none
  | .qtabWrite _ _ => none
  | .retentionEnter _ _ => none
  | .retentionExit _ _ => none
  | .reencodeComplete _ _ => none
  | .pcapWrite _ _ => none
  | .clockStep _ _ => none
  | .thermalTrip _ _ => none
  | .powerGood _ _ => none
  | .partitionCreate _ _ _ _ _ => none
  | .partitionDestroy _ _ => none
  | .jobFormation _ _ _ _ => none
  | .getVersion _ _ => none
  | .getCapabilities _ _ => none
  | .negotiateAlgorithms _ _ => none
  | .getDigests _ _ => none
  | .getCertificate _ _ => none
  | .challenge _ _ _ => none
  | .getMeasurements _ _ _ => none
  | .keyExchange _ _ => none
  | .finish _ _ => none
  | .mgmtReadSensors _ => none
  | .mgmtReadErrorLog _ _ => none
  | .mgmtSetPowerCap _ _ => none
  | .mgmtPreempt _ _ => none
  | .moduleReset _ => none
  | .firmwareUpdate _ _ _ => none
  | .undefinedInstruction _ => none

/-- A chain as words (R139, R141), in the order PAGE, PRED, REG, IMM. -/
def Raw.words (r : Raw) : List Nat :=
  (if r.slot.page = 0 then [] else [30 * 1024 + r.slot.func * 8 + r.slot.page]) ++
  (match r.pred with
   | none => []
   | some p => [31 * 1024 + p.ord * 128 + p.scope * 16 + (if p.neg then 8 else 0) + p.pn]) ++
  (match r.reg with
   | none => []
   | some w => [29 * 1024 + w.mod * 256 + w.ah * 128 + w.bh * 64 + w.ch * 32 + w.c]) ++
  r.imms.map (fun i => 28 * 1024 + i) ++ [r.baseWord]

/-- The words of a well-formed instruction. DEDUCED: log entry 70. -/
def encode (i : Instr) : List Nat :=
  match encodeRaw i with
  | some r => r.words
  | none => []

/-- The instruction whose words an instruction shares: itself, but for the rows of `tlbsd`, whose operation is chosen by the
OP field of gB when it runs (R405, R406). DEDUCED: log entry 70. -/
def Instr.shared : Instr → Instr
  | .tlbsdTransit o | .tlbsdLand o | .tlbsdDiscard o | .tlbsdRanges o | .tlbsdResume o | .tlbsdRefuse o => .tlbsdInval o
  | i => i

/-- An instruction has words; a machine step has none. -/
def Instr.hasWords (i : Instr) : Bool := (encodeRaw i).isSome

/-- The words of a table word: spec/opcode_table.json writes a 32-bit row with its first fetched word in bits 31..16 (the
worked encodings of R208 and of the other chapters give the same words in fetch order). -/
def tableWords (nbits w : Nat) : List Nat :=
  if nbits ≤ 16 then [w % 65536] else [w / 65536 % 65536, w % 65536]

/-- What the decoder reads from a row of the opcode table; the words above the row's bits are zero. DEDUCED: log entry 70. -/
def decodeTableWord (nbits w : Nat) : Option Instr :=
  match (decode (tableWords nbits w ++ [0, 0, 0])).instr with
  | .undefinedInstruction _ => none
  | i => some i

end

end Sys2Proof
end

