-- ==== Sys2Proof/Config.lean ====
section
/-!
DEFINITION. What the LX9's implementation or its surroundings decide, and the values that the spec leaves open. Each open value
is an opaque constant: no proof can see what it is, so whatever is proved holds for every value (log entries under
notes/assumptions name each one). A constant that takes a number is applied to the counter State.tick, which every step
advances, so that each use is a fresh value.
-/
namespace Sys2Proof.Config

/-- F.emaxnorm of an nf format that has no finite normal code, which R133 does not give (EW 0, or one exponent bit with only
NaN above): applied to the descriptor's widths and bias. DESIGN CHOICE: log entry 10. -/
opaque noNormalEmax : Nat → Nat → Int → Int

/-- The byte at an address of HBM that no request has written since reset, or under the partition's key: unpredictable (R444,
R447); and a byte of host memory that the LX9 has not written. Applied to the number of the key and the address. DESIGN CHOICE: log entry 4. -/
opaque coldByte : Nat → Nat → Byte

/-- Whether a read of a register that has a result outstanding sees the result (R148): applied to State.tick, the register and the sector. DESIGN CHOICE: log entry 8. -/
opaque earlyRead : Nat → Nat → Nat → Bool

/-- Whether a sector that a failed item covers holds the item's value (R95, R226, R322), applied to State.tick and the sector's number; and
whether a byte of a store whose link failed holds the stored value (R217), applied to State.tick and the byte's address. DESIGN CHOICE: log entry 9. -/
opaque failedSector : Nat → Nat → Bool

/-- Which accepted store is performed next (R82, R110), applied to State.tick: a place in State.wbuf, or none beyond its end. DESIGN CHOICE: log entry 7. -/
opaque drains : Nat → Nat

/-- Who moves next when the agenda is empty, and how many cycles go by (R86 allows every order that the rules do not forbid). DESIGN CHOICE: log entry 1. -/
opaque turn : Nat → Turn

/-- The public keys of the key store, the private key of a package's device identity, and the random number of a signature, applied to State.tick
(R445, R446). DESIGN CHOICE: log entry 11. -/
opaque keyStore : List CurvePoint
opaque deviceKey : Nat → Nat
opaque nonce : Nat → Nat

/-- Corrected errors that a pass of the scrubber meets (R420, R421): applied to State.tick. DESIGN CHOICE: log entry 62. -/
opaque softErrors : Nat → Nat

/-- What the SPDM responder answers where the spec does not give its bytes (R446): applied to the request's code and State.tick. DESIGN CHOICE: log entry 11. -/
opaque spdm : Nat → Nat → List Byte

/-- Whether a host read or atomic completes with Unsupported Request or Completer Abort (R432): applied to State.tick and the host address. DESIGN CHOICE: log entry 64. -/
opaque hostFails : Nat → Nat → Bool

/-- Sensor readings of the management port (R443). DESIGN CHOICE: log entry 11. -/
opaque sensor : Nat → Nat → Dword

/-- The anti-rollback count of the key store, fixed for the machine (R445). DESIGN CHOICE: log entry 11. -/
opaque antiRollback : Nat

/-- The default payload, signature and version of the firmware a package powers on with (R444). DESIGN CHOICE: log entry 11. -/
opaque bootFirmware : Nat → Nat → FwImage

/-- What a fault processor reads in the special registers that describe a place among the 8,192 cores or in a grid, which R356 gives it none of:
applied to its number and the register's. DESIGN CHOICE: log entry 11. -/
opaque fpIndex : Nat → Nat → Dword

end Sys2Proof.Config
end

