-- ==== Sys2Proof/Machine/Flags.lean ====
section
/-!
DEFINITION. The exception flags and the rounding mode of sr.fpc (R123 to R126, spec/04_number_formats.md).
-/
namespace Sys2Proof.Machine

/-- The flags that an operation sets (R124). -/
structure Flags where
  nv : Bool := false
  dz : Bool := false
  of : Bool := false
  uf : Bool := false
  nx : Bool := false
deriving DecidableEq, Repr, Inhabited

/-- No flag. -/
def Flags.none : Flags := {}

/-- Flags accumulate by OR (R125). -/
def Flags.or (a b : Flags) : Flags :=
  { nv := a.nv || b.nv, dz := a.dz || b.dz, of := a.of || b.of, uf := a.uf || b.uf, nx := a.nx || b.nx }

/-- The flags in their places in sr.fpc: NV [7], DZ [6], OF [5], UF [4], NX [3] (R124). -/
def Flags.bits (f : Flags) : Dword :=
  BitVec.ofNat 64 ((if f.nv then 128 else 0) + (if f.dz then 64 else 0) + (if f.of then 32 else 0) +
    (if f.uf then 16 else 0) + (if f.nx then 8 else 0))

/-- sr.fpc after an operation's flags are set: instructions only ever set flags (R125). -/
def setFlags (fpc : Dword) (f : Flags) : Dword := fpc ||| f.bits

/-- A rounding mode (R123). -/
inductive Rm where
  | rne | rtz | rdn | rup
deriving DecidableEq, Repr, Inhabited

/-- The dynamic mode in sr.fpc [1:0] (R124). -/
def fpcRm (fpc : Dword) : Rm :=
  match fpc.toNat % 4 with
  | 0 => .rne | 1 => .rtz | 2 => .rdn | _ => .rup

/-- The mode of a rounding selector, fixed when the instruction issues (R123, R126). -/
def RSelMode (r : RSel) (fpc : Dword) : Rm :=
  match r with
  | .dyn => fpcRm fpc | .rne => .rne | .rtz => .rtz | .rdn => .rdn | .rup => .rup

/-- An `srw` of sr.fpc keeps the defined bits and ignores the reserved ones (R7, R124). -/
def fpcWrite (v : Dword) : Dword := v &&& 0xFB#64

end Sys2Proof.Machine
end

