-- ==== Sys2Proof/Machine/State.lean ====
section
/-!
DEFINITION. The state of the LX9, all of it plain data, and the state right after power-good. The rules are those of spec/.
A part that is not listed (a core, a hub, a package without an entry) holds its reset value.
-/
namespace Sys2Proof.Machine

/-! ## Threads -/

/-- The registers of one slot's thread (R19, R35, R119, R124, R292). g0 and p0 are never stored to (R153). -/
structure Regs where
  g : Vector Dword 64
  v : Vector Vec 32
  p : Vector Word 8
  nf : Vector Half 8
  t : Vector Tile 8
  fpc : Dword
deriving DecidableEq, Repr

/-- Registers of zeros (R38 before the launch values are put in). -/
def Regs.zero : Regs :=
  { g := Vector.replicate 64 0, v := Vector.replicate 32 0, p := Vector.replicate 8 0, nf := Vector.replicate 8 0,
    t := Vector.replicate 8 0, fpc := 0 }

/-- G, V and A of R34. -/
structure Allot where
  g : Nat
  v : Nat
  a : Nat
deriving DecidableEq, Repr, Inhabited

/-- Who makes a request: the core that issued it, the partition and address space it carries (R77), its grid (R48), and what an
inbox record says of the instruction (R260). -/
structure Who where
  core : CoreId
  pid : Nat
  asid : Nat
  gslot : Option Nat
  crew : Nat
  tid : Nat
  pc : Nat
  seg : Nat
deriving DecidableEq, Repr, Inhabited

/-- Where a result goes (R147, R372). -/
inductive Dst where
  | g (r : GReg)
  | v (r : VReg)
  | p (r : PReg)
  | t (r : MReg)
deriving DecidableEq, Repr, Inhabited

/-- The value of an outstanding result: a dword, or the bit ranges (position, width, value) of a vector register. -/
inductive OutVal where
  | none
  | dword (x : Dword)
  | vec (parts : List (Nat × Nat × Nat))
deriving DecidableEq, Repr, Inhabited

/-- A unit of a core that takes one operation at a time: its divide unit, its transcendental unit, and the vector unit's iterative path (R172, R268). -/
inductive LatUnit where
  | divide | transcendental | vectorDivide
deriving DecidableEq, Repr, Inhabited

/-- An outstanding variable-latency result (R147, R368): the instruction's number in the thread, where it goes, its value once
known (`ready`), the flags that land with it, and the number of the later writer that made it stale (R149). -/
structure Out where
  seq : Nat
  dst : Dst
  val : OutVal
  flags : Flags
  ready : Bool
  staleBy : Option Nat
  /-- The unit that is busy until the result lands (R172, R268). -/
  unit : Option LatUnit := none
deriving DecidableEq, Repr, Inhabited

/-- A read-modify-write at a home: the nine operations of R228, the compare and swap of R229, and the adds of R99 and R232. -/
inductive RmwOp where
  | add | min | max | minu | maxu | and | or | xor | swp
  | cas | faddF32 | faddBf16
deriving DecidableEq, Repr, Inhabited

/-- How the bytes of a load become a result (R213, R215, R218, R220, R221). -/
inductive Land where
  /-- A scalar, zero- or sign-extended. -/
  | scalar (signed : Bool)
  /-- Part i goes to bit position i of the list. -/
  | lanes (pos : List Nat)
deriving DecidableEq, Repr, Inhabited

/-- A synchronous access (R152). Addresses are global (aliases already resolved, R76). `span` bytes from the first part lie in one
window and page (R214). -/
inductive AccOp where
  | read (parts : List (Dword × Nat)) (span : Nat) (land : Land)
  | write (parts : List (Dword × List Byte)) (span : Nat)
  /-- The lanes of a vector store, which leave as sector writes (R81, R218). -/
  | sectors (parts : List (Dword × List Byte)) (span : Nat)
  | rmw (op : RmwOp) (a : Dword) (n : Nat) (y cmp : Dword)
  | fill (a : Dword) (bytes : List Byte)
  | clear (a : Dword)
deriving DecidableEq, Repr, Inhabited

/-- An access that its home has not accepted yet, with the registers as they stood at its issue (R152, R410); `no` is its sequence number
towards another package (R423, R440). -/
structure Access where
  seq : Nat
  no : Nat
  op : AccOp
  strong : Bool
  os : OrdSc
  pc : Nat
  seg : Nat
  words : List Half
  ck : Regs
  ckHandler : Bool
  pops : List (Nat × Nat)
  buffered : Bool
  /-- The tensor handle that the hub translated it under (R328). -/
  shard : Option Nat
deriving DecidableEq, Repr

/-- Why a thread is HELD (R39). -/
inductive HeldOn where
  /-- Until every earlier synchronous access is accepted (R152, R410). -/
  | accs
  /-- As at a switch marker (R147, R150, R222). -/
  | results
  /-- At most 32 results outstanding (R368). -/
  | full
  /-- At most 64 posted items, and no held inbox record (R223, R227). -/
  | items
  /-- A neighbour queue: inbound queue, words needed (R62). -/
  | pop (dir n : Nat)
  /-- A neighbour queue of another core: its number, queue, free words needed (R62). -/
  | push (core dir n : Nat)
  /-- The matrix command queue (R291). -/
  | mqueue
  /-- A unit of the core (R172, R268). -/
  | unit (u : LatUnit)
  /-- Commands of the thread on one tile, or on any (R306). -/
  | tiles (t : Option MReg)
  /-- Every command that names a tile of the thread (R294). -/
  | ownTiles
  /-- A full mailbox (R361). -/
  | mailbox (dst : CoreId)
  | wfi
  /-- A page fault's ticket (R410). -/
  | ticket (t : Nat)
  /-- A shard-table shoot-down (R328). -/
  | shinv (id : Nat)
  /-- An access that an instruction makes at its issue, or a `tlbsd`, until a gateway port sends it on (R406, R412, R416). -/
  | port
  /-- A `tlbsd` RANGES, until the requests of a PID and ASID that stood at the ports before a turn are gone (R406). -/
  | ranges (pid asid turn : Nat)
  /-- A `tlbsd` LAND, until every request held for the page has been translated afresh; another operation on the page meanwhile (R406, R417). -/
  | land (pid asid page : Nat)
  /-- A segment that is pending or being fetched again (R203, R375). -/
  | segment (s : Nat)
  /-- A trap that waits for delivery (R150, R365). -/
  | trap
deriving DecidableEq, Repr, Inhabited

/-- What a PARKED thread waits for (R46). -/
inductive ParkOn where
  | line (a : Nat)
  /-- A flag, by its address with the alias resolved, and n (R94). -/
  | flag (a : Dword) (n : Nat)
  | barWait (k p : Nat)
  | barArrive (k phase : Nat)
  /-- The root word of a domain, by its address with the alias resolved (R73). -/
  | root (a : Dword)
  | inbox
  | ring
  | heap
  | mailbox
  /-- As its image had it (R39, R371): its instruction tells on what. -/
  | restored
deriving DecidableEq, Repr, Inhabited

/-- READY, HELD or PARKED (R39); a FREE slot holds no thread. `entry` is the eddy-table entry of the wait (R61). -/
inductive Run where
  | ready
  | held (w : HeldOn)
  | parked (w : ParkOn) (entry : Bool)
deriving DecidableEq, Repr, Inhabited

/-- A trap that has been raised (R362, R347). -/
structure TrapInfo where
  cls : Nat
  cause : Nat
  addr : Dword
  aux : Dword
  pc : Nat
  seg : Nat
  words : List Half
deriving DecidableEq, Repr, Inhabited

/-- A thread in a slot (R39, R67, R154). `woken` is the flag or root word on which a parked wait became true (R248, R257). -/
structure Thread where
  regs : Regs
  allot : Allot
  net : Bool
  pc : Nat
  seg : Nat
  pid : Nat
  asid : Nat
  gslot : Option Nat
  kernel : Nat
  domain : Nat
  weight : Nat
  group : Nat
  tid : Nat
  crew : Nat
  prio : Nat
  slim : Dword
  inHandler : Bool
  run : Run
  marker : Bool
  seq : Nat
  out : List Out
  acc : List Access
  trap : Option TrapInfo
  woken : Option Dword
  /-- Halted by PREEMPT, its image still to be written (R369). -/
  halted : Bool
  /-- The results that were outstanding as it halted: instruction number and target (R151). -/
  haltOuts : List (Nat × Dst) := []
  /-- What its instruction, which waits, has a place for among the core's threads, and since which turn: the neighbour queues that it uses (R62), the
  matrix command queue (R291), a unit (R172). -/
  claims : List (Nat × HeldOn) := []
  /-- The reference clock at its last parking (R393). -/
  parkedAt : Nat
deriving DecidableEq, Repr

/-! ## A core -/

/-- A record of the inbox, with the crew it is addressed to (R259, R260). -/
structure Rec where
  crew : Nat
  d0 : Dword
  d1 : Dword
  d2 : Dword
  d3 : Dword
deriving DecidableEq, Repr, Inhabited

/-- A reel unit (R64): the register, its owner (crew index), and the arrivals towards PHASE and PHASE + 1 (R254).
`era` counts the enablings, so that a release meets only its own (R65). -/
structure Reel where
  reg : Dword
  owner : Option Nat
  now : Nat
  next : Nat
  era : Nat
deriving DecidableEq, Repr, Inhabited

/-- An overlay segment in instruction memory (R329). -/
structure Seg where
  id : Nat
  load : Nat
  size : Nat
deriving DecidableEq, Repr, Inhabited

/-- A load of a segment, by `cfetch` or by the weir (R329, R391); `who` is none for the weir's own; `era` is the tenancy of its core that
it belongs to (R33). -/
structure SegLoad where
  era : Nat
  who : Option Who
  seg : Seg
  image : Dword
  pid : Nat
  asid : Nat
  flag : Dword
  note : Bool
  /-- The number of its `cfetch` among the core's items (R96). -/
  no : Nat := 0
deriving DecidableEq, Repr, Inhabited

/-- A buffer of the ring latch: size, bytes and carried descriptor (R312). -/
structure Latch where
  size : Nat
  bytes : List Byte
  desc : Option Half
deriving DecidableEq, Repr, Inhabited

/-- The commands of the matrix unit (R298). -/
inductive MOp where
  /-- `mma`, `mma.mx`, `mma.i8`/`mma.i4`, `mmsr`: the major, FUNC and MOD of R298. -/
  | product (major func mod : Nat)
  | zero
  | load
  /-- KIND, NOTE, U and MOD of R303, the target, and the flag or parameter block. -/
  | drain (kind : Nat) (note u : Bool) (mod : Nat) (target arg : Dword)
  | ring (cls : Nat)
  | ringRecv
  | pass
deriving DecidableEq, Repr, Inhabited

/-- A command in the queue (R291, R293, R309): its issuing slot and number (or the remote issuer with the block's address and
flag), its tile, operands and the nf values read at issue; `res` once it has started. -/
structure MCmd where
  who : Who
  slot : Nat
  seq : Nat
  remote : Option (Dword × Dword)
  tile : Nat
  op : MOp
  da : Dword
  db : Dword
  nfA : Half
  nfB : Half
  started : Bool
  res : Option Tile
deriving DecidableEq, Repr, Inhabited

/-- The grant of R308. -/
structure Grant where
  slot : Nat
  key : Nat
  mask : Nat
  /-- The image of an evicted or pre-empted holder (R308, R310). -/
  away : Option Nat
deriving DecidableEq, Repr, Inhabited

/-- A core (R19), or a fault processor with its mailbox (R356, R361). -/
structure Core where
  slots : Vector (Option Thread) 16
  last : Nat
  tenancy : Option Nat
  /-- The changes of tenancy so far (R33). -/
  era : Nat
  imem : List Host.Cell
  /-- Header address and BASESIZE of the base segment held (R391). -/
  base : Option (Nat × Nat)
  resident : List Seg
  loads : List SegLoad
  inbox : List Rec
  heldRecs : List Rec
  /-- Inbound neighbour queues: north, east, south, west (R62). -/
  nq : Vector (List Word) 4
  reel : Vector Reel 4
  mq : List MCmd
  latCur : Option Latch
  latInc : Option Latch
  grant : Option Grant
  maxRows : Nat
  /-- A fault processor halted by its own trap (R356). -/
  halted : Bool
  mailbox : List Dword
  /-- The notification queues: the weir or hub that keeps the dword, and the dword (R361). -/
  notify : List (Nat × Dword)
  timer : Dword
  fpas : Dword
deriving DecidableEq, Repr

/-- A reel unit at reset (R64). -/
def Reel.reset : Reel :=
  { reg := 0, owner := none, now := 0, next := 0, era := 0 }

/-- A core right after reset: no thread, no tenancy (R33, R39, R312). DEDUCED: log entry 12. DESIGN CHOICE: log entry 3. -/
def Core.reset : Core :=
  { slots := Vector.replicate 16 none, last := 15, tenancy := none, era := 0, imem := [], base := none, resident := [], loads := [],
    inbox := [], heldRecs := [], nq := Vector.replicate 4 [], reel := Vector.replicate 4 Reel.reset, mq := [],
    latCur := none, latInc := none, grant := none, maxRows := 16, halted := false, mailbox := [], notify := [], timer := 0,
    fpas := 0 }

/-! ## Items, engines and arms -/

/-- An add of one element at a home (R99, R232, R303). -/
structure AddPart where
  off : Nat
  op : RmwOp
  v : Nat
deriving DecidableEq, Repr, Inhabited

/-- What a posted item does (R223 to R232, R303). -/
inductive ItemOp where
  /-- Bytes at offsets from the target, ascending; a filling write if set (R225). -/
  | store (parts : List (Nat × List Byte)) (fill : Bool)
  /-- One read-modify-write of n bytes (R230, R231). -/
  | red (op : RmwOp) (n : Nat) (v : Dword)
  /-- Element adds, 32-byte sector by sector (R232, R303). -/
  | adds (parts : List AddPart)
  /-- A line fetch from `src` (R226). -/
  | getl (src : Dword) (fill : Bool)
deriving DecidableEq, Repr, Inhabited

/-- Where a posted item or an engine operation stands in the memory system (R412, R416). -/
inductive Stage where
  | sent
  /-- Held in a migration buffer. -/
  | buffered
  /-- Refused by a full buffer or fault list. -/
  | refused
  /-- Held in a fault list under a port ticket. -/
  | faulted (ticket : Nat)
deriving DecidableEq, Repr, Inhabited

/-- A posted item in flight (R223): KIND of R227 or R305, target, flag (0 for none), weight share and domain, NOTE of a drain. `retry` is set
while its delivery is being sent again (R96). -/
structure Item where
  id : Nat
  who : Who
  kind : Nat
  op : ItemOp
  addr : Dword
  flag : Dword
  share : Nat
  domain : Nat
  note : Bool
  stage : Stage
  retry : Bool := false
  /-- A posted store with `.rel` at system scope (R93, R382). -/
  pub : Bool := false
deriving DecidableEq, Repr, Inhabited

/-- A counted arrival on its way to its flag (R92): INC for a failed item, the share that returns after it (R72), the KIND of the
record that says that the flag could not take it (R212), and the ADDR and TAG of that record. `counted` is set between the two accesses that a
failed item's arrival makes in host memory (R432), `retry` while its delivery is being sent again (R96). -/
structure Arrival where
  id : Nat
  who : Who
  kind : Nat
  flag : Dword
  inc : Bool
  share : Nat
  domain : Nat
  addr : Dword
  tag : Nat
  stage : Stage
  counted : Bool := false
  retry : Bool := false
  /-- The number of its item (R96). -/
  no : Option Nat := none
deriving DecidableEq, Repr, Inhabited

/-- What an arm does when it fires (R250). -/
inductive ArmOp where
  | msg (tag : Nat)
  | inc (g : Dword)
deriving DecidableEq, Repr, Inhabited

/-- An arm at its flag's home (R97, R250, R252); the flag is its address with the alias resolved. -/
structure Arm where
  who : Who
  flag : Dword
  n : Nat
  op : ArmOp
deriving DecidableEq, Repr, Inhabited

/-- Who asked for an engine operation: a thread's instruction, or a packet with its REPORT address (R386). -/
structure Job where
  who : Who
  flag : Dword
  tag : Nat
  note : Bool
  /-- Queue, REPORT address and number of an engine packet (R386). -/
  packet : Option (Nat × Dword × Nat)
  failed : Bool
  /-- The first failure record of a packet's operation. -/
  firstRec : Option Rec
deriving DecidableEq, Repr, Inhabited

/-- A copy in a core's copy engine (R320, R321): the layout record's 64 bytes as read at issue. -/
structure CopyJob where
  id : Nat
  job : Job
  core : CoreId
  rcd : BitVec 512
  dst : Dword
  src : Dword
  share : Nat
  domain : Nat
deriving DecidableEq, Repr, Inhabited

/-- An amplitude operation (R331 to R334): the command block and the layout records as read at issue, the groups done. -/
structure AmpJob where
  job : Job
  /-- Its number among the core's items (R96). -/
  no : Nat
  perm : Bool
  blk : BitVec 512
  qlr : BitVec 512
  uniRec : BitVec 512
  doneGroups : List Nat
  failGroups : List (Nat × Nat × Dword)
deriving DecidableEq, Repr, Inhabited

/-- A step of a braid (R335). -/
structure Step where
  kind : Nat
  sb : Nat
  db : Nat
  ndep : Nat
  len : Nat
  soff : Dword
  doff : Dword
  succ : List Nat
deriving DecidableEq, Repr, Inhabited

/-- A braid as a hub holds it (R336): none for one that failed the check. -/
structure Braid where
  pkg : Nat
  pid : Nat
  asid : Nat
  addr : Dword
  steps : Option (List Step)
deriving DecidableEq, Repr, Inhabited

/-- A braid run (R336, R337): per step its counter, whether it has completed, whether it or a predecessor failed, and for a
QUEUE step how many blocks were pushed and marked done. -/
structure StepRun where
  cnt : Nat
  done : Bool
  failed : Bool
  tainted : Bool
  pushed : Nat
  marked : Nat
  /-- TICKET of a QUEUE step, once it has pushed a block (R338). -/
  ticket : Option Nat
deriving DecidableEq, Repr, Inhabited

structure BraidRun where
  id : Nat
  job : Job
  addr : Dword
  base : List Dword
  reload : Bool
  started : Bool
  steps : List Step
  st : List StepRun
deriving DecidableEq, Repr, Inhabited

/-- A block of a QUEUE step (R338); the ticket names the run's step. -/
structure Block where
  ticket : Nat
  runId : Nat
  step : Nat
  k : Nat
  src : Dword
  dst : Dword
  tag : Nat
  home : Nat
deriving DecidableEq, Repr, Inhabited

/-- A message between reel units (R65): the arrivals of core `src` for a phase, now at core `at_` on their way to the corner;
or the release of a phase on its way to core `src`, for the enabling `era` of its unit. -/
structure ReelMsg where
  pkg : Nat
  at_ : Nat
  src : Nat
  unit : Nat
  era : Nat
  phase : Nat
  /-- The unit's register as the core's arrivals were complete, and the grid. -/
  reg : Dword
  gslot : Option Nat
deriving DecidableEq, Repr, Inhabited

/-- A write that its home has accepted and not yet performed (R82, R110): the thread, the store's number, and the physical addresses and bytes that
are written as one event; `dest` is the package that its address names (R440), `pub` is set for a form that publishes a packet (R382). -/
structure BufWrite where
  who : Who
  slot : Nat
  seq : Nat
  parts : List (Nat × List Byte)
  dest : Nat
  strong : Bool
  pub : Bool
deriving DecidableEq, Repr, Inhabited

/-- A pushed neighbour word pair on its way (R62, R63), and the tenancy of its target that it belongs to (R33). -/
structure NWord where
  pkg : Nat
  dst : Nat
  dir : Nat
  gslot : Nat
  era : Nat
  words : List Word
deriving DecidableEq, Repr, Inhabited

/-- A remote command on its way to its target core (R309). -/
structure RemoteCmd where
  who : Who
  target : CoreId
  key : Nat
  major : Nat
  func : Nat
  mod : Nat
  tile : Nat
  da : Dword
  db : Dword
  block : Dword
  flag : Dword
  /-- Its number among the issuing core's items (R96). -/
  no : Nat
  /-- Reserved bits of the command block that were not zero (R309). -/
  malformed : Bool
deriving DecidableEq, Repr, Inhabited

/-- A shoot-down (R328): the initiator, the handle and new entry, the nodes still to be visited and the hubs still to
acknowledge, and whether a package was passed over. -/
structure Shoot where
  id : Nat
  who : Who
  slot : Nat
  seq : Nat
  handle : Nat
  entry : BitVec 512
  atRoot : Bool
  nodes : List Nat
  hubs : List (Nat × Nat)
  passed : Bool
deriving DecidableEq, Repr, Inhabited

/-- A deferred-list walk (R61): the cluster and the heap indices plus one still to be moved, newest first. -/
structure Walk where
  pkg : Nat
  cluster : Nat
  pid : Nat
  next : Nat
deriving DecidableEq, Repr, Inhabited

/-! ## Hubs -/

/-- A ring slot in use (R54): its index, the PRIO written at appending and the order of appending. -/
structure RingEnt where
  slot : Nat
  prio : Nat
  order : Nat
deriving DecidableEq, Repr, Inhabited

/-- Retention of a cluster (R451, R452): with the reference clock at which entry or exit ends. -/
inductive Ret where
  | awake
  | entering (till : Nat) (wake : Bool)
  | asleep
  | exiting (till : Nat)
deriving DecidableEq, Repr, Inhabited

/-- An entry of a hub's range cache (R399). -/
structure RangeEnt where
  pid : Nat
  asid : Nat
  base : Nat
  limit : Nat
  stack : Nat
  homePkg : Nat
  homeFp : Nat
deriving DecidableEq, Repr, Inhabited

/-- The redirect entry of an evicted or pre-empted crew (R48, R374): the core, the region, and where the image's line bits and data stand. -/
structure Redirect where
  pkg : Nat
  core : Nat
  gslot : Nat
  crew : Nat
  base : Nat
  size : Nat
  /-- Physical address of the crew image. -/
  image : Nat
  bitsAt : Nat
  dataAt : Nat
  /-- Inbox records stored into the image (R48). -/
  recs : List Rec
  /-- The slots of the crew's stacks, and the enablings of the core's reel units. -/
  home : List Nat
  eras : List Nat
deriving DecidableEq, Repr, Inhabited

/-- A cluster hub (R20). -/
structure Hub where
  ring : List RingEnt
  ringLast : Nat
  ringOrder : Nat
  pickLast : Nat
  shard : List (Nat × BitVec 512)
  ranges : List RangeEnt
  amps : List AmpJob
  runs : List BraidRun
  braids : List Braid
  blocks : List Block
  popped : List Block
  nextTicket : Nat
  ret : Ret
  corrected : Nat
  /-- The reference clock at its last report of corrected errors (R421), and at its last scrubber pass (R420). -/
  lastReport : Option Nat
  scrubbed : Nat
  /-- Uncorrected error entries that wait for the error ring or log (R426). -/
  errs : List (BitVec 256)
deriving DecidableEq, Repr, Inhabited

/-- DESIGN CHOICE: log entry 3. -/
def Hub.reset : Hub :=
  { ring := [], ringLast := 255, ringOrder := 0, pickLast := 15, shard := [], ranges := [], amps := [], runs := [], braids := [],
    blocks := [], popped := [], nextTicket := 0, ret := .awake, corrected := 0, lastReport := none, scrubbed := 0, errs := [] }

/-! ## Translation -/

/-- A TLB entry (R404): the leaf that maps a page. -/
structure Tlb where
  stack : Nat
  pid : Nat
  asid : Nat
  va : Nat
  big : Bool
  leafAt : Nat
  leaf : Dword
deriving DecidableEq, Repr, Inhabited

/-- A page in transit at a gateway port (R406, R416). While LAND sends on what is held, `landing` is the core whose request is next (R417). -/
structure Transit where
  stack : Nat
  pid : Nat
  asid : Nat
  va : Nat
  big : Bool
  landing : Option CoreId := none
deriving DecidableEq, Repr, Inhabited

/-- What a weir asks of memory: the slot at the head of a queue, with its HIDX; what a packet needs; the base segment and the borrows of a grid. -/
inductive WeirReq where
  | head (q hidx : Nat)
  | packet (q index : Nat)
  | grid (gs : Nat)
deriving DecidableEq, Repr, Inhabited

/-- What is held at a port, in a fault list or for a retry (R412, R416). -/
inductive Req where
  /-- An access by its number, of a thread in a slot or of its image. -/
  | access (c : CoreId) (slot no : Nat)
  | item (id : Nat)
  | arrival (id : Nat)
  /-- A copy, a segment load, an amplitude group (a permutation has none), the reading of a braid or a step of a run (R412). -/
  | copy (id : Nat)
  | load (c : CoreId)
  | amp (pkg cluster : Nat) (g : Option Nat)
  | braid (pkg cluster run : Nat) (step : Option Nat)
  /-- A request of a weir. -/
  | weir (k : WeirReq)
  /-- A return of weight. -/
  | owed (id : Nat)
  /-- An access that an instruction makes at its issue, by its thread's slot and the instruction's number: the thread is HELD meanwhile and issues
  it again. -/
  | issue (c : CoreId) (slot seq : Nat)
  /-- A `tlbsd` DISCARD of a page in transit: the fault processor and its slot, PID, ASID and address (R406). -/
  | discard (c : CoreId) (slot pid asid va : Nat)
deriving DecidableEq, Repr, Inhabited

/-- A request held at a gateway port (R412, R416): the page it needs, and its ticket when it faulted. -/
structure PortReq where
  core : CoreId
  stack : Nat
  pid : Nat
  asid : Nat
  page : Nat
  /-- The page is one of 2 MiB. -/
  big : Bool
  req : Req
  ticket : Option Nat
  /-- An engine's request that was answered REFUSE (R413). -/
  refused : Bool
  /-- The turn in which it came to the port (R406). -/
  since : Nat := 0
deriving DecidableEq, Repr, Inhabited

/-- A page of a batch: whether the access writes, its address, its package and page, and its home (R411). -/
structure Probe where
  write : Bool
  addr : Dword
  pkg : Nat
  page : Nat
  homePkg : Nat
  homeFp : Nat
deriving DecidableEq, Repr, Inhabited

/-- A thread that runs ahead of its fault (R411): the registers and PC of its shadow slot, the invalid registers of each kind by number, the
instructions that it may still run, the pages of the batch, and whether run-ahead has ended by itself. -/
structure Ahead where
  regs : Regs
  pc : Nat
  seg : Nat
  badG : List Nat
  badV : List Nat
  badP : List Nat
  left : Nat
  pages : List Probe
  ended : Bool
deriving DecidableEq, Repr

/-- A page fault of a thread before its batch is sent (R411). -/
structure FaultWait where
  core : CoreId
  slot : Nat
  ticket : Nat
  page : Nat
  addr : Dword
  write : Bool
  homePkg : Nat
  homeFp : Nat
  sent : Bool
  /-- The words of the faulting instruction (R347). -/
  words : List Half
  /-- The reference clock at the fault; whether the thread has one of the core's two shadow slots; and how far it has run ahead. -/
  since : Nat := 0
  shadow : Bool := false
  ahead : Option Ahead := none
deriving DecidableEq, Repr

/-- A fault record that waits for room in its ring (R408). -/
structure FaultRec where
  homePkg : Nat
  homeFp : Nat
  pid : Nat
  d0 : Dword
  page : Dword
  addr : Dword
  rq : Dword
  /-- The hub or gateway that sends it (R361). -/
  sender : Nat
deriving DecidableEq, Repr, Inhabited

/-! ## Partitions, queues and grids -/

/-- The registers of a partition block that hold values (R359, R369, R376), and the host's (R430, R433, R434, R442). -/
structure PBlock where
  pctl : Dword
  fpmap : Dword
  domtab : Dword
  heap : Dword
  shardtab : Dword
  trapq : Dword
  tqtail : Nat
  tqhead : Dword
  imgpool : Dword
  imgsize : Dword
  parea : Dword
  pasize : Dword
  pstat : Dword
  istat : Dword
  /-- The image operation that IMGCTL asked for: OP and IMAGE (R376). -/
  imgreq : Option (Nat × Nat)
  hstat : Dword
  hresp : Dword
  hfault : Vector Dword 8
  fordmap : Vector Dword 8
  /-- Which encryption epoch the partition's stacks run under (R447). -/
  key : Nat
deriving DecidableEq, Repr

def PBlock.reset : PBlock :=
  { pctl := 0, fpmap := 0, domtab := 0, heap := 0, shardtab := 0, trapq := 0, tqtail := 0, tqhead := 0, imgpool := 0,
    imgsize := 0, parea := 0, pasize := 0, pstat := 0, istat := 0, imgreq := none, hstat := 0, hresp := 0, hfault := Vector.replicate 8 0,
    fordmap := Vector.replicate 8 0, key := 0 }

/-- Trap records and trapped threads that wait for the trap queue (R365). -/
structure TrapWait where
  pid : Nat
  rcd : BitVec 512
  gslot : Nat
  /-- The index it was appended at, its message still to be sent (R361). -/
  sent : Option Nat
deriving DecidableEq, Repr, Inhabited

/-- The fields of a kernel header that the machine uses (R166). -/
structure Header where
  net : Bool
  reel : Bool
  conf : Bool
  coloc : Bool
  g : Nat
  v : Nat
  a : Nat
  roles : Nat
  spad : Nat
  stack : Nat
  pool : Nat
  trapen : Nat
  trapvec : Nat
  entry : Nat
  baseSize : Nat
  segtab : Nat
  segcount : Nat
  /-- The segment table as read at admission (R168): id, LOAD, SIZE, IMAGE. -/
  segs : List (Nat × Nat × Nat × Nat)
deriving DecidableEq, Repr, Inhabited

/-- The states of a grid (R388). -/
inductive GridSt where
  | waiting | running | draining | faulted | halted | done
deriving DecidableEq, Repr, Inhabited

/-- A crew of a placed group: its core and crew index, and the threads that launch created and that have neither quit nor suspended. -/
structure CrewAt where
  core : Nat
  crew : Nat
  live : Nat
  slots : List Nat
deriving DecidableEq, Repr, Inhabited

/-- A placed group (R390, R393): where its crews are, whether it is off its cores, where its images are, and its times. -/
structure Group where
  index : Nat
  crews : List CrewAt
  out : Bool
  /-- Offset and length of its allocation in the eviction pool (R377). -/
  alloc : Option (Nat × Nat)
  since : Nat
  /-- When a thread of it last quit or suspended (R393). -/
  leftAt : Nat
  restorable : Bool
deriving DecidableEq, Repr, Inhabited

/-- A grid of the grid table (R388). -/
structure Grid where
  st : GridSt
  before : GridSt
  pid : Nat
  asid : Nat
  prio : Nat
  queue : Nat
  index : Nat
  /-- The number of its packet. -/
  packet : Nat
  khdr : Nat
  hdr : Header
  args : List Dword
  domain : Nat
  wexp : Nat
  level : Nat
  coloc : Bool
  crew : Nat
  gcount : Nat
  next : Nat
  done : Nat
  kernel : Nat
  reserve : Nat
  /-- The live count of R44. -/
  live : Nat
  groups : List Group
  failed : Bool
  /-- Cluster and pool offset of each pool region (R37). -/
  pools : List (Nat × Nat)
  /-- The die that placed the last index, for the rotation of R390. -/
  lastDie : Nat
  /-- Since when a group has been pending without a turn, and whether it is raised (R392). -/
  pendSince : Nat
  raised : Bool
  reserved : List Nat
  /-- The turn in which its packet was taken (R390). -/
  takenAt : Nat
deriving DecidableEq, Repr, Inhabited

/-- A packet in the lead weir's state (R383): its index and 64 bytes, the partition, address space and priority of its queue when it was
taken, whether it has started, and which of its dwords held an uncorrectable error. `no` tells it from every other packet, one of the same index
among them. A packet that has completed leaves the state. -/
structure Packet where
  no : Nat
  index : Nat
  bits : BitVec 512
  pid : Nat
  asid : Nat
  prio : Nat
  started : Bool
  bad : List Nat
  /-- The turn in which it was taken (R390). -/
  takenAt : Nat
  /-- The first failure record of its operation, on its way to REPORT (R386). -/
  report : Option Rec := none
  /-- A WAITFLAG whose flag is watched (R249, R387), and whether its flag has reached its count since. -/
  watching : Bool := false
  met : Bool := false
deriving DecidableEq, Repr, Inhabited

/-- What the weir keeps of a work queue beside its descriptor (R379, R383). -/
structure Queue where
  q : Nat
  pkts : List Packet
  /-- A packet of the queue has failed or was refused (R387). -/
  failed : Bool
  /-- The weir last read the descriptor as VALID (R380). -/
  served : Bool
  /-- VALID was cleared while the packet at the head was published: that one is still taken (R398). -/
  closing : Bool
  /-- The descriptor as the weir last read it with VALID set, its HIDX as the weir has counted on (R379, R380). -/
  desc : BitVec 512
deriving DecidableEq, Repr, Inhabited

/-- A trapped thread's image (R365): its physical address, in the eviction pool its allocation (R377), and where the thread ran. -/
structure TrapImg where
  pid : Nat
  at_ : Nat
  alloc : Option (Nat × Nat)
  gslot : Nat
  core : Nat
  crew : Nat
deriving DecidableEq, Repr, Inhabited

/-- The watch that the weir keeps for a parked thread of an evicted group (R394). -/
structure Watch where
  pkg : Nat
  gslot : Nat
  index : Nat
  core : Nat
  on : ParkOn
deriving DecidableEq, Repr, Inhabited

/-- A late result: the address of the image it lands in, its entry in the outstanding list (none: stale, only its flags), and the result. -/
structure Late where
  img : Nat
  entry : Option Nat
  allot : Allot
  out : Out
  /-- The shoot-down whose status it is (R328). -/
  shoot : Option Nat
  /-- The core that its thread left. -/
  core : CoreId
deriving DecidableEq, Repr

/-- An access of a saved thread that its home has not accepted: the image it belongs to, the core and slot that it left, and the thread's
allotment. It goes on as its thread's accesses would have (R148, R372). -/
structure LateAcc where
  img : Nat
  who : Who
  slot : Nat
  allot : Allot
  acc : Access
deriving DecidableEq, Repr

/-- Weight whose return to its root waits for a page, at its port, or for a cluster (R72, R412, R452). -/
structure Owed where
  id : Nat
  atPort : Bool
  who : Who
  domain : Nat
  amount : Nat
deriving DecidableEq, Repr, Inhabited

/-- A pre-emption in progress (R369): its OP, GSLOT, CORE, the STATE of PSTAT when it was asked for, and how far it is: 0 asked for, 1 halting or
resuming, 2 saving. -/
structure Preempt where
  pid : Nat
  op : Nat
  gslot : Nat
  core : Nat
  was : Nat
  /-- Crews halted whose images are still to be written, or images still to be restored: (GSLOT, core, crew). -/
  todo : List (Nat × Nat × Nat)
  at_ : Nat
deriving DecidableEq, Repr, Inhabited

/-- A dword sent to the host or the management port: what a read, an SPDM request or a PLDM request was answered with (R429, R443, R446);
Unsupported Request or Completer Abort; the message of an MSI-X vector, with the address and data of its table entry (R428). -/
inductive HostOut where
  | read (bytes : List Byte)
  | unsupported
  | aborted
  | msix (fn vec : Nat) (addr data : Dword)
  | answer (words : List Dword)
deriving DecidableEq, Repr, Inhabited

/-- A host request that waits for a sleeping cluster, or behind one of its function that does (R431, R452): the window, the offset, and the bytes
of a write or the length of a read. -/
structure HostReq where
  fn : Nat
  bar : HostBar
  off : Nat
  op : List Byte ⊕ Nat
deriving DecidableEq, Repr

/-- A channel of a fabric link (R439, R447): the number of the key that its ends derived, 0 for none, and the flits that it had carried when it was last
rekeyed. The key in use is named by both. -/
structure Chan where
  key : Nat
  flits : Nat
deriving DecidableEq, Repr, Inhabited

/-- A fabric port's link: the mode of each of its classes REQ, RSP, ENG and CTL, set for GMAC alone (AUTH), clear for AES-256-GCM (ENC) (R439); and its
eight channels, two of each class. -/
structure Link where
  auth : Vector Bool 4
  chans : Vector Chan 8
deriving DecidableEq, Repr

/-- A link before level M sets anything (R439). DESIGN CHOICE: log entry 3. -/
def Link.reset : Link := { auth := Vector.replicate 4 false, chans := Vector.replicate 8 { key := 0, flits := 0 } }

/-- What a package has beside its cores and hubs. -/
structure Pkg where
  blocks : Vector PBlock 16
  tlb : List Tlb
  transits : List Transit
  held : List PortReq
  retries : List PortReq
  faults : List PortReq
  waits : List FaultWait
  portSeq : Nat
  ticketSeq : Nat
  recs : List FaultRec
  grids : Vector (Option Grid) 255
  /-- The grid that was served last on a die at a priority: entry 8 · die + 2 · priority for restores, the next entry for placements (R392). -/
  lastGrid : Vector Nat 32
  queues : List Queue
  trapWaits : List TrapWait
  trapImgs : List TrapImg
  preempts : List Preempt
  /-- Address of QTAB, and the other registers of PF 0 (R450). -/
  qtab : Dword
  /-- Queues whose descriptor's trailing sector was written since the weir read it (R380). -/
  descs : List Nat
  bootstat : Dword
  cap : Nat
  clkstep : Nat
  /-- sr.cycle of a die counts from here (R154, R444). -/
  dieRelease : Vector Nat 4
  booted : Bool
  /-- The measurements of R446, index 1 first. -/
  measures : Vector Digest 8
  /-- The spare map: the defective physical core of each cluster whose spare is in use (R444, R448). -/
  spares : List (Nat × Nat)
  errLog : List (BitVec 256)
  /-- Encryption keys made so far (R447). -/
  epoch : Nat
  /-- Links that are down (R423): ports 0 to 7, then the mesh's. -/
  linksDown : List Nat
  /-- Stacks that failed their training or test (R444). -/
  badStacks : List Nat
  /-- Firmware stored for the Delian die and the compute dies, and what the next module reset takes (R445). -/
  firmware : List (Option FwImage)
  nextFw : List (Nat × FwImage)
  hostOut : List HostOut
  hostReqs : List HostReq
  /-- The MSI-X table: the two dwords of entry 8 · function + vector, of which bit 32 of the second is its mask; and the pending bits of each
  function (R428, R430). PRESUMED: log entry 73. -/
  msixTab : Vector (Dword × Dword) 136
  msixPend : Vector Byte 17
  links : Vector Link 8
  /-- Rekeyings of the fabric's channels (R447). -/
  rekeys : Nat
  /-- The SPDM session (R446): 0 none, 1 keys exchanged, 2 finished. -/
  session : Nat
  /-- The reference clock at the last change of CLKSTEP, or at boot (R453). -/
  lastStep : Nat
  /-- What boot found, for the boots that follow a reset of the module (R443, R444). -/
  fuses : Option BootIn
deriving DecidableEq, Repr

/-- Power-good, before any step of R444. CAP and CLKSTEP are those of R450. DESIGN CHOICE: log entry 3. -/
def Pkg.reset : Pkg :=
  { blocks := Vector.replicate 16 PBlock.reset, tlb := [], transits := [], held := [], retries := [], faults := [], waits := [],
    portSeq := 0, ticketSeq := 0, recs := [], grids := Vector.replicate 255 none, lastGrid := Vector.replicate 32 254,
    queues := [], trapWaits := [], trapImgs := [], preempts := [], qtab := 0, descs := [], bootstat := 0, cap := 2800, clkstep := 15,
    dieRelease := Vector.replicate 4 0, booted := false, measures := Vector.replicate 8 0, spares := [], errLog := [], epoch := 0,
    linksDown := [], badStacks := [], firmware := [], nextFw := [], hostOut := [], hostReqs := [],
    msixTab := Vector.replicate 136 (0, 0x100000000), msixPend := Vector.replicate 17 0, links := Vector.replicate 8 Link.reset, rekeys := 0,
    session := 0, lastStep := 0, fuses := none }

/-! ## The machine -/

/-- The instruction being issued: its core and slot, and its words (R140, R347). -/
structure Cur where
  core : CoreId
  slot : Nat
  words : List Half
deriving DecidableEq, Repr, Inhabited

/-- The job's grid of packages (R436). -/
structure Job4 where
  na : Nat
  nb : Nat
  nc : Nat
  nd : Nat
deriving DecidableEq, Repr, Inhabited

/-- The whole machine. -/
structure State where
  /-- Bytes written, by physical address, in canonical form. -/
  mem : List Host.Cell
  /-- Empty lines, by physical line address, ascending (R58). -/
  empty : List Nat
  /-- Dwords with an uncorrectable error, by physical address (R422). -/
  poison : List Nat
  cores : List (CoreId × Core)
  hubs : List ((Nat × Nat) × Hub)
  pkgs : List (Nat × Pkg)
  redirects : List Redirect
  /-- Stores accepted at their homes and still to be performed, oldest first. -/
  wbuf : List BufWrite
  items : List Item
  itemSeq : Nat
  arrivals : List Arrival
  arms : List Arm
  copies : List CopyJob
  walks : List Walk
  nwords : List NWord
  reelArr : List ReelMsg
  reelRel : List ReelMsg
  remotes : List RemoteCmd
  shoots : List Shoot
  lates : List Late
  lateAccs : List LateAcc
  /-- The commands that were withdrawn with their threads, each by the physical address of its entry in the image, which does not hold the issuing
  instruction of a command, the block of a remote one or the number of an item (R293, R305, R311). -/
  cmds : List (Nat × MCmd)
  /-- Packets as published: the physical address of a slot and the line that its home forwarded to the lead weir (R382). -/
  lines : List (Nat × BitVec 512)
  watches : List Watch
  owed : List Owed
  job : Option Job4
  cur : Cur
  /-- The model's own fields: whose turn comes next, the number of turns taken, and the reference clock. -/
  agenda : List Turn
  tick : Nat
  clock : Nat
deriving DecidableEq, Repr

/-- The machine at power-good: one package, numbered 1 (R28), not yet booted. -/
def State.reset : State :=
  { mem := [], empty := [], poison := [], cores := [], hubs := [], pkgs := [(1, Pkg.reset)], redirects := [], wbuf := [], items := [],
    itemSeq := 0, arrivals := [], arms := [], copies := [], walks := [], nwords := [], reelArr := [], reelRel := [],
    remotes := [], shoots := [], lates := [], lateAccs := [], cmds := [], lines := [], watches := [], owed := [], job := none, cur := { core := { pkg := 1, n := 0 }, slot := 0, words := [] },
    agenda := [], tick := 0, clock := 0 }

/-- Why the machine stops. -/
inductive Fault where
  /-- A turn names a core that the package does not have: no core of R15 and no fault processor of R356. Raised by `step` for
  an agenda that the LX9 cannot have. Safe. -/
  | noSuchCore
deriving DecidableEq, Repr

/-- An instruction without a meaning. -/
inductive Refusal where
  /-- Raised by an arm of exec that has no meaning yet. Safe. -/
  | notModelled (mnemonic : String)
deriving DecidableEq, Repr

end Sys2Proof.Machine
end

