-- ==== Sys2Proof/Machine/Mem.lean ====
section
/-!
DEFINITION. Memory: physical addresses, the canonical list of written bytes, the full/empty bits of scratchpad lines (R58), the
redirects of evicted crews (R48), and the dwords with an uncorrectable error (R422).

A physical address is package · 2^48 + local address for HBM (device addresses), scratchpads and pools, and
2^60 + package · 2^52 + host address for host memory.
-/
namespace Sys2Proof.Machine

/-! ## Association lists -/

/-- The entry of a key. -/
def aGet {κ α : Type} [DecidableEq κ] : List (κ × α) → κ → Option α
  | [], _ => none
  | (k', v) :: l, k => if k' = k then some v else aGet l k

/-- The entry of a key replaced, or added at the end. -/
def aPut {κ α : Type} [DecidableEq κ] : List (κ × α) → κ → α → List (κ × α)
  | [], k, v => [(k, v)]
  | (k', v') :: l, k, v => if k' = k then (k, v) :: l else (k', v') :: aPut l k v

/-- An element put before the first that does not come before it. -/
def insertBy {α : Type} (le : α → α → Bool) (x : α) : List α → List α
  | [] => [x]
  | y :: l => if le x y then x :: y :: l else y :: insertBy le x l

/-- A list in ascending order, equal elements in their own. -/
def sortBy {α : Type} (le : α → α → Bool) (l : List α) : List α := l.foldr (insertBy le) []

/-! ## Windows of R75 -/

def scratchLoc : Nat := 0x800000000000
def poolLoc : Nat := 0x800100000000
def poolEnd : Nat := 0x800180000000
def aliasSpad : Nat := 0x800200000000
def aliasPool : Nat := 0x800200080000
def aliasEnd : Nat := 0x800200480000
/-- DESIGN CHOICE: log entry 6. -/
def hostBase : Nat := 2 ^ 60

/-- Scratchpad bytes start at this local address (R75). -/
def spadBase (n : Nat) : Nat := scratchLoc + n * 2 ^ 19
def poolBase (k : Nat) : Nat := poolLoc + k * 2 ^ 22

/-- The kinds of window of R75. -/
inductive Window where
  | hbm
  | spad (n : Nat)
  | pool (k : Nat)
  | ownSpad
  | ownPool
  | none
deriving DecidableEq, Repr, Inhabited

/-- DESIGN CHOICE: log entry 16. -/
def windowOf (loc : Nat) : Window :=
  if loc < scratchLoc then .hbm
  else if loc < poolLoc then .spad ((loc - scratchLoc) / 2 ^ 19)
  else if loc < poolEnd then .pool ((loc - poolLoc) / 2 ^ 22)
  else if loc < aliasSpad then .none
  else if loc < aliasPool then .ownSpad
  else if loc < aliasEnd then .ownPool
  else .none

/-- A physical address of a scratchpad or pool. DEDUCED: log entry 5. -/
def isSram (a : Nat) : Bool := decide (a < hostBase) && decide (scratchLoc ≤ a % 2 ^ 48)

/-- A physical address of a scratchpad. -/
def isSpad (a : Nat) : Bool := isSram a && decide (a % 2 ^ 48 < poolLoc)

/-! ## Bytes -/

/-- What an address reads as that nothing has written: 0 in cleared SRAM (R444); nothing in HBM and host memory. DEDUCED: log entry 5. DESIGN CHOICE: log entry 4. -/
def unlisted (a : Nat) : Option Byte := if isSram a then some 0 else none

/-- The canonical form: addresses strictly rising from lo, and no entry equal to what its address reads as unlisted. -/
def memWfFrom : Nat → List Host.Cell → Bool
  | _, [] => true
  | lo, (a, b) :: m => decide (lo ≤ a) && decide (unlisted a ≠ some b) && memWfFrom (a + 1) m

/-- DESIGN CHOICE: log entry 6. -/
def Memory.wf (m : List Host.Cell) : Bool := memWfFrom 0 m

/-- The byte at an address, if it has a value. -/
def memGet : List Host.Cell → Nat → Option Byte
  | [], a => unlisted a
  | (a', b) :: m, a => if a' = a then some b else if a < a' then unlisted a else memGet m a

/-- A byte written; the canonical form is kept. DESIGN CHOICE: log entry 6. -/
def memPut : List Host.Cell → Nat → Byte → List Host.Cell
  | [], a, b => if unlisted a = some b then [] else [(a, b)]
  | (a', b') :: m, a, b =>
    if a < a' then (if unlisted a = some b then (a', b') :: m else (a, b) :: (a', b') :: m)
    else if a = a' then (if unlisted a = some b then m else (a, b) :: m)
    else (a', b') :: memPut m a b

/-- Bytes written from an address upward. -/
def memPuts (m : List Host.Cell) (a : Nat) : List Byte → List Host.Cell
  | [] => m
  | b :: bs => memPuts (memPut m a b) (a + 1) bs

/-- Every listed byte of [lo, hi) forgotten. -/
def memForget (m : List Host.Cell) (lo hi : Nat) : List Host.Cell :=
  m.filter (fun c => decide (c.1 < lo) || decide (hi ≤ c.1))

/-- Little-endian (R3). -/
def leNat : List Byte → Nat
  | [] => 0
  | b :: bs => b.toNat + 256 * leNat bs

def leBytes : Nat → Nat → List Byte
  | 0, _ => []
  | n + 1, x => BitVec.ofNat 8 x :: leBytes n (x / 256)

/-! ## Redirects (R48) -/

/-- The redirect entry that a request of a grid meets at an address. DESIGN CHOICE: log entry 51. -/
def redirectAt (s : State) (g : Option Nat) (a : Nat) : Option Redirect :=
  s.redirects.find? (fun r => decide (g = some r.gslot) && decide (r.base ≤ a) && decide (a < r.base + r.size))

/-- Where a byte really stands for a request of grid g. DESIGN CHOICE: log entry 6. -/
def homeOf (s : State) (g : Option Nat) (a : Nat) : Nat :=
  match redirectAt s g a with
  | some r => r.dataAt + (a - r.base)
  | none => a

/-! ## Reading and writing -/

/-- The number of the key under which an address is read (R447): that of the partition that holds the stack. DESIGN CHOICE: log entry 4. -/
def keyOf (s : State) (a : Nat) : Nat :=
  match aGet s.pkgs (a / 2 ^ 48) with
  | some p =>
    (match p.blocks.toList.find? (fun b => decide (2 ^ 63 ≤ b.pctl.toNat) && decide (b.pctl.toNat / 2 ^ 32 / 2 ^ (a % 2 ^ 48 / 2 ^ 36) % 2 = 1)) with
     | some b => b.key
     | none => p.epoch)
  | none => 0

def readByte (s : State) (g : Option Nat) (a : Nat) : Byte :=
  let h := homeOf s g a
  (memGet s.mem h).getD (Config.coldByte (keyOf s h) h)

def readBytes (s : State) (g : Option Nat) (a : Nat) : Nat → List Byte
  | 0 => []
  | n + 1 => readByte s g a :: readBytes s g (a + 1) n

def readNat (s : State) (g : Option Nat) (a n : Nat) : Nat := leNat (readBytes s g a n)

/-- Errors that a write of [a, a + n) replaces (R422). DEDUCED: log entry 37. -/
def clearPoison (l : List Nat) (a n : Nat) : List Nat := l.filter (fun d => decide (d < a) || decide (a + n < d + 8))

def putByte (s : State) (g : Option Nat) (a : Nat) (b : Byte) : State := { s with mem := memPut s.mem (homeOf s g a) b }

def putBytes (s : State) (g : Option Nat) (a : Nat) : List Byte → State
  | [] => s
  | b :: bs => putBytes (putByte s g a b) g (a + 1) bs

/-- Bytes written at their homes. -/
def writeBytes (s : State) (g : Option Nat) (a : Nat) (bs : List Byte) : State :=
  let s1 := putBytes s g a bs
  { s1 with poison := clearPoison s1.poison (homeOf s g a) bs.length }

def writeNat (s : State) (g : Option Nat) (a n x : Nat) : State := writeBytes s g a (leBytes n x)

/-- Some dword that covers a byte of [a, a + n) has an uncorrectable error (R422). DEDUCED: log entry 37. -/
def poisoned (s : State) (g : Option Nat) (a n : Nat) : Bool :=
  let h := homeOf s g a
  s.poison.any (fun d => decide (d < h + n) && decide (h < d + 8))

/-! ## Full/empty bits (R58) -/

/-- The line of an address. -/
def lineOf (a : Nat) : Nat := a / 128 * 128

def insertLine : List Nat → Nat → List Nat
  | [], a => [a]
  | b :: l, a => if a < b then a :: b :: l else if a = b then b :: l else b :: insertLine l a

/-- The bit of a line in a crew image: 1 is full (R373). -/
def imageBit (s : State) (r : Redirect) (a : Nat) : Bool :=
  let i := (a - r.base) / 128
  ((memGet s.mem (r.bitsAt + i / 8)).getD 0).toNat / 2 ^ (i % 8) % 2 == 1

def lineEmpty (s : State) (g : Option Nat) (a : Nat) : Bool :=
  match redirectAt s g a with
  | some r => !imageBit s r a
  | none => s.empty.contains (lineOf a)

def setLine (s : State) (g : Option Nat) (a : Nat) (full : Bool) : State :=
  match redirectAt s g a with
  | some r =>
    let i := (a - r.base) / 128
    let old := ((memGet s.mem (r.bitsAt + i / 8)).getD 0).toNat
    let off := old - old / 2 ^ (i % 8) % 2 * 2 ^ (i % 8)
    { s with mem := memPut s.mem (r.bitsAt + i / 8) (BitVec.ofNat 8 (if full then off + 2 ^ (i % 8) else off)) }
  | none => { s with empty := if full then s.empty.filter (· ≠ lineOf a) else insertLine s.empty (lineOf a) }

/-- A write of [a, a + n) touches bytes 0 to 15 of an empty line (R59). -/
def protectedBytes (s : State) (g : Option Nat) (a n : Nat) : Bool :=
  (List.range (n / 128 + 2)).any (fun i =>
    let l := lineOf a + 128 * i
    decide (l < a + n) && decide (a < l + 16) && isSpad l && lineEmpty s g l)

end Sys2Proof.Machine
end

