-- ==== Sys2Proof/Machine/Hw.lean ====
section
/-!
DEFINITION. Where things are in a package (R15 to R20, R436 to R438), the accessors of its parts, and the registers of a thread with
the reads and writes of R148, R149 and R153.
-/
namespace Sys2Proof.Machine

/-! ## Geography (R15, R16, R20) -/

def clusterOf (n : Nat) : Nat := n / 16
def reachOf (n : Nat) : Nat := n / 512
def dieOf (n : Nat) : Nat := n / 2048
def posOf (n : Nat) : Nat := n % 16
def reachOfCluster (k : Nat) : Nat := k / 32
def hubRow (k : Nat) : Nat := 16 * (k / 128 / 2) + k % 128 / 8
def hubCol (k : Nat) : Nat := 8 * (k / 128 % 2) + k % 8
def clusterAt (hr hc : Nat) : Nat := 128 * (2 * (hr / 16) + hc / 8) + 8 * (hr % 16) + hc % 8
def meshRow (n : Nat) : Nat := 4 * hubRow (clusterOf n) + posOf n / 4
def meshCol (n : Nat) : Nat := 4 * hubCol (clusterOf n) + posOf n % 4
def coreAt (row col : Nat) : Nat := 16 * clusterAt (row / 4) (col / 4) + 4 * (row % 4) + col % 4

/-- The neighbour of a core in direction 0 north, 1 east, 2 south, 3 west (R62). -/
def neighbour (n dir : Nat) : Option Nat :=
  let r := meshRow n
  let c := meshCol n
  match dir with
  | 0 => if r = 0 then none else some (coreAt (r - 1) c)
  | 1 => if c = 63 then none else some (coreAt r (c + 1))
  | 2 => if r = 127 then none else some (coreAt (r + 1) c)
  | _ => if c = 0 then none else some (coreAt r (c - 1))

/-- The hub of a die's weir. DESIGN CHOICE: log entry 55. -/
def weirHub (d : Nat) : Nat := clusterAt (16 * (d / 2) + 8) (8 * (d % 2) + 4)

/-- The hub of a core; of a fault processor that of its die's weir. DESIGN CHOICE: log entry 62. -/
def coreHub (n : Nat) : Nat := if 8192 ≤ n then weirHub ((n - 8192) / 4) else clusterOf n

/-- The core positions of the cluster ring, in order (R20). -/
def ringOrder : List Nat := [0, 1, 2, 3, 7, 6, 5, 9, 10, 11, 15, 14, 13, 12, 8, 4]

def ringNext : List Nat → Nat → Nat → Nat
  | [], first, _ => first
  | [_], first, _ => first
  | a :: b :: l, first, p => if a = p then b else ringNext (b :: l) first p

/-- The downstream core of the cluster ring (R20, R312). -/
def downstream (n : Nat) : Nat := 16 * clusterOf n + ringNext ringOrder 0 (posOf n)

/-! ## Parts -/

def getCore (s : State) (c : CoreId) : Core := (aGet s.cores c).getD Core.reset
def setCore (s : State) (c : CoreId) (k : Core) : State := { s with cores := aPut s.cores c k }
def getHub (s : State) (p k : Nat) : Hub := (aGet s.hubs (p, k)).getD Hub.reset
def setHub (s : State) (p k : Nat) (h : Hub) : State := { s with hubs := aPut s.hubs (p, k) h }
def getPkg (s : State) (p : Nat) : Pkg := (aGet s.pkgs p).getD Pkg.reset
def setPkg (s : State) (p : Nat) (k : Pkg) : State := { s with pkgs := aPut s.pkgs p k }

/-- The thread of a slot (R39: none is FREE). -/
def getT (s : State) (c : CoreId) (slot : Nat) : Option Thread := ((getCore s c).slots[slot]?).join

def setSlot (k : Core) (slot : Nat) (t : Option Thread) : Core := { k with slots := k.slots.setIfInBounds slot t }

def setT (s : State) (c : CoreId) (slot : Nat) (t : Option Thread) : State := setCore s c (setSlot (getCore s c) slot t)

def modCore (s : State) (c : CoreId) (f : Core → Core) : State := setCore s c (f (getCore s c))
def modHub (s : State) (p k : Nat) (f : Hub → Hub) : State := setHub s p k (f (getHub s p k))
def modPkg (s : State) (p : Nat) (f : Pkg → Pkg) : State := setPkg s p (f (getPkg s p))
def modT (s : State) (c : CoreId) (slot : Nat) (f : Thread → Thread) : State :=
  match getT s c slot with
  | some t => setT s c slot (some (f t))
  | none => s

/-- Dies released from reset (R450). -/
def dieOk (s : State) (p d : Nat) : Bool := decide ((getPkg s p).bootstat.toNat / 2 ^ (16 + d) % 2 = 1)

/-- A core number names a fault processor (R356). -/
def isFp (c : CoreId) : Bool := decide (8192 ≤ c.n)

/-- Field [hi:lo] of a dword. -/
def fld (x : Dword) (hi lo : Nat) : Nat := x.toNat / 2 ^ lo % 2 ^ (hi + 1 - lo)

def dw (x : Nat) : Dword := BitVec.ofNat 64 x

/-! ## Partitions (R357, R359) -/

def block (s : State) (p pid : Nat) : PBlock := (getPkg s p).blocks[pid]?.getD PBlock.reset

def modBlock (s : State) (p pid : Nat) (f : PBlock → PBlock) : State :=
  modPkg s p (fun k => { k with blocks := k.blocks.setIfInBounds pid (f (k.blocks[pid]?.getD PBlock.reset)) })

def created (s : State) (p pid : Nat) : Bool := decide (fld (block s p pid).pctl 63 63 = 1)
def reaches (s : State) (p pid : Nat) : Nat := if created s p pid then fld (block s p pid).pctl 47 32 else 0
def inReach (s : State) (p pid r : Nat) : Bool := decide (r < 16) && decide (reaches s p pid / 2 ^ r % 2 = 1)
def coreIn (s : State) (p pid n : Nat) : Bool := decide (n < 8192) && inReach s p pid (reachOf n)

/-- The lowest reach of a mask. -/
def lowestFrom : Nat → Nat → Nat → Nat
  | 0, i, _ => i
  | k + 1, i, m => if m / 2 ^ i % 2 = 1 then i else lowestFrom k (i + 1) m

def notifyOf (s : State) (p pid : Nat) : Nat := fld (block s p pid).fpmap 19 16

/-- The translation block of a partition, as a device address (R401). -/
def transBlock (s : State) (p pid : Nat) : Nat := 2 ^ 36 * lowestFrom 16 0 (reaches s p pid)

/-- The physical address of a device address (R400). -/
def devPhys (p a : Nat) : Nat := p * 2 ^ 48 + a

/-- A device address lies in the partition's stacks (R77, R400). DESIGN CHOICE: log entry 38. -/
def devOk (s : State) (p pid a : Nat) : Bool := decide (a < 2 ^ 40) && inReach s p pid (a / 2 ^ 36)

/-- A strong load that the hardware itself makes from device memory. DESIGN CHOICE: log entry 38. -/
def readDev (s : State) (p a n : Nat) : Nat := readNat s none (devPhys p a) n

/-- The grid of a GSLOT. -/
def getGrid (s : State) (p g : Nat) : Option Grid := ((getPkg s p).grids[g]?).join

def modGrid (s : State) (p g : Nat) (f : Grid → Grid) : State :=
  match getGrid s p g with
  | some x => modPkg s p (fun k => { k with grids := k.grids.setIfInBounds g (some (f x)) })
  | none => s

def liveOf : GridSt → Bool
  | .waiting => false
  | .done => false
  | _ => true

/-- A grid of the partition is live (R385). -/
def partLive (s : State) (p pid : Nat) : Bool :=
  (getPkg s p).grids.toList.any (fun o => match o with
    | some g => decide (g.pid = pid) && liveOf g.st
    | none => false)

def incLive (s : State) (p : Nat) (g : Option Nat) : State :=
  match g with
  | some k => modGrid s p k (fun x => { x with live := x.live + 1 })
  | none => s

def decLive (s : State) (p : Nat) (g : Option Nat) : State :=
  match g with
  | some k => modGrid s p k (fun x => { x with live := x.live - 1 })
  | none => s

/-! ## Job and fabric (R74, R436, R438) -/

/-- A package number that belongs to the job (R74, R436); a package outside any job has the number 1 (R28). DESIGN CHOICE: log entry 66. -/
def inJob (s : State) (p : Nat) : Bool :=
  (aGet s.pkgs p).isSome && (match s.job with
    | none => decide (p = 1)
    | some j => decide (p ≤ j.na * j.nb * j.nc * j.nd))

/-- The coordinates of a package (R436). -/
def coords (j : Job4) (p : Nat) : List Nat :=
  let k := p - 1
  [k % j.na, k / j.na % j.nb, k / (j.na * j.nb) % j.nc, k / (j.na * j.nb * j.nc)]

def pkgAt (j : Job4) : List Nat → Nat
  | [a, b, c, d] => 1 + a + j.na * (b + j.nb * (c + j.nc * d))
  | _ => 1

def dims (j : Job4) : List Nat := [j.na, j.nb, j.nc, j.nd]

/-- The port of a direction (R437): dimension 0 to 3, plus or minus. -/
def portOf (dim : Nat) (plus : Bool) : Nat :=
  (match dim with | 0 => 0 | 1 => 4 | 2 => 2 | _ => 6) + (if plus then 1 else 0)

def opposite (port : Nat) : Nat := if port % 2 = 0 then port + 1 else port - 1

/-- The hub of a port, as a cluster number (R437). -/
def portCluster (port : Nat) : Nat :=
  clusterAt (if port < 4 then 0 else 31)
    (match port % 4 with | 0 => 3 | 1 => 12 | 2 => 7 | _ => 8)

/-- The direction to take in dimension dim from x to y (R438): the shorter way round in a and b, + on a tie. -/
def dirTo (dim size x y : Nat) : Bool :=
  if dim < 2 && decide (3 ≤ size) then decide ((y + size - x) % size ≤ (x + size - y) % size) else decide (x < y)

def moveIn (size x : Nat) (plus : Bool) : Nat := if plus then (x + 1) % size else (x + size - 1) % size

/-- One hop from a package: the port and the package it leads to; a link that is down at either end gives none. -/
def hop (s : State) (j : Job4) (x : List Nat) (dim : Nat) (plus : Bool) : Option (Nat × List Nat) :=
  let size := (dims j).getD dim 1
  let port := portOf dim plus
  let y := x.set dim (moveIn size (x.getD dim 0) plus)
  let up : Nat → Nat → Bool := fun p l => !(getPkg s p).linksDown.contains l
  if decide (2 ≤ size) && up (pkgAt j x) port && up (pkgAt j y) (opposite port) then some (port, y) else none

/-- The next hop of R438 towards y: the first dimension that differs (with `det`, a detour already taken skips none); a broken
link in a or b is passed through the c-partner or the d-partner. -/
def nextHop (s : State) (j : Job4) (x y : List Nat) : Option (Nat × List Nat) :=
  match (List.range 4).find? (fun d => decide (x.getD d 0 ≠ y.getD d 0)) with
  | none => none
  | some d =>
    let size := (dims j).getD d 1
    match hop s j x d (dirTo d size (x.getD d 0) (y.getD d 0)) with
    | some r => some r
    | none =>
      if d < 2 then
        match hop s j x 2 (decide (x.getD 2 0 = 0)) with
        | some r => some r
        | none => hop s j x 3 (decide (x.getD 3 0 = 0))
      else none

/-- The ports by which a message leaves, and the packages it visits, within a number of hops. -/
def routeFrom (s : State) (j : Job4) : Nat → List Nat → List Nat → Option (List (Nat × List Nat))
  | 0, x, y => if x = y then some [] else none
  | k + 1, x, y =>
    if x = y then some []
    else match nextHop s j x y with
      | none => none
      | some r => (routeFrom s j k r.2 y).map (fun l => r :: l)

/-- The route between two packages (R438); none where there is no route. -/
def route (s : State) (p q : Nat) : Option (List (Nat × List Nat)) :=
  if p = q then some []
  else match s.job with
    | none => none
    | some j => routeFrom s j 140 (coords j p) (coords j q)

/-- The mesh link by which a hub leaves in direction 0 north, 1 east, 2 south, 3 west, as Pkg.linksDown numbers it. -/
def meshLink (hr hc dir : Nat) : Nat := 8 + 4 * (16 * hr + hc) + dir

/-- The links of a mesh route (R14): along the row, then along the column. -/
def meshRoute (r1 c1 r2 c2 : Nat) : List Nat :=
  (if c1 ≤ c2 then (List.range (c2 - c1)).map (fun i => meshLink r1 (c1 + i) 1) else (List.range (c1 - c2)).map (fun i => meshLink r1 (c1 - i) 3)) ++
    (if r1 ≤ r2 then (List.range (r2 - r1)).map (fun i => meshLink (r1 + i) c2 2) else (List.range (r1 - r2)).map (fun i => meshLink (r1 - i) c2 0))

/-- No link between two cluster hubs of a package is down (R423). DESIGN CHOICE: log entry 62. -/
def meshUp (s : State) (p k1 k2 : Nat) : Bool :=
  let down := (getPkg s p).linksDown
  down.isEmpty || (meshRoute (hubRow k1) (hubCol k1) (hubRow k2) (hubCol k2)).all (fun l => !down.contains l)

/-- The four edge hubs of a stack, as clusters (R16). -/
def stackHubs (k : Nat) : List Nat :=
  (List.range 4).map (fun i => clusterAt (16 * (k / 8) + 4 * (k % 4) + i) (if k / 4 % 2 = 0 then 0 else 15))

/-- The mesh legs of a message at a hub of package p that still has these hops to make, to hub b of the last package (R441): each egress port hub
is reached from where the message stands, and it goes on from the port hub opposite. -/
def legsUp (s : State) (j : Job4) : Nat → Nat → List (Nat × List Nat) → Nat → Bool
  | p, a, [], b => meshUp s p a b
  | p, a, r :: l, b => meshUp s p a (portCluster r.1) && legsUp s j (pkgAt j r.2) (portCluster (opposite r.1)) l b

/-- A message gets from hub a of package p to hub b of package q (R423, R438, R441). -/
def pathUp (s : State) (p a q b : Nat) : Bool :=
  if p = q then meshUp s p a b
  else match s.job with
    | none => false
    | some j => match routeFrom s j 140 (coords j p) (coords j q) with
      | some l => legsUp s j p a l b
      | none => false

/-- A request gets to its target, and its response back on its own route (R441). -/
def linksUp (s : State) (p a q b : Nat) : Bool := pathUp s p a q b && pathUp s q b p a

/-- The request gets to a stack by one of its edge hubs. DESIGN CHOICE: log entry 62: the spec does not say at which of the four a route ends;
a stack is reached while one of them is. -/
def stackUp (s : State) (p a q k : Nat) : Bool := (stackHubs k).any (fun b => linksUp s p a q b)

/-- The gateway port of a stack gets to a frame on another stack, of its package or of another (R403). DESIGN CHOICE: log entry 62. -/
def frameUp (s : State) (p k q k' : Nat) : Bool := decide (p = q ∧ k = k') || (stackHubs k).any (fun a => stackUp s p a q k')

/-- The hub by which a request of package p enters package q (R399, R441). -/
def entryHub (s : State) (c : CoreId) (q : Nat) : Nat :=
  if c.pkg = q then coreHub c.n
  else match route s c.pkg q with
    | some l => match l.getLast? with
      | some r => portCluster (opposite r.1)
      | none => 0
    | none => 0

/-! ## Registers (R148, R149, R153) -/

/-- The result that a read of a register may see: the newest one outstanding, if its value is known. -/
def pending (l : List Out) (d : Dst) : Option Out :=
  l.find? (fun o => decide (o.dst = d) && o.ready && o.staleBy.isNone)

/-- gN as read now (R148, R153). DESIGN CHOICE: log entry 8. -/
def readG (tick : Nat) (t : Thread) (r : GReg) : Dword :=
  if r = 0 then 0
  else match pending t.out (.g r) with
    | some o => match o.val with
      | .dword x => if Config.earlyRead tick r.val 0 then x else t.regs.g[r]
      | _ => t.regs.g[r]
    | none => t.regs.g[r]

/-- A vector with bit ranges replaced. -/
def putParts (v : Nat) : List (Nat × Nat × Nat) → Nat
  | [] => v
  | (pos, w, x) :: l => putParts (v - v / 2 ^ pos % 2 ^ w * 2 ^ pos + x % 2 ^ w * 2 ^ pos) l

/-- Sector k of two vectors, chosen independently (R148). DESIGN CHOICE: log entry 8. -/
def mixSectors (tick r : Nat) (old new : Vec) : Vec :=
  BitVec.ofNat 1024 (((List.range 4).map (fun k =>
    (if Config.earlyRead tick r (k + 1) then new else old).toNat / 2 ^ (256 * k) % 2 ^ 256 * 2 ^ (256 * k))).foldl (· + ·) 0)

/-- vN as read now (R148). DESIGN CHOICE: log entry 8. -/
def readV (tick : Nat) (t : Thread) (r : VReg) : Vec :=
  match pending t.out (.v r) with
  | some o => match o.val with
    | .vec parts => mixSectors tick (64 + r.val) t.regs.v[r] (BitVec.ofNat 1024 (putParts t.regs.v[r].toNat parts))
    | _ => t.regs.v[r]
  | none => t.regs.v[r]

/-- pN as read now: p0 is all ones (R153). -/
def readP (t : Thread) (r : PReg) : Word := if r = 0 then 0xFFFFFFFF#32 else t.regs.p[r]

/-- The results that a later writer makes stale (R149). -/
def staleOuts (l : List Out) (d : Dst) (seq : Nat) : List Out :=
  l.map (fun o => if o.dst = d ∧ o.staleBy.isNone then { o with staleBy := some seq } else o)

def Regs.setG (r : Regs) (i : GReg) (x : Dword) : Regs := if i = 0 then r else { r with g := r.g.set i x }
def Regs.setV (r : Regs) (i : VReg) (x : Vec) : Regs := { r with v := r.v.set i x }
def Regs.setP (r : Regs) (i : PReg) (x : Word) : Regs := if i = 0 then r else { r with p := r.p.set i x }
def Regs.setT (r : Regs) (i : MReg) (x : Tile) : Regs := { r with t := r.t.set i x }

/-- gN written by a fixed-latency result (R147, R149, R153). -/
def writeG (t : Thread) (r : GReg) (x : Dword) : Thread :=
  { t with regs := t.regs.setG r x, out := staleOuts t.out (.g r) t.seq }

def writeV (t : Thread) (r : VReg) (x : Vec) : Thread :=
  { t with regs := t.regs.setV r x, out := staleOuts t.out (.v r) t.seq }

def writeP (t : Thread) (r : PReg) (x : Word) : Thread := { t with regs := t.regs.setP r x }

/-- Flags of a fixed-latency result into sr.fpc (R125). -/
def addFlags (t : Thread) (f : Flags) : Thread := { t with regs := { t.regs with fpc := setFlags t.regs.fpc f } }

/-- A variable-latency result is started (R147, R149). DEDUCED: log entry 14. -/
def pushOut (t : Thread) (d : Dst) (v : OutVal) (f : Flags) (ready : Bool) : Thread :=
  { t with out := staleOuts t.out d t.seq ++ [{ seq := t.seq, dst := d, val := v, flags := f, ready := ready, staleBy := none }] }

/-! ## Requests -/

/-- What the requests of a thread carry (R77, R48). -/
def whoOf (c : CoreId) (t : Thread) : Who :=
  { core := c, pid := t.pid, asid := t.asid, gslot := t.gslot, crew := t.crew, tid := t.tid, pc := t.pc, seg := t.seg }

/-- An alias resolved against a core (R76), the other addresses as they are; none for an alias that names another package. DESIGN CHOICE: log entry 16. -/
def resolve (c : CoreId) (a : Dword) : Option Dword :=
  let loc := a.toNat % 2 ^ 48
  let pk := a.toNat / 2 ^ 48
  match windowOf loc with
  | .ownSpad => if pk = 0 ∨ pk = c.pkg then some (dw (pk * 2 ^ 48 + (spadBase c.n + (loc - aliasSpad)))) else none
  | .ownPool => if pk = 0 ∨ pk = c.pkg then some (dw (pk * 2 ^ 48 + (poolBase (clusterOf c.n) + (loc - aliasPool)))) else none
  | _ => some a

/-- The package that a resolved address names (R74). -/
def pkgOf (c : CoreId) (a : Dword) : Nat :=
  let pk := a.toNat / 2 ^ 48 % 2 ^ 12
  if pk = 0 then c.pkg else pk

/-- The local address. -/
def locOf (a : Dword) : Nat := a.toNat % 2 ^ 48

/-- The physical address of a resolved window address. -/
def physOf (c : CoreId) (a : Dword) : Nat := pkgOf c a * 2 ^ 48 + locOf a

/-! ## Inbox (R51, R227, R259) -/

def inboxSize : Nat := 32

/-- A record for a core: to the redirect entry of an absent crew, into the inbox, or held by the hub when the inbox is full.
A core that no longer has the grid's tenancy discards it (R51). -/
def postRec (s : State) (w : Who) (r : Rec) : State :=
  match s.redirects.find? (fun x => decide (x.pkg = w.core.pkg ∧ x.core = w.core.n ∧ some x.gslot = w.gslot ∧ x.crew = w.crew)) with
  | some x => { s with redirects := s.redirects.map (fun y => if y = x then { y with recs := y.recs ++ [r] } else y) }
  | none =>
    let k := getCore s w.core
    if isFp w.core || decide (k.tenancy = w.gslot) then
      if k.inbox.length < inboxSize ∧ k.heldRecs = [] then setCore s w.core { k with inbox := k.inbox ++ [r] }
      else setCore s w.core { k with heldRecs := k.heldRecs ++ [r] }
    else s

/-- D0 of R260. -/
def recD0 (w : Who) (kind cause : Nat) : Dword :=
  dw (kind * 2 ^ 56 + cause * 2 ^ 52 + w.tid % 16 * 2 ^ 48 + w.seg % 2 ^ 16 * 2 ^ 32 + w.pc % 2 ^ 17)

def mkRec (w : Who) (kind cause : Nat) (addr flag : Dword) (item tag : Nat) : Rec :=
  { crew := w.crew, d0 := recD0 w kind cause, d1 := addr, d2 := flag, d3 := dw (item % 2 ^ 32 * 2 ^ 32 + tag % 2 ^ 32) }

/-! ## Mailboxes (R361) -/

/-- The number of a hub as a sender of messages. -/
def senderAt (p k : Nat) : Nat := p * 1024 + k

/-- The weir of a die as a sender, which keeps its messages apart from those of the hub that it stands beside (R361). -/
def weirSender (d : Nat) : Nat := 512 + d

/-- What a sender keeps for a fault processor's mailbox. -/
def notesOf (k : Core) (sender : Nat) : List (Nat × Dword) := k.notify.filter (fun x => decide (x.1 = sender))

/-- A message of the LX9 itself to a fault processor: into the mailbox, or its sender's notification queue. -/
def notifyFp (s : State) (p fp sender : Nat) (d : Dword) : State :=
  let c : CoreId := { pkg := p, n := 8192 + fp }
  modCore s c (fun k =>
    if k.mailbox.length < 64 ∧ notesOf k sender = [] then { k with mailbox := k.mailbox ++ [d] } else { k with notify := k.notify ++ [(sender, d)] })

/-- A sender's notification queue has room for another message (R361). -/
def notifyRoom (s : State) (p fp sender : Nat) : Bool :=
  decide ((notesOf (getCore s { pkg := p, n := 8192 + fp }) sender).length < 1024)

/-- A message to NOTIFY of a partition, sent by hub k of the package. -/
def notifyPart (s : State) (p pid k : Nat) (top pidField rest : Nat) : State :=
  notifyFp s p (notifyOf s p pid) (senderAt p k) (dw (top * 2 ^ 56 + pidField * 2 ^ 48 + rest))

/-- Hub k has room for such a message. -/
def noteRoom (s : State) (p pid k : Nat) : Bool := notifyRoom s p (notifyOf s p pid) (senderAt p k)

/-! ## Error entries (R426) -/

/-- An entry for a partition's error ring, or the machine error log: it waits in the hub where there is no room. -/
def errEntry (src sev cluster core count addr ticket : Nat) : BitVec 256 :=
  BitVec.ofNat 256 (src * 2 ^ 56 + sev * 2 ^ 54 + cluster % 512 * 2 ^ 45 + core % 2 ^ 13 * 2 ^ 32 + count % 2 ^ 32 +
    addr % 2 ^ 64 * 2 ^ 64 + ticket % 2 ^ 32 * 2 ^ 160)

/-- The partition that a reach belongs to. -/
def pidOfReach (s : State) (p r : Nat) : Option Nat := (List.range 16).find? (fun pid => inReach s p pid r)

/-- One entry of hub k appended to ERING with its message; false where the ring is full or absent. DESIGN CHOICE: log entry 63. -/
def appendErr (s : State) (p pid k : Nat) (e : BitVec 256) : State × Bool :=
  let d := transBlock s p pid + 0x240
  let w0 := readDev s p d 8
  let l := w0 / 2 ^ 48 % 16
  let base := w0 / 64 % 2 ^ 42 * 64
  let tail := readDev s p (d + 8) 4
  let head := readDev s p (d + 16) 4
  if base = 0 ∨ devOk s p pid (base + 32 * (tail % 2 ^ (l + 4))) = false ∨ 2 ^ (l + 4) ≤ (tail + 2 ^ 32 - head) % 2 ^ 32 ∨ noteRoom s p pid k = false then (s, false)
  else
    let s1 := writeNat s none (devPhys p (base + 32 * (tail % 2 ^ (l + 4)))) 32 e.toNat
    let s2 := writeNat s1 none (devPhys p (d + 8)) 4 ((tail + 1) % 2 ^ 32)
    (notifyPart s2 p pid k 7 pid ((tail + 1) % 2 ^ 32), true)

/-- An error entry reported by a hub. -/
def reportErr (s : State) (p cluster : Nat) (e : BitVec 256) : State :=
  let wait := modHub s p cluster (fun h => { h with errs := h.errs ++ [e] })
  if (getHub s p cluster).errs ≠ [] then wait
  else match pidOfReach s p (reachOfCluster cluster) with
    | some pid => let r := appendErr s p pid cluster e; if r.2 then r.1 else wait
    | none =>
      let k := getPkg s p
      if k.errLog.length < 1024 then setPkg s p { k with errLog := k.errLog ++ [e] } else wait

end Sys2Proof.Machine
end

