-- ==== Sys2Proof/Machine/Xlate.lean ====
section
/-!
DEFINITION. Translation of addresses at the home of an access (R74 to R77, R399 to R404): range cache, memory-side TLB, page walks,
pages in transit (R416), discarded pages (R418), and the checks of R217 that only the home can make.
-/
namespace Sys2Proof.Machine

/-- What the home says of an address. -/
inductive Hit where
  /-- Performed at a physical address; `lim` bytes from here lie in the same window or page; `disc` is the physical address of the
  leaf of a page with DISCARD = 1, with the page's frame and size; `host` for a page of KIND 3. -/
  | at_ (phys lim : Nat) (disc : Option (Nat × Nat × Nat)) (host : Bool)
  /-- An access fault with its CAUSE (R362). -/
  | fail (cause : Nat)
  /-- A page fault (R407): gateway stack, page, and the home of R402. -/
  | fault (pkg stack page homePkg homeFp : Nat)
  /-- The page is in transit (R416). -/
  | transit (pkg stack page : Nat)
  /-- The cluster is asleep, entering or leaving retention (R452). -/
  | asleep (pkg cluster : Nat)
deriving DecidableEq, Repr, Inhabited

def isAwake : Ret → Bool
  | .awake => true
  | _ => false

/-! ## Range lookup (R399, R402) -/

/-- The entry of a range table, none where it breaks R402. -/
def parseRange (s : State) (p pid asid : Nat) (at_ : Nat) : Option RangeEnt :=
  let b := readDev s p at_ 8
  let l := readDev s p (at_ + 8) 8
  let x := readDev s p (at_ + 16) 8
  let y := readDev s p (at_ + 24) 8
  let mask := (2 ^ 26 - 1) * 2 ^ 21
  let xr := 2 ^ 63 * (x / 2 ^ 63) + x / 2 ^ 32 % 2 ^ 20 * 2 ^ 32
  if Nat.land b mask = b ∧ Nat.land l mask = l ∧ b < l ∧ x = xr ∧ y = 0 ∧ inReach s p pid (x / 2 ^ 48 % 16) then
    some {
      pid := pid, asid := asid, base := b, limit := l, stack := x / 2 ^ 48 % 16, homePkg := x / 2 ^ 36 % 2 ^ 12,
      homeFp := x / 2 ^ 32 % 16 }
  else none

/-- What the range table says of an address. -/
inductive RangeHit where
  | hit (e : RangeEnt)
  | miss
  | broken (at_ : Nat)
  /-- An entry of a table holds an uncorrectable error (R422), by its physical address. -/
  | bad (at_ : Nat)
  /-- The table lies outside the partition's stacks (R401). -/
  | outside
deriving DecidableEq, Repr, Inhabited

/-- The search by halving over entries lo to hi − 1 (R402). -/
def searchRange (s : State) (p pid asid tab loc : Nat) : Nat → Nat → Nat → RangeHit
  | 0, _, _ => .miss
  | fuel + 1, lo, hi =>
    if hi ≤ lo then .miss
    else
      let m := (lo + hi) / 2
      let at_ := tab + 32 * m
      if devOk s p pid at_ = false then .outside
      else if poisoned s none (devPhys p at_) 32 then .bad (devPhys p at_)
      else if readDev s p (at_ + 16) 8 / 2 ^ 63 = 0 then
        (if loc < readDev s p at_ 8 then searchRange s p pid asid tab loc fuel lo m
         else if loc < readDev s p (at_ + 8) 8 then .miss
         else searchRange s p pid asid tab loc fuel (m + 1) hi)
      else match parseRange s p pid asid at_ with
        | none => .broken at_
        | some e =>
          if loc < e.base then searchRange s p pid asid tab loc fuel lo m
          else if loc < e.limit then .hit e
          else searchRange s p pid asid tab loc fuel (m + 1) hi

/-- The address-space entry of an ASID (R401, R402): the tables' device addresses (root, range table, entries), an ASID that is not in use, or
an uncorrectable error in the entry or in ASTAB. -/
inductive AsHit where
  | tables (root rtab n : Nat)
  | unused
  | bad (at_ : Nat)
deriving DecidableEq, Repr, Inhabited

def asEntry (s : State) (p pid asid : Nat) : AsHit :=
  let blk := transBlock s p pid
  let astab := readDev s p blk 8
  let e := astab / 2 ^ 12 % 2 ^ 36 * 2 ^ 12 + 32 * asid
  let d0 := readDev s p e 8
  let d1 := readDev s p (e + 8) 8
  if poisoned s none (devPhys p blk) 8 then .bad (devPhys p blk)
  else if astab / 2 ^ 48 < asid ∨ devOk s p pid e = false then .unused
  else if poisoned s none (devPhys p e) 16 then .bad (devPhys p e)
  else if d0 / 2 ^ 63 = 0 then .unused
  else .tables (d0 / 2 ^ 12 % 2 ^ 36 * 2 ^ 12) (d1 / 2 ^ 5 % 2 ^ 43 * 2 ^ 5) (d1 / 2 ^ 48)

/-- Range lookup through the hub's cache of 32 entries (R399): an entry fetched takes the place of the oldest. -/
def findRange (s : State) (p hub pid asid loc : Nat) : State × RangeHit :=
  match (getHub s p hub).ranges.find? (fun e => decide (e.pid = pid ∧ e.asid = asid ∧ e.base ≤ loc ∧ loc < e.limit)) with
  | some e => (s, .hit e)
  | none => match asEntry s p pid asid with
    | .unused => (s, .miss)
    | .bad at_ => (s, .bad at_)
    | .tables _ tab n => match searchRange s p pid asid tab loc 14 0 n with
      | .hit e => (modHub s p hub (fun h => { h with ranges := (e :: h.ranges).take 32 }), .hit e)
      | r => (s, r)

/-! ## Page walk (R403, R404) -/

inductive Walked where
  | leaf (at_ : Nat) (big : Bool) (d : Nat)
  | absent
  /-- The ASID is not VALID (R402). -/
  | unused
  | malformed (at_ : Nat)
  | bad (at_ : Nat)
  /-- A table lies outside the partition's stacks (R401). -/
  | outside
deriving DecidableEq, Repr, Inhabited

/-- Reserved bits of an entry are zero, and PKG is zero but for KIND 2 (R403). -/
def entryOk (d : Nat) : Bool :=
  decide (d / 2 ^ 52 % 2 ^ 6 = 0) && decide (d / 2 ^ 12 % 16 = 0) && (decide (d / 2 ^ 61 % 4 = 2) || decide (d % 2 ^ 12 = 0))

/-- The four levels (R403), each with its index of the address. -/
def walkFrom (s : State) (p pid va : Nat) : Nat → Nat → Nat → Walked
  | 0, _, _ => .absent
  | fuel + 1, level, tab =>
    let idx := match level with
      | 0 => va / 2 ^ 39 % 256
      | 1 => va / 2 ^ 30 % 512
      | 2 => va / 2 ^ 21 % 512
      | _ => va / 2 ^ 16 % 32
    let at_ := tab + 16 * idx
    let d := readDev s p at_ 8
    let kind := d / 2 ^ 61 % 4
    let addr := d / 2 ^ 16 % 2 ^ 36 * 2 ^ 16
    if devOk s p pid at_ = false then .outside
    else if poisoned s none (devPhys p at_) 8 then .bad at_
    else if d / 2 ^ 63 = 0 then .absent
    else if entryOk d = false then .malformed at_
    else if kind = 0 then (if level = 3 then .malformed at_ else walkFrom s p pid va fuel (level + 1) addr)
    else if level < 2 then .malformed at_
    else if level = 2 ∧ addr / 2 ^ 16 % 32 ≠ 0 then .malformed at_
    else .leaf at_ (decide (level = 2)) d

/-- Page bounds of an address. -/
def pageOf (big : Bool) (va : Nat) : Nat := if big then va / 2 ^ 21 * 2 ^ 21 else va / 2 ^ 16 * 2 ^ 16
def pageSize (big : Bool) : Nat := if big then 2 ^ 21 else 2 ^ 16

/-- The TLB entry of an address, walked for on a miss; 4,096 entries per stack (R404). -/
def findLeaf (s : State) (p : Nat) (e : RangeEnt) (va : Nat) : State × Walked :=
  let k := getPkg s p
  match k.tlb.find? (fun t => decide (t.stack = e.stack ∧ t.pid = e.pid ∧ t.asid = e.asid ∧ t.va = pageOf t.big va)) with
  | some t => (s, .leaf t.leafAt t.big t.leaf.toNat)
  | none => match asEntry s p e.pid e.asid with
    | .unused => (s, .unused)
    | .bad at_ => (s, .bad (at_ - p * 2 ^ 48))
    | .tables root _ _ => match walkFrom s p e.pid va 4 0 root with
      | .leaf at_ big d =>
        let t : Tlb := { stack := e.stack, pid := e.pid, asid := e.asid, va := pageOf big va, big := big, leafAt := at_, leaf := dw d }
        let mine := (t :: k.tlb.filter (fun x => decide (x.stack = e.stack))).take 4096
        (setPkg s p { k with tlb := mine ++ k.tlb.filter (fun x => decide (x.stack ≠ e.stack)) }, .leaf at_ big d)
      | w => (s, w)

/-- A malformed entry leaves an error entry with SRC 9 (R402, R403). -/
def brokenEntry (s : State) (p hub at_ : Nat) : State := reportErr s p hub (errEntry 9 1 hub 0 1 at_ 0)

/-- The frame of a leaf (R403, R400): on this package's HBM, another package, or host memory. -/
def frameOf (s : State) (p pid : Nat) (d off : Nat) : Nat ⊕ Nat × Bool :=
  let addr := d / 2 ^ 16 % 2 ^ 36 * 2 ^ 16 + off
  match d / 2 ^ 61 % 4 with
  | 3 => .inr (hostBase + p * 2 ^ 52 + addr, true)
  | 2 =>
    let q := d % 2 ^ 12
    if inJob s q = false then .inl 3
    else if 2 ^ 40 ≤ addr then .inl 1
    else if inReach s q pid (addr / 2 ^ 36) = false then .inl 2
    else .inr (devPhys q addr, false)
  | _ =>
    if 2 ^ 40 ≤ addr then .inl 1
    else if inReach s p pid (addr / 2 ^ 36) = false then .inl 2
    else .inr (devPhys p addr, false)

/-- The error entry of data found uncorrectable (R422, R426): SRC 1, 2 or 5, by the home that found it; of the four edge hubs of a
stack (R16) the first. DESIGN CHOICE: log entry 62. -/
def poisonEntry (s : State) (ph : Nat) : State :=
  let p := ph / 2 ^ 48
  let loc := ph % 2 ^ 48
  if hostBase ≤ ph then s
  else match windowOf loc with
    | .spad n => reportErr s p (clusterOf n) (errEntry 1 1 (clusterOf n) n 1 loc 0)
    | .pool k => reportErr s p k (errEntry 2 1 k 0 1 loc 0)
    | _ => let k := (stackHubs (loc / 2 ^ 36)).headD 0; reportErr s p k (errEntry 5 1 k 0 1 loc 0)

/-- An HBM address in a range, through its page (R403, R404, R407, R417). DESIGN CHOICE: log entry 52. -/
def xlatePage (s : State) (w : Who) (p hub loc : Nat) (write : Bool) (e : RangeEnt) : State × Hit :=
  match findLeaf s p e loc with
  | (s2, .absent) => (s2, .fault p e.stack (pageOf false loc) e.homePkg e.homeFp)
  | (s2, .unused) => (s2, .fail 6)
  | (s2, .malformed at_) => (brokenEntry s2 p hub at_, .fail 6)
  | (s2, .outside) => (s2, .fail 2)
  | (s2, .bad at_) => (poisonEntry s2 (devPhys p at_), .fail 7)
  | (s2, .leaf at_ big d) =>
    if write ∧ d / 2 ^ 58 % 2 = 0 then (s2, .fault p e.stack (pageOf false loc) e.homePkg e.homeFp)
    else
      let off := loc % pageSize big
      match frameOf s2 p w.pid d off with
      | .inl c => (s2, .fail c)
      | .inr (a, host) =>
        if host = false ∧ frameUp s2 p e.stack (a / 2 ^ 48) (a % 2 ^ 48 / 2 ^ 36) = false then (s2, .fail 8)
        else (s2, .at_ a (pageSize big - off)
          (if d / 2 ^ 59 % 2 = 1 then some (devPhys p at_, a - off, pageSize big) else none) host)

/-- An HBM address under a partition and address space (R399 to R407): a page in transit takes no request but the one that LAND sends on next (R416,
R417). DESIGN CHOICE: log entry 52. -/
def xlateHbm (s : State) (w : Who) (p loc : Nat) (write : Bool) : State × Hit :=
  let hub := entryHub s w.core p
  let reach : State → Nat → Bool := fun s k => stackUp s w.core.pkg (coreHub w.core.n) p k
  if w.asid = 0xFFFF then
    if 2 ^ 40 ≤ loc then (s, .fail 1)
    else if inReach s p w.pid (loc / 2 ^ 36) = false then (s, .fail 2)
    else if reach s (loc / 2 ^ 36) = false then (s, .fail 8)
    else (s, .at_ (devPhys p loc) (2 ^ 36 - loc % 2 ^ 36) none false)
  else match findRange s p hub w.pid w.asid loc with
    | (s1, .miss) => (s1, .fail 6)
    | (s1, .outside) => (s1, .fail 2)
    | (s1, .bad at_) => (poisonEntry s1 at_, .fail 7)
    | (s1, .broken at_) => (brokenEntry s1 p hub at_, .fail 6)
    | (s1, .hit e) =>
      if reach s1 e.stack = false then (s1, .fail 8)
      else match (getPkg s1 p).transits.find? (fun t => decide (t.stack = e.stack ∧ t.pid = e.pid ∧ t.asid = e.asid ∧ t.va = pageOf t.big loc)) with
      | some t => if t.landing = some w.core then xlatePage s1 w p hub loc write e else (s1, .transit p e.stack t.va)
      | none => xlatePage s1 w p hub loc write e

/-- A resolved address at its home (R74 to R77): the package, the route, the window, the partition check, translation. -/
def xlate (s : State) (w : Who) (a : Dword) (write : Bool) : State × Hit :=
  if 2 ^ 60 ≤ a.toNat then (s, .fail 1)
  else
    let p := pkgOf w.core a
    let loc := locOf a
    if p ≠ w.core.pkg ∧ inJob s p = false then (s, .fail 3)
    else if (route s w.core.pkg p).isNone ∨ (route s p w.core.pkg).isNone then (s, .fail 8)
    else
      let sram : Nat → Nat → State × Hit := fun k size =>
        if inReach s p w.pid (reachOfCluster k) = false then (s, .fail 2)
        else if linksUp s w.core.pkg (coreHub w.core.n) p k = false then (s, .fail 8)
        else if isAwake (getHub s p k).ret = false then (s, .asleep p k)
        else (s, .at_ (p * 2 ^ 48 + loc) (size - loc % size) none false)
      match windowOf loc with
      | .hbm => xlateHbm s w p loc write
      | .spad n => sram (clusterOf n) (2 ^ 19)
      | .pool k => if 0x3FC000 ≤ loc % 2 ^ 22 ∧ isFp w.core = false then (s, .fail 1) else sram k (2 ^ 22)
      | _ => (s, .fail 1)

/-! ## Judging an access of some bytes (R214, R217) -/

/-- An access of n bytes judged: it may be performed at a physical address, or not. -/
inductive Judged where
  | ok (phys : Nat) (host : Bool)
  | fail (cause : Nat)
  | fault (pkg stack page homePkg homeFp : Nat)
  | transit (pkg stack page : Nat)
  | asleep (pkg cluster : Nat)
deriving DecidableEq, Repr, Inhabited

/-- Zeros over a discarded page's frame (R78, R418): a write of every byte, which clears its errors (R422). -/
def zeroRange (s : State) (a n : Nat) : State :=
  let m := memForget s.mem a (a + n)
  let p := clearPoison s.poison a n
  if isSram a then { s with mem := m, poison := p } else { s with mem := (List.range n).foldl (fun l i => memPut l (a + i) 0) m, poison := p }

/-- The leaf's DISCARD bit cleared (R418), in memory and in the TLB. DEDUCED: log entry 54. -/
def cancelDiscard (s : State) (leafAt frame size : Nat) : State :=
  let d := readNat s none leafAt 8
  let s1 := writeNat s none leafAt 8 (d - d / 2 ^ 59 % 2 * 2 ^ 59)
  let p := leafAt / 2 ^ 48
  let s2 := modPkg s1 p (fun k => { k with tlb := k.tlb.map (fun t =>
    if t.leafAt = leafAt % 2 ^ 48 then { t with leaf := dw (t.leaf.toNat - t.leaf.toNat / 2 ^ 59 % 2 * 2 ^ 59) } else t) })
  zeroRange s2 frame size

/-- The kind of access being judged: a read, a plain or sector write, a read-modify-write, one that the host does not take (R432), a compare and
swap that may write nothing (R229), or a filling write. -/
inductive AKind where
  | read | write | rmw | rmwDev | cas | fill
deriving DecidableEq, Repr, Inhabited

/-- A kind that returns what it reads. -/
def AKind.reads : AKind → Bool
  | .read | .rmw | .rmwDev | .cas => true
  | _ => false

/-- An access of n bytes at a resolved address, judged at its home against the state found there (R217, R422). A request to the host that returns a
value may complete with Unsupported Request or Completer Abort (R432). DESIGN CHOICE: log entries 16, 64. -/
def judge (s : State) (w : Who) (a : Dword) (n : Nat) (k : AKind) : State × Judged :=
  match xlate s w a (decide (k ≠ .read)) with
  | (s1, .fail c) => (s1, .fail c)
  | (s1, .fault p st pg hp hf) => (s1, .fault p st pg hp hf)
  | (s1, .transit p st pg) => (s1, .transit p st pg)
  | (s1, .asleep p c) => (s1, .asleep p c)
  | (s1, .at_ ph lim disc host) =>
    if lim < n then (s1, .fail 1)
    else if isSram ph && decide (poolLoc ≤ ph % 2 ^ 48) && decide (0x3FC000 < ph % 2 ^ 22 + n) && !isFp w.core then (s1, .fail 1)
    else if host ∧ k = .rmwDev then (s1, .fail 1)
    else if (k = .write ∨ k = .rmw ∨ k = .rmwDev) ∧ protectedBytes s1 w.gslot ph n = true then (s1, .fail 5)
    else if host && k.reads && Config.hostFails s1.tick ph then (s1, .fail 8)
    else match disc with
      | some (leafAt, frame, size) =>
        if k = .read then (s1, .ok ph host) else (cancelDiscard s1 leafAt frame size, .ok ph host)
      | none => if k.reads = true ∧ poisoned s1 w.gslot ph n = true then (poisonEntry s1 ph, .fail 7) else (s1, .ok ph host)

/-- A read of a discarded page returns zeros (R418). -/
def discarded (s : State) (w : Who) (a : Dword) : Bool :=
  match (xlate s w a false).2 with
  | .at_ _ _ (some _) _ => true
  | _ => false

/-- The bytes that a performed read returns. -/
def readJudged (s : State) (w : Who) (a : Dword) (ph n : Nat) : List Byte :=
  if windowOf (locOf a) = .hbm ∧ discarded s w a = true then List.replicate n 0 else readBytes s w.gslot ph n

/-- Where the word at a resolved address stands at this moment, as far as its address leads anywhere (R415: a page may have moved). -/
def homeNow (s : State) (w : Who) (a : Dword) : Option Nat :=
  match (xlate s w a false).2 with
  | .at_ ph _ _ _ => some (homeOf s w.gslot ph)
  | _ => none

/-- The address is that of a page of KIND 3 (R432). -/
def onHost (s : State) (w : Who) (a : Dword) : Bool :=
  match (xlate s w a false).2 with
  | .at_ _ _ _ host => host
  | _ => false

/-- The item CAUSE of an access CAUSE (R227). -/
def itemCause (c : Nat) : Nat := if c = 6 then 2 else if c = 7 then 3 else if c = 8 then 4 else 1

/-! ## Retention wake (R452) -/

/-- DESIGN CHOICE: log entry 67. -/
def retentionCycles : Nat := 7600

/-- A request to a sleeping cluster starts its exit at once, after any entry in progress. DESIGN CHOICE: log entry 67. -/
def wakeCluster (s : State) (p k : Nat) : State :=
  modHub s p k (fun h => match h.ret with
    | .asleep => { h with ret := .exiting (s.clock + retentionCycles) }
    | .entering t _ => { h with ret := .entering t true }
    | _ => h)

end Sys2Proof.Machine
end

