-- ==== Sys2Proof/Machine/Wake.lean ====
section
/-!
DEFINITION. What a write sets off: arms and watches on flags (R94, R97, R249), roots (R71 to R73), filling writes (R58, R61), counted
arrivals (R92, R95, R212); and run-queue records (R52 to R57), weight (R70) and the freeing of slots (R44).
-/
namespace Sys2Proof.Machine

/-- The comparison of R94. -/
def reached (count n : Nat) : Bool := decide ((count % 2 ^ 32 + 2 ^ 32 - n % 2 ^ 32) % 2 ^ 32 < 2 ^ 31)

/-- Dword i of a 64-byte structure. -/
def dword (b i : Nat) : Nat := b / 2 ^ (64 * i) % 2 ^ 64

/-- The full weight of a domain (R67). -/
def fullWeight : Nat := 2 ^ 63

/-! ## The weirs (R379, R388) -/

/-- Who makes a request that no thread makes, at a core's hub: no GSLOT (R48). DESIGN CHOICE: log entry 55. -/
def weirWho (c : CoreId) (pid asid : Nat) : Who :=
  { core := c, pid := pid, asid := asid, gslot := none, crew := 0, tid := 0, pc := 0, seg := 0 }

/-- Who makes the requests of the weir of a die. DESIGN CHOICE: log entry 55. -/
def weirOf (p d pid asid : Nat) : Who := weirWho { pkg := p, n := 16 * weirHub d } pid asid

/-- Who makes the requests of a queue's lead weir for a packet. DESIGN CHOICE: log entry 55. -/
def packetWho (p q : Nat) (k : Packet) : Who := weirOf p (q % 4) k.pid k.asid

/-! ## Waking -/

/-- The threads of every core changed. -/
def mapThreads (s : State) (f : CoreId → Thread → Thread) : State :=
  { s with cores := s.cores.map (fun ck => (ck.1, { ck.2 with slots := ck.2.slots.map (fun o => o.map (f ck.1)) })) }

/-- A parked thread becomes READY (R39), with the word that its wait was waiting for. -/
def Thread.wake (t : Thread) (v : Option Dword) : Thread := { t with run := .ready, woken := v }

/-- A group of a grid has its images ready to be restored (R394). -/
def markRestorable (s : State) (w : Watch) : State :=
  modGrid s w.pkg w.gslot (fun g => { g with groups := g.groups.map (fun x => if x.index = w.index then { x with restorable := true } else x) })

/-- Who waits in a watch that the weir keeps. -/
def watchWho (s : State) (w : Watch) : Who :=
  let g := getGrid s w.pkg w.gslot
  { core := { pkg := w.pkg, n := w.core }, pid := (g.map (fun x => x.pid)).getD 0, asid := (g.map (fun x => x.asid)).getD 0, gslot := some w.gslot,
    crew := 0, tid := 0, pc := 0, seg := 0 }

/-- The WAITFLAGs of a queue that watch the word at a home, on its new value (R249, R387). -/
def watchFlag (s : State) (p h v : Nat) (q : Queue) : Queue :=
  { q with pkts := q.pkts.map (fun k =>
    let x := k.bits.toNat
    if k.watching && reached v (dword x 1) && decide (homeNow s (packetWho p q.q k) (dw (dword x 0)) = some h) then { k with met := true } else k) }

/-- The waits on the word at a home are evaluated on its new value: those of flags after a strong write (R249, R394), those of roots after every
one (R257). A page may have moved since the wait began (R415), so that each address is looked up afresh. DEDUCED: log entry 29. -/
def evalWaits (s : State) (h : Nat) (v : Nat) (strong : Bool) : State :=
  let met : Who → ParkOn → Bool := fun who w => match w with
    | .flag f n => strong && reached v n && decide (homeNow s who f = some h)
    | .root r => decide (v = fullWeight) && decide (homeNow s who r = some h)
    | _ => false
  let s0 := if strong then { s with pkgs := s.pkgs.map (fun x => (x.1, { x.2 with queues := x.2.queues.map (watchFlag s x.1 h v) })) } else s
  let s1 := mapThreads s0 (fun c t => match t.run with
    | .parked w true => if met (whoOf c t) w then t.wake (some (dw v)) else t
    | _ => t)
  (s1.watches.filter (fun w => met (watchWho s w) w.on)).foldl markRestorable s1

/-- An arrival on its way (R92). -/
def sendArrival (s : State) (a : Arrival) : State :=
  { s with arrivals := s.arrivals ++ [{ a with id := s.itemSeq }], itemSeq := s.itemSeq + 1 }

/-- What an arm does when it fires (R250). DESIGN CHOICE: log entry 32. -/
def fireArm (s : State) (m : Arm) : State :=
  match m.op with
  | .msg tag => postRec s m.who (mkRec m.who 0x08 0 m.flag 0 0 tag)
  | .inc g => sendArrival s { id := 0, who := m.who, kind := 0, flag := g, inc := false, share := 0, domain := 0, addr := m.flag, tag := 0, stage := .sent }

/-- Every arm on the flag at a home is evaluated (R97): those reached fire once and are removed. -/
def evalArms (s : State) (h v : Nat) : State :=
  let met : Arm → Bool := fun m => reached v m.n && decide (homeNow s m.who m.flag = some h)
  (s.arms.filter met).foldl fireArm { s with arms := s.arms.filter (fun m => !met m) }

/-- After a write of grid g over [a, a + n), every word that it touches: arms and flags after a strong one, roots after any. -/
def noteWrite (s : State) (g : Option Nat) (a n : Nat) (strong : Bool) : State :=
  (List.range (n / 8 + 2)).foldl (fun s i =>
    let w := a / 8 * 8 + 8 * i
    if w < a + n then
      let v := readNat s g w 8
      let h := homeOf s g w
      evalWaits (if strong then evalArms s h v else s) h v strong
    else s) s

/-- After a counted arrival, a strong store or a read-modify-write. -/
def noteStrong (s : State) (g : Option Nat) (a n : Nat) : State := noteWrite s g a n true

/-! ## What a write sets off -/

/-- An MSI-X vector of a function is raised (R428, R435): the message of its table entry, or its pending bit while the entry is masked.
PRESUMED: log entry 73. -/
def raiseMsix (s : State) (p fn vec : Nat) : State :=
  modPkg s p (fun k =>
    let e := k.msixTab[8 * fn + vec]?.getD (0, 0)
    if fld e.2 32 32 = 1 then { k with msixPend := k.msixPend.setIfInBounds fn ((k.msixPend[fn]?.getD 0) ||| BitVec.ofNat 8 (2 ^ vec)) }
    else { k with hostOut := k.hostOut ++ [.msix fn vec e.1 (e.2 &&& 0xFFFFFFFF#64)] })

/-- A device write that lands in the host response ring of a partition, whichever partition makes it, raises MSI-X vector 0 of that partition's
function (R433, R435). -/
def hostRing (s : State) (ph n : Nat) : State :=
  if ph < hostBase then s
  else
    let p := (ph - hostBase) / 2 ^ 52
    let a := (ph - hostBase) % 2 ^ 52
    (List.range 16).foldl (fun s pid =>
      let h := (block s p pid).hresp
      let base := fld h 51 4 * 16
      if base ≠ 0 ∧ a < base + 16 * 2 ^ (fld h 63 60 + 4) ∧ base < a + n then raiseMsix s p (pid + 1) 0 else s) s

/-- Queues whose descriptor's trailing sector a write of [ph, ph + n) touches: the lead weir is notified (R380). -/
def noteDesc (s : State) (ph n : Nat) : State :=
  let p := ph / 2 ^ 48
  let tab := devPhys p (fld (getPkg s p).qtab 47 6 * 64)
  if hostBase ≤ ph ∨ ph < tab ∨ tab + 2 ^ 22 ≤ ph then s
  else
    let q0 := (ph - tab) / 64
    let qs := ((List.range (n / 64 + 2)).map (fun i => q0 + i)).filter (fun q => decide (q < 65536) && decide (tab + 64 * q + 0x20 < ph + n) &&
      decide (ph < tab + 64 * q + 64))
    modPkg s p (fun k => { k with descs := k.descs.filter (fun q => !qs.contains q) ++ qs })

/-- The byte 0x3F of a slot written (R382): by a publishing form with 0x01, its home forwards the line; another value takes back what it forwarded. -/
def noteSlot (s : State) (slot : Nat) (pub : Bool) : State :=
  if memGet s.mem (slot + 63) = some 1 then
    if pub then { s with lines := (slot, BitVec.ofNat 512 (readNat s none slot 64)) :: s.lines.filter (fun x => decide (x.1 ≠ slot)) } else s
  else { s with lines := s.lines.filter (fun x => decide (x.1 ≠ slot)) }

/-- The slots whose last byte a write of [ph, ph + n) touches; a request that an image takes (R48) writes no slot. -/
def noteLines (s : State) (g : Option Nat) (ph n : Nat) (pub : Bool) : State :=
  (List.range (n / 64 + 2)).foldl (fun s i =>
    let slot := ph / 64 * 64 + 64 * i
    if ph ≤ slot + 63 ∧ slot + 63 < ph + n ∧ homeOf s g (slot + 63) = slot + 63 then noteSlot s slot pub else s) s

/-- What follows a write of [ph, ph + n) at its home: the host's ring, the queue table, the rings of packets, and the flags and roots that it
touches (R97, R249, R257, R380, R382, R435). `pub` is set for the forms that publish a packet. -/
def afterWrite (s : State) (w : Who) (ph n : Nat) (strong pub : Bool) : State :=
  noteWrite (noteLines (noteDesc (hostRing s ph n) ph n) w.gslot ph n pub) w.gslot ph n strong

/-- Adjacent pieces joined. -/
def joinRuns (l : List (Nat × List Byte)) : List (Nat × List Byte) :=
  l.foldr (fun x acc => match acc with
    | y :: rest => if x.1 + x.2.length = y.1 then (x.1, x.2 ++ y.2) :: rest else x :: y :: rest
    | [] => [x]) []

/-- Bytes written at their homes as one event (R27, R81), and what follows it. -/
def writeEvent (s : State) (w : Who) (parts : List (Nat × List Byte)) (strong pub : Bool) : State :=
  let rs := joinRuns parts
  rs.foldl (fun s x => afterWrite s w x.1 x.2.length strong pub) (rs.foldl (fun s x => writeBytes s w.gslot x.1 x.2) s)

/-- A word written at its home by a read-modify-write or a counted arrival. -/
def writeWord (s : State) (w : Who) (ph n x : Nat) : State := afterWrite (writeNat s w.gslot ph n x) w ph n true false

/-- Pieces by the 32-byte sectors that they lie in, the sectors ascending (R85). -/
def bySector (l : List (Nat × List Byte)) : List (List (Nat × List Byte)) :=
  (sortBy (fun a b => decide (a ≤ b)) (l.map (fun x => x.1 / 32)).eraseDups).map (fun k => l.filter (fun x => decide (x.1 / 32 = k)))

/-- A transfer that writes a sector's last byte publishes the packet there if it writes the sector below as well (R382). -/
def pubSector (l : List (Nat × List Byte)) (g : List (Nat × List Byte)) : Bool :=
  match g with
  | [] => false
  | x :: _ => decide (x.1 / 32 % 2 = 1) && l.any (fun y => decide (y.1 / 32 + 1 = x.1 / 32))

/-- The sector writes of one transfer, in ascending order (R81, R85). -/
def sectorWrites (s : State) (w : Who) (l : List (Nat × List Byte)) : State :=
  (bySector l).foldl (fun s g => writeEvent s w g true (pubSector l g)) s

/-! ## Gateway ports (R412, R416) -/

/-- A request for the page of an address, of the core, partition and address space given. -/
def PortReq.onPage (q : PortReq) (w : Who) (a : Dword) : Bool :=
  decide (q.core = w.core ∧ q.pid = w.pid ∧ q.asid = w.asid ∧ q.page = pageOf q.big (locOf a))

/-- A request of the same core for a page whose earlier requests are held, faulted or refused waits behind the last of them (R412, R416): those that
stand before it, where it stands at the port already. One that was answered REFUSE is over. -/
def portBehind (s : State) (w : Who) (a : Dword) (r : Req) : Option (Nat × PortReq) :=
  if windowOf (locOf a) ≠ .hbm ∨ w.asid = 0xFFFF then none
  else
    let p := pkgOf w.core a
    let k := getPkg s p
    let l := (k.held ++ k.faults ++ k.retries).filter (fun q => q.onPage w a && !q.refused)
    ((l.takeWhile (fun q => decide (q.req ≠ r))).getLast?).map (fun x => (p, x))

/-- A request into the hub's retries; one that waits there keeps its place (R416). -/
def putRetry (s : State) (p : Nat) (q : PortReq) : State × Stage :=
  (modPkg s p (fun k =>
    if k.retries.any (fun x => decide (x.core = q.core ∧ x.page = q.page ∧ x.req = q.req)) then k else { k with retries := k.retries ++ [{ q with ticket := none }] }),
   .refused)

/-- A request that a port takes in no longer waits in the retries. -/
def unRetry (k : Pkg) (q : PortReq) : Pkg :=
  { k with retries := k.retries.filter (fun x => !decide (x.core = q.core ∧ x.page = q.page ∧ x.req = q.req)) }

/-- A request put into one of a port's lists: the migration buffer of 256 entries, the fault list of 512, or, where that is full, the hub's
retries (R412, R416). -/
def putHeld (s : State) (p : Nat) (q : PortReq) : State × Stage :=
  let k := getPkg s p
  if (k.held.filter (fun x => decide (x.stack = q.stack))).length < 256 then (setPkg s p (unRetry { k with held := k.held ++ [q] } q), .buffered)
  else putRetry s p q

def putFault (s : State) (p : Nat) (q : PortReq) : State × Stage :=
  let k := getPkg s p
  if (k.faults.filter (fun x => decide (x.stack = q.stack) && !x.refused)).length < 512 then
    (setPkg s p (unRetry { k with faults := k.faults ++ [q] } q), .faulted (q.ticket.getD 0))
  else putRetry s p q

/-- A request held behind an earlier one. -/
def holdBehind (s : State) (x : Nat × PortReq) (r : Req) : State × Stage :=
  let q : PortReq := { x.2 with req := r, ticket := none, since := s.tick }
  let k := getPkg s x.1
  if k.held.contains x.2 then putHeld s x.1 q
  else if k.faults.contains x.2 then putFault s x.1 q
  else putRetry s x.1 q

/-- The port request of a page fault or a page in transit: held, refused when the list is full (R412, R416), and for a fault
reported to its home with SOURCE 1, with a message from the first edge hub of the stack (R408). DESIGN CHOICE: log entry 62. -/
def holdAtPort (s : State) (w : Who) (a : Dword) (j : Judged) (write : Bool) (r : Req) : State × Stage :=
  match j with
  | .transit p st pg =>
    let big := (getPkg s p).transits.any (fun t => decide (t.stack = st ∧ t.pid = w.pid ∧ t.asid = w.asid ∧ t.va = pg) && t.big)
    putHeld s p { core := w.core, stack := st, pid := w.pid, asid := w.asid, page := pg, big := big, req := r, ticket := none, refused := false, since := s.tick }
  | .fault p st pg hp hf =>
    let tk := 2 ^ 31 + st * 2 ^ 27 + (getPkg s p).portSeq % 2 ^ 27
    let x := putFault s p { core := w.core, stack := st, pid := w.pid, asid := w.asid, page := pg, big := false, req := r, ticket := some tk, refused := false, since := s.tick }
    let rec0 : FaultRec := { homePkg := hp, homeFp := hf, pid := w.pid,
                             d0 := dw (2 ^ 62 + 2 ^ 61 + (if write then 2 ^ 60 else 0) + w.pid * 2 ^ 56 + w.asid * 2 ^ 40 + tk),
                             page := dw pg, addr := dw (locOf a), rq := dw (w.core.pkg * 2 ^ 48 + w.core.n % 2 ^ 13),
                             sender := senderAt p ((stackHubs st).headD 0) }
    (match x.2 with
     | .faulted _ => (modPkg x.1 p (fun k => { k with portSeq := k.portSeq + 1, recs := k.recs ++ [rec0] }), x.2)
     | _ => x)
  | .asleep p k => (wakeCluster s p k, .sent)
  | _ => (s, .sent)

/-! ## Weight (R67 to R73) -/

/-- The root word of a domain and whether it is a job's (R360); none where the id is not usable. DESIGN CHOICE: log entry 38. -/
def rootOf (s : State) (p pid id : Nat) : Option (Dword × Bool) :=
  let d := (block s p pid).domtab
  if id = 0 ∨ fld d 63 48 < id then none
  else
    let e := readDev s p (fld d 47 6 * 64 + 8 * id) 8
    if e / 2 ^ 63 = 0 ∨ devOk s p pid (fld d 47 6 * 64 + 8 * id) = false then none else some (dw (e % 2 ^ 60), decide (e / 2 ^ 62 % 2 = 1))

/-- The scope of a domain's releases and acquires (R72, R73, R360). In this machine a write is visible to every reader once it is performed, so that
the scope decides nothing beyond the orders of Machine/Order.lean. -/
def domainScope (job : Bool) : Scope := if job then .sys else .dev

/-- An amount added to a domain's root (R72): one read-modify-write at the root's home; nothing goes where nothing is returned. The spec does not say
what becomes of the weight where the domain id is not usable or the add is not performed: the model drops it. DESIGN CHOICE: log entry 30. -/
def returnWeight (s : State) (w : Who) (domain amount : Nat) : State :=
  if domain = 0 ∨ amount = 0 then s
  else match rootOf s w.core.pkg w.pid domain with
    | none => s
    | some (a, _) =>
      let r : Req := .owed s.itemSeq
      let owe := fun (x : State × Stage) =>
        { x.1 with owed := x.1.owed ++ [{ id := s.itemSeq, atPort := decide (x.2 ≠ .sent), who := w, domain := domain, amount := amount }], itemSeq := s.itemSeq + 1 }
      match portBehind s w a r with
      | some x => owe (holdBehind s x r)
      | none => match judge s w a 8 .rmw with
        | (s1, .ok ph _) => writeWord s1 w ph 8 ((readNat s1 w.gslot ph 8 + amount) % 2 ^ 64)
        | (s1, .fail _) => s1
        | (s1, j) => owe (holdAtPort s1 w a j true r)

/-- The outcome of a borrow (R71). -/
inductive Borrow where
  | took (s : State) (amount : Nat)
  | exhausted (root : Dword) (v : Nat)
  /-- The domain id is not usable, or the root's access is not performed. -/
  | noDomain
  | blocked (s : State) (a : Dword) (j : Judged)
deriving DecidableEq, Repr

/-- DESIGN CHOICE: log entry 30. -/
def borrow (s : State) (w : Who) (domain : Nat) : Borrow :=
  match rootOf s w.core.pkg w.pid domain with
  | none => .noDomain
  | some (a, _) => match judge s w a 8 .rmw with
    | (s1, .ok ph _) =>
      let old := readNat s1 w.gslot ph 8
      if old < 2 then .exhausted a old
      else .took (writeWord s1 w ph 8 (old - old / 2)) (old / 2)
    | (s1, j) => .blocked s1 a j

/-! ## Continuation records (R52 to R57) -/

/-- A record's fields (R52). -/
structure CRec where
  seg : Nat
  pc : Nat
  args : List Dword
  weight : Nat
  frame : Dword
  state : Nat
  gslot : Nat
  again : Bool
  tid : Nat
  prio : Nat
  kernel : Nat
  domain : Nat
deriving DecidableEq, Repr, Inhabited

def CRec.bits (r : CRec) : Nat :=
  (r.seg * 2 ^ 48 + r.pc) + 2 ^ 64 * ((r.args.getD 0 0).toNat + 2 ^ 64 * ((r.args.getD 1 0).toNat + 2 ^ 64 * ((r.args.getD 2 0).toNat +
    2 ^ 64 * ((r.args.getD 3 0).toNat + 2 ^ 64 * (r.weight + 2 ^ 64 * (r.frame.toNat + 2 ^ 64 *
      (r.state * 2 ^ 56 + r.gslot * 2 ^ 48 + (if r.again then 2 ^ 40 else 0) + r.tid * 2 ^ 34 + r.prio * 2 ^ 32 + r.kernel * 2 ^ 16 +
        r.domain)))))))

def CRec.ofBits (b : Nat) : CRec :=
  let t := dword b 7
  {
    seg := dword b 0 / 2 ^ 48, pc := dword b 0 % 2 ^ 48, args := [dw (dword b 1), dw (dword b 2), dw (dword b 3), dw (dword b 4)],
    weight := dword b 5, frame := dw (dword b 6), state := t / 2 ^ 56, gslot := t / 2 ^ 48 % 2 ^ 8, again := decide (t / 2 ^ 40 % 2 = 1),
    tid := t / 2 ^ 34 % 16, prio := t / 2 ^ 32 % 4, kernel := t / 2 ^ 16 % 2 ^ 16, domain := t % 2 ^ 16 }

/-- The reserved bits of a record at the head of a run queue are zero (R52, R56). -/
def crecOk (b : Nat) : Bool :=
  let t := dword b 7
  decide (t / 2 ^ 56 = 1) && decide (t / 2 ^ 41 % 2 ^ 7 = 0) && decide (t / 2 ^ 38 % 4 = 0) && decide (dword b 0 / 2 ^ 17 % 2 ^ 31 = 0) &&
    decide (dword b 0 % 2 = 0)

/-- The physical address of slot i of a cluster's ring (R54). -/
def ringAt (p k i : Nat) : Nat := p * 2 ^ 48 + poolBase k + 0x3FC000 + 64 * i

/-- The first free ring slot that follows, in ring order, the slot appended before (R54). -/
def ringFree (h : Hub) : Option Nat :=
  ((List.range 256).map (fun i => (h.ringLast + 1 + i) % 256)).find? (fun i => !h.ring.any (fun e => decide (e.slot = i)))

/-- A READY record appended to a cluster's run queue; false where the ring is full (R53, R54). DESIGN CHOICE: log entry 28. -/
def appendRing (s : State) (p k : Nat) (r : CRec) : State × Bool :=
  let h := getHub s p k
  match ringFree h with
  | none => (s, false)
  | some i =>
    let s1 := writeNat s none (ringAt p k i) 64 { r with state := 1, pc := r.pc % 2 ^ 17 }.bits
    (setHub s1 p k { h with ring := h.ring ++ [{ slot := i, prio := r.prio, order := h.ringOrder }], ringLast := i, ringOrder := h.ringOrder + 1 }, true)

/-- The record of a thread (R57, R60): its PC, and whether it repeats a future read at pickup. -/
def threadRec (t : Thread) (g : Vector Dword 64) (pc : Nat) (again : Bool) : CRec :=
  { seg := t.seg, pc := pc, args := [g[4], g[5], g[6], g[7]], weight := t.weight, frame := g[3], state := 1,
    gslot := t.gslot.getD 255, again := again, tid := t.tid, prio := t.prio, kernel := t.kernel, domain := t.domain }

/-- The record heap of a partition (R359): FIRST and SLOTS, empty where it would reach the run queue. DESIGN CHOICE: log entry 38. -/
def heapOf (s : State) (p pid : Nat) : Nat × Nat :=
  let h := (block s p pid).heap
  if 65280 < fld h 15 0 + fld h 31 16 then (0, 0) else (fld h 15 0, fld h 31 16)

/-- The physical address of heap index i (R60, R359). -/
def heapAt (s : State) (p pid k i : Nat) : Nat := p * 2 ^ 48 + poolBase k + 64 * ((heapOf s p pid).1 + i)

/-- The free slot of lowest heap index (R60). -/
def heapFree (s : State) (p pid k : Nat) : Option Nat :=
  (List.range (heapOf s p pid).2).find? (fun i => decide (readNat s none (heapAt s p pid k i + 63) 1 = 0))

/-! ## Filling writes (R58, R61) -/

/-- The cluster of a scratchpad line. -/
def clusterOfLine (a : Nat) : Nat := clusterOf ((a % 2 ^ 48 - scratchLoc) / 2 ^ 19)

/-- The eddy tables of the line's cluster are told: threads parked on the line become READY. -/
def wakeLine (s : State) (g : Option Nat) (l : Nat) : State :=
  let h := homeOf s g l
  let s1 := mapThreads s (fun c t => match t.run with
    | .parked (.line x) true =>
      if c.pkg = l / 2 ^ 48 ∧ clusterOf c.n = clusterOfLine l ∧ homeOf s t.gslot x = h then t.wake none else t
    | _ => t)
  (s1.watches.filter (fun w => match w.on with | .line x => decide (homeOf s (some w.gslot) x = h) | _ => false)).foldl markRestorable s1

/-- A filling write of bytes at offsets, all in the line at `l` (R58, R61): data stored, the uncovered bytes among 0 to 15 of an
empty line zeroed, the line set full, the readers woken, the deferred list handed to its walk. -/
def fillLine (s : State) (g : Option Nat) (pid l : Nat) (parts : List (Nat × List Byte)) : State :=
  let wasEmpty := lineEmpty s g l
  let head := readNat s g l 8
  let s1 := if wasEmpty then writeNat s g l 16 0 else s
  let s2 := (joinRuns parts).foldl (fun s p => writeBytes s g (l + p.1) p.2) s1
  let s3 := setLine s2 g l true
  if wasEmpty then
    let s4 := wakeLine s3 g l
    if head = 0 then s4 else { s4 with walks := s4.walks ++ [{ pkg := l / 2 ^ 48, cluster := clusterOfLine l, pid := pid, next := head }] }
  else s3

/-! ## Counted arrivals (R92, R95, R212) -/

/-- Accesses that have been rolled back count as never issued: no port holds them any more (R406). -/
def dropReqs (s : State) (nos : List Nat) : State :=
  if nos = [] then s
  else
    let keep := fun (q : PortReq) => match q.req with
      | .access _ _ no => !nos.contains no
      | _ => true
    { s with pkgs := s.pkgs.map (fun x => (x.1, { x.2 with held := x.2.held.filter keep, retries := x.2.retries.filter keep, faults := x.2.faults.filter keep })) }

/-- One fault record appended to its ring, or answered with REFUSE where there is none: what remains to be done (R408). -/
inductive Append where
  | done (s : State)
  | full
  | noRing

def appendFault (s : State) (r : FaultRec) : Append :=
  let d := transBlock s r.homePkg r.pid + 0x40 + 32 * r.homeFp
  let w0 := readDev s r.homePkg d 8
  let l := w0 / 2 ^ 48 % 16
  let base := w0 / 64 % 2 ^ 42 * 64
  let tail := readDev s r.homePkg (d + 8) 4
  let head := readDev s r.homePkg (d + 16) 4
  let last := decide (r.d0.toNat / 2 ^ 61 % 2 = 1)
  if base = 0 ∨ devOk s r.homePkg r.pid (base + 64 * (tail % 2 ^ (l + 4))) = false then .noRing
  else if 2 ^ (l + 4) ≤ (tail + 2 ^ 32 - head) % 2 ^ 32 then .full
  else if last && !notifyRoom s r.homePkg r.homeFp r.sender then .full
  else
    let at_ := devPhys r.homePkg (base + 64 * (tail % 2 ^ (l + 4)))
    let s1 := writeNat s none at_ 64 (r.d0.toNat + 2 ^ 64 * (r.page.toNat + 2 ^ 64 * (r.addr.toNat + 2 ^ 64 * r.rq.toNat)))
    let s2 := writeNat s1 none (devPhys r.homePkg (d + 8)) 4 ((tail + 1) % 2 ^ 32)
    .done (if last then notifyFp s2 r.homePkg r.homeFp r.sender (dw (6 * 2 ^ 56 + r.pid * 2 ^ 48 + r.d0.toNat % 2 ^ 32)) else s2)

/-- The record of an arrival that its flag could not take (R212). DESIGN CHOICE: log entry 32. -/
def lostArrival (s : State) (a : Arrival) : State :=
  if a.kind = 0 then s else postRec s a.who (mkRec a.who a.kind 0xB a.addr a.flag 0 a.tag)

/-- A flag word after a counted arrival (R91, R92): COUNT + 1, INC for a failed item, SW kept. -/
def countFlag (old : Nat) (count inc : Bool) : Nat :=
  let new := if count then old / 2 ^ 32 * 2 ^ 32 + (old + 1) % 2 ^ 32 else old
  if inc ∧ new < 2 ^ 63 then new + 2 ^ 63 else new

/-- A counted arrival at its flag's home. In host memory a failed item's is a FetchAdd, then a CAS loop of its own that sets INC (R432). -/
def arrive (s : State) (a : Arrival) : State × Stage :=
  let gone := fun (s : State) => { s with arrivals := s.arrivals.filter (fun x => decide (x.id ≠ a.id)) }
  let back := fun (s : State) => if a.share = 0 then s else returnWeight s a.who a.domain a.share
  let held := fun (r : State × Stage) =>
    ({ r.1 with arrivals := r.1.arrivals.map (fun x => if x.id = a.id then { x with stage := r.2 } else x) }, r.2)
  match portBehind s a.who a.flag (.arrival a.id) with
  | some x => held (holdBehind s x (.arrival a.id))
  | none => match judge s a.who a.flag 8 .rmw with
    | (s1, .ok ph host) =>
      let old := readNat s1 a.who.gslot ph 8
      if host && a.inc && !a.counted then
        let s2 := writeWord s1 a.who ph 8 (countFlag old true false)
        ({ s2 with arrivals := s2.arrivals.map (fun x => if x.id = a.id then { x with counted := true } else x) }, .sent)
      else (back (gone (writeWord s1 a.who ph 8 (countFlag old (!a.counted) a.inc))), .sent)
    | (s1, .fail _) => (back (gone (lostArrival s1 a)), .sent)
    | (s1, j) => held (holdAtPort s1 a.who a.flag j true (.arrival a.id))

/-! ## Freeing a slot (R44) -/

/-- The reel units of a crew are free for another (R64). -/
def freeReels (s : State) (p core crew : Nat) : State :=
  modCore s { pkg := p, n := core } (fun k => { k with reel := k.reel.map (fun r => if r.owner = some crew then { r with owner := none } else r) })

/-- A launched thread has quit or suspended: its group's crew counts one fewer, and a group without threads is complete (R44); its crews' reel units
are then free. -/
def leaveGroup (s : State) (c : CoreId) (t : Thread) (slot : Nat) : State :=
  match t.gslot with
  | none => s
  | some g =>
    if t.group = 0xFFFFFFFF then s
    else
      let s1 := modGrid s c.pkg g (fun x =>
        { x with groups := x.groups.map (fun r => if r.index = t.group then
            { r with leftAt := s.clock, crews := r.crews.map (fun k => if k.core = c.n ∧ k.crew = t.crew then { k with live := k.live - 1, slots := k.slots.filter (· ≠ slot) } else k) }
          else r) })
      let complete := fun (r : Group) => !r.crews.any (fun k => decide (0 < k.live))
      let ended := match getGrid s1 c.pkg g with
        | some x => (x.groups.filter complete).flatMap (fun (r : Group) => r.crews)
        | none => []
      ended.foldl (fun s (k : CrewAt) => freeReels s c.pkg k.core k.crew)
        (modGrid s1 c.pkg g (fun x => { x with groups := x.groups.filter (fun r => !complete r) }))

/-- A slot becomes FREE; a grant held by its thread is freed (R308). -/
def freeSlot (s : State) (c : CoreId) (slot : Nat) : State :=
  modCore s c (fun k => { setSlot k slot none with grant := match k.grant with
    | some x => if x.slot = slot ∧ x.away = none then none else k.grant
    | none => none })

/-- A slot becomes FREE because its thread has been saved into an image: a grant stays with its holder (R308, R310). -/
def vacate (s : State) (c : CoreId) (slot img : Nat) : State :=
  modCore s c (fun k => { setSlot k slot none with grant := k.grant.map (fun x => if x.slot = slot ∧ x.away = none then { x with away := some img } else x) })

/-- Commands in the core's matrix queue that name a tile of the slot's thread (R294). -/
def tileCmds (k : Core) (slot : Nat) : Bool := k.mq.any (fun m => decide (m.slot = slot))

/-! ## Stores that wait at their homes (R82, R84, R110) -/

/-- An accepted write performed. DESIGN CHOICE: log entry 7. -/
def performBuf (s : State) (b : BufWrite) : State := writeEvent s b.who b.parts b.strong b.pub

/-- The stores of some kind performed, oldest first. -/
def drainWhere (s : State) (f : BufWrite → Bool) : State :=
  (s.wbuf.filter f).foldl performBuf { s with wbuf := s.wbuf.filter (fun b => !f b) }

def drainAll (s : State) : State := drainWhere s (fun _ => true)

/-- The stores of a thread performed. DEDUCED: log entry 21. DESIGN CHOICE: log entry 7. -/
def drainThread (s : State) (c : CoreId) (slot : Nat) : State := drainWhere s (fun b => decide (b.who.core = c) && decide (b.slot = slot))

/-- Pieces of two writes have a common byte. -/
def partsMeet (x y : List (Nat × List Byte)) : Bool :=
  x.any (fun a => y.any (fun b => decide (a.1 < b.1 + b.2.length) && decide (b.1 < a.1 + a.2.length)))

/-- The first address of a write. -/
def BufWrite.at_ (b : BufWrite) : Nat := (b.parts.headD (0, [])).1

/-- An earlier write goes before a later one: common bytes (R84), one transfer's sectors in a 256-byte block (R85), or one core's writes to host
memory (R432). -/
def bufBefore (a b : BufWrite) : Bool :=
  partsMeet a.parts b.parts ||
    (decide (a.who.core = b.who.core ∧ a.slot = b.slot ∧ a.seq = b.seq) && decide (a.at_ / 256 = b.at_ / 256)) ||
    (decide (a.who.core = b.who.core) && decide (hostBase ≤ a.at_) && decide (hostBase ≤ b.at_))

/-- The waiting writes that must go before one of them, itself not among them: those before it in the list, and what must go before those. -/
def mustPrecede : List BufWrite → BufWrite → List BufWrite
  | [], _ => []
  | a :: l, b => let rest := mustPrecede l b; if bufBefore a b || rest.any (bufBefore a) then a :: rest else rest

/-- Entry k performed, after those that go before it; none beyond the end. -/
def drainAt (s : State) (k : Nat) : State :=
  match s.wbuf[k]? with
  | none => s
  | some b =>
    let before := s.wbuf.take k
    let now := mustPrecede before b
    (now ++ [b]).foldl performBuf { s with wbuf := before.filter (fun a => !now.contains a) ++ s.wbuf.drop (k + 1) }

/-- One of them, or none, as the homes choose. DESIGN CHOICE: log entry 7. -/
def drainSome (s : State) : State := if s.wbuf = [] then s else drainAt s (Config.drains s.tick)

/-- Bytes in pieces that lie in one 64-byte half of a line each (R214). -/
def halfPieces : Nat → Nat → List Byte → List (Nat × List Byte)
  | 0, _, _ => []
  | fuel + 1, a, bs =>
    if bs = [] then [] else
    let n := 64 - a % 64
    (a, bs.take n) :: halfPieces fuel (a + n) (bs.drop n)

end Sys2Proof.Machine
end

