-- ==== Sys2Proof/Machine/Image.lean ====
section
/-!
DEFINITION. Context images (R371 to R373): thread images and crew images as bytes, and the threads and crews read back from them;
the rollback of accesses that no home has accepted (R152, R410), and placing images (R377).
-/
namespace Sys2Proof.Machine

/-! ## Rollback (R152, R410) -/

/-- The results that were outstanding as a thread halted, where the instructions from a number on have been undone since: theirs are none, and those
that they had made stale are again the last writers of their registers (R151). -/
def haltedOuts (t : Thread) (out : List Out) (q : Nat) : List (Nat × Dst) :=
  let l := t.haltOuts.filter (fun x => decide (x.1 < q))
  if t.halted then l ++ ((out.filter (fun o => o.staleBy.isNone)).map (fun o => (o.seq, o.dst))).filter (fun x => !l.contains x) else t.haltOuts

/-- The results of a thread whose instructions from a number on have been undone. -/
def outsBefore (t : Thread) (q : Nat) : List Out :=
  (t.out.filter (fun o => decide (o.seq < q))).map (fun o => match o.staleBy with
    | some x => if q ≤ x then { o with staleBy := none } else o
    | none => o)

/-- The thread as it stood at the issue of an access: registers, PC and segment, without the results and accesses issued from then on; a machine
trap that waits (R362) is no instruction's and stays. DEDUCED: log entry 47. DESIGN CHOICE: log entry 22. -/
def rollback (t : Thread) (a : Access) : Thread :=
  { t with regs := a.ck, pc := a.pc, seg := a.seg, inHandler := a.ckHandler, marker := false, claims := [],
           trap := (t.trap.filter (fun i => decide (i.cls = 8))).map (fun i => { i with pc := a.pc, seg := a.seg }),
           out := outsBefore t a.seq, haltOuts := haltedOuts t (outsBefore t a.seq) a.seq,
           acc := t.acc.filter (fun b => decide (b.seq < a.seq)) }

/-- The numbers of the buffered accesses that a rollback has undone. -/
def undone (t u : Thread) : List Nat := (t.acc.filter (fun a => a.buffered && !u.acc.contains a)).map (fun a => a.no)

/-! ## Thread images (R371, R372) -/

def roundUp (x m : Nat) : Nat := (x + m - 1) / m * m

def imageLen (al : Allot) (ncmd : Nat) : Nat := roundUp (0x100 + 8 * al.g + 128 * al.v + 1024 * al.a + 32 * ncmd) 64

/-- FILE and register number of an outstanding-list entry (R372). -/
def outCode (d : Dst) : Nat :=
  match d with
  | .g r => r.val
  | .v r => 256 + r.val
  | .t r => 512 + r.val
  | .p r => 768 + r.val

/-- A withdrawn command in the format of R309 (R371). The KEY of a local one carries the nf values read at issue. DEDUCED: log entry 39. -/
def cmdBytes (m : MCmd) : List Byte :=
  let key := match m.remote with
    | some _ => m.who.core.n % 2 ^ 13
    | none => m.nfA.toNat + m.nfB.toNat * 2 ^ 16
  let mfm : Nat × Nat × Nat := match m.op with
    | .product a f md => (a, f, md)
    | .zero => (4, 0, 0)
    | .load => (4, 1, 0)
    | .drain k n u md _ _ => (5, k + (if n then 4 else 0) + (if u then 8 else 0), md)
    | .ring c => (10, 0, c)
    | .ringRecv => (10, 1, 0)
    | .pass => (11, 0, 0)
  let flag := match m.remote with | some (_, f) => f.toNat | none => 0
  leBytes 4 key ++ leBytes 1 mfm.1 ++ leBytes 1 mfm.2.1 ++ leBytes 1 mfm.2.2 ++
    leBytes 1 (m.tile % 8 + (if m.remote.isSome then 128 else 0)) ++ leBytes 8 m.da.toNat ++ leBytes 8 m.db.toNat ++ leBytes 8 flag

/-- The four leading bits of FLAGS: TRAPPED, INHANDLER, ECALL, MCHK. -/
structure ImgFlags where
  trapped : Bool
  ecall : Bool
  mchk : Bool
deriving DecidableEq, Repr, Inhabited

def bit (b : Bool) (n : Nat) : Nat := if b then 2 ^ n else 0

/-- The listed results: those that no later writer has made stale (R151). -/
def listed (t : Thread) : List Out := t.out.filter (fun o => o.staleBy.isNone)

/-- The outstanding list of a saved thread (R151, R372): what was outstanding as it halted, where an eviction saves it at once what is outstanding
now; each with its target and whether it has landed. -/
def outList (t : Thread) : List (Nat × Dst × Bool) :=
  if t.halted then t.haltOuts.map (fun x => (x.1, x.2, !(listed t).any (fun o => decide (o.seq = x.1 ∧ o.dst = x.2))))
  else (listed t).map (fun o => (o.seq, o.dst, false))

/-- The bytes of a thread image (R371), with its outstanding list. DESIGN CHOICE: log entry 46. -/
def threadBytes (t : Thread) (slot : Nat) (f : ImgFlags) (cmds : List MCmd) (outs : List (Nat × Dst × Bool)) : List Byte :=
  let parked := match t.run with | .parked .ring _ => false | .parked _ _ => true | _ => false
  let head : List Nat := [
    bit f.trapped 56 + bit t.inHandler 57 + bit f.ecall 58 + bit f.mchk 59 + (if parked then 2 else 1) * 2 ^ 48 + 2 ^ 32 +
      imageLen t.allot cmds.length,
    t.prio * 2 ^ 56 + t.tid * 2 ^ 52 + slot * 2 ^ 48 + t.seg * 2 ^ 32 + t.pc,
    t.weight,
    cmds.length * 2 ^ 40 + t.gslot.getD 255 * 2 ^ 32 + t.kernel * 2 ^ 16 + t.domain,
    t.regs.fpc.toNat, t.slim.toNat, t.group, (outs.filter (fun o => !o.2.2)).length * 2 ^ 8 + outs.length]
  let body := head.flatMap (leBytes 8) ++ t.regs.nf.toList.flatMap (fun x => leBytes 2 x.toNat) ++
    leBytes 4 0xFFFFFFFF ++ (t.regs.p.toList.drop 1).flatMap (fun x => leBytes 4 x.toNat) ++ leBytes 16 0 ++
    (List.range 32).flatMap (fun i => leBytes 4 ((outs[i]?.map (fun o => outCode o.2.1 + bit o.2.2 31)).getD 0)) ++
    leBytes 8 0 ++ ((t.regs.g.toList.take t.allot.g).drop 1).flatMap (fun x => leBytes 8 x.toNat) ++
    (t.regs.v.toList.take t.allot.v).flatMap (fun x => leBytes 128 x.toNat) ++
    (t.regs.t.toList.take t.allot.a).flatMap (fun x => leBytes 1024 x.toNat) ++ cmds.flatMap cmdBytes
  body ++ leBytes (imageLen t.allot cmds.length - body.length) 0

/-- A remote command's counted arrival (R309, R311). -/
def remoteArrival (s : State) (w : Who) (block flag : Dword) (inc : Bool) (no : Nat) : State :=
  if flag = 0 then s
  else sendArrival s { id := 0, who := w, kind := 0x12, flag := flag, inc := inc, share := 0, domain := 0, addr := block, tag := 0, stage := .sent, no := some no }

/-- The result of a local command is no longer outstanding (R147). -/
def dropTileOut (t : Thread) (m : MCmd) : Thread :=
  if m.remote.isSome then t
  else { t with out := t.out.filter (fun o => !(decide (o.seq = m.seq) && (match o.dst with | .t r => decide (r.val = m.tile) | _ => false))) }

/-- A tile of a thread written: in its registers and in what later accesses would roll back to (R292, R410). -/
def landTile (t : Thread) (i : Nat) (x : Tile) : Thread :=
  let put := fun (r : Regs) => { r with t := r.t.setIfInBounds i x }
  { t with regs := put t.regs, acc := t.acc.map (fun a => { a with ck := put a.ck }) }

/-- A started command completes: its tile is written, its result no longer outstanding, a remote one makes its arrival (R292, R310). -/
def completeTile (s : State) (c : CoreId) (m : MCmd) : State :=
  let s1 := modT s c m.slot (fun t => dropTileOut (landTile t m.tile (m.res.getD 0)) m)
  match m.remote with
  | some (block, flag) => remoteArrival s1 m.who block flag false m.seq
  | none => s1

/-- Every started command of a slot completes: a halt does not stop it (R293). DEDUCED: log entry 39. -/
def completeStarted (s : State) (c : CoreId) (slot : Nat) : State :=
  let mine := fun (m : MCmd) => m.started && decide (m.slot = slot)
  let l := (getCore s c).mq.filter mine
  l.foldl (fun s m => completeTile s c m) (modCore s c (fun k => { k with mq := k.mq.filter (fun m => !mine m) }))

/-- Where the withdrawn commands stand in a thread image (R371). -/
def cmdsAt (al : Allot) (a : Nat) : Nat := a + 0x100 + 8 * al.g + 128 * al.v + 1024 * al.a

/-- The commands kept for an image are no longer wanted. -/
def dropCmds (s : State) (al : Allot) (a : Nat) : State :=
  { s with cmds := s.cmds.filter (fun x => !(decide (cmdsAt al a ≤ x.1) && decide (x.1 < cmdsAt al a + 256))) }

/-- A thread saved (R371): its image is written, its withdrawn commands with it; its outstanding results and its accesses that no home has accepted
follow it (R148, R372), those that read a port with their words still at the head of the queue (R62). -/
def saveThread (s0 : State) (c : CoreId) (slot : Nat) (f : ImgFlags) (a : Nat) : State × Nat :=
  let s := completeStarted s0 c slot
  match getT s c slot with
  | none => (s, 0)
  | some t0 =>
    let k := getCore s c
    let mine := fun (m : MCmd) => decide (m.slot = slot)
    let cmds := k.mq.filter mine
    let isDrain := fun (m : MCmd) => match m.op with | .drain _ _ _ _ _ _ => true | _ => false
    let withdrawn := fun (o : Out) => match o.dst with
      | .t r => cmds.any (fun m => !isDrain m && decide (m.tile = r.val) && decide (m.seq = o.seq) && m.remote.isNone)
      | _ => false
    let kept := fun (x : Nat × Dst) => !t0.out.any (fun o => decide (o.seq = x.1 ∧ o.dst = x.2) && withdrawn o)
    let t := { t0 with out := t0.out.filter (fun o => !withdrawn o), haltOuts := t0.haltOuts.filter kept }
    let outs := outList t
    let bs := threadBytes t slot f cmds outs
    let s1 := writeBytes (dropCmds s t.allot a) none a bs
    let s2 := modCore s1 c (fun k => { k with mq := k.mq.filter (fun m => !mine m) })
    let entryOf := fun (o : Out) => if o.staleBy.isNone then some (outs.findIdx (fun x => decide (x.1 = o.seq ∧ x.2.1 = o.dst))) else none
    let shootOf := fun (o : Out) => (s.shoots.find? (fun x => decide (x.who.core = c ∧ x.slot = slot ∧ x.seq = o.seq))).map (fun x => x.id)
    let late := t.out.map (fun o => ({ img := a, entry := entryOf o, allot := t.allot, out := o, shoot := shootOf o, core := c } : Late))
    let accs := t.acc.map (fun x => ({ img := a, who := whoOf c t, slot := slot, allot := t.allot, acc := x } : LateAcc))
    (vacate { s2 with lates := s2.lates ++ late, lateAccs := s2.lateAccs ++ accs
                      cmds := s2.cmds ++ cmds.mapIdx (fun i m => (cmdsAt t.allot a + 32 * i, m)) } c slot a, bs.length)

/-- Where a register's value stands in a thread image (R371, R372). -/
def regAt (al : Allot) (d : Dst) : Nat :=
  match d with
  | .g r => 0x100 + 8 * r.val
  | .v r => 0x100 + 8 * al.g + 128 * r.val
  | .t r => 0x100 + 8 * al.g + 128 * al.v + 1024 * r.val
  | .p r => 0x50 + 4 * r.val

/-- A command of an image as its bytes give it (R371), where the image is not the one that the LX9 wrote there. DESIGN CHOICE: log entry 83. -/
def parseCmd (s : State) (a : Nat) (w : Who) (slot : Nat) : MCmd :=
  let key := readNat s none a 4
  let major := readNat s none (a + 4) 1
  let func := readNat s none (a + 5) 1
  let md := readNat s none (a + 6) 1
  let tl := readNat s none (a + 7) 1
  let da := dw (readNat s none (a + 8) 8)
  let db := dw (readNat s none (a + 16) 8)
  let flag := dw (readNat s none (a + 24) 8)
  let op : MOp := match major with
    | 4 => if func = 0 then .zero else .load
    | 5 => .drain (func % 4) (decide (func / 4 % 2 = 1)) (decide (func / 8 % 2 = 1)) md da db
    | 10 => if func = 0 then .ring md else .ringRecv
    | 11 => .pass
    | _ => .product major func md
  let rem := decide (128 ≤ tl)
  { who := if rem then { w with core := { w.core with n := key % 2 ^ 13 } } else w, slot := slot, seq := 0,
    remote := if rem then some (0, flag) else none, tile := if major = 10 ∨ major = 11 then 8 else tl % 8, op := op, da := da, db := db,
    nfA := BitVec.ofNat 16 key, nfB := BitVec.ofNat 16 (key / 2 ^ 16), started := false, res := none }

/-- A command of an image (R371): the one that was withdrawn, where the image still holds it. A local one is its thread's, wherever that is now. -/
def readCmd (s : State) (a : Nat) (w : Who) (slot : Nat) : MCmd :=
  match s.cmds.find? (fun x => decide (x.1 = a) && decide (cmdBytes x.2 = readBytes s none a 32)) with
  | some x => { x.2 with slot := slot, who := if x.2.remote.isSome then x.2.who else { x.2.who with core := w.core, gslot := w.gslot, crew := w.crew } }
  | none => parseCmd s a w slot

/-- A thread image read back (R375): the thread, READY or PARKED at its PC as its STATE says (R39, R262), its slot and its withdrawn commands. G, V and A are the grid's. -/
def readThread (s : State) (c : CoreId) (al : Allot) (net : Bool) (pid asid : Nat) (crew : Nat) (a : Nat) : Thread × Nat × List MCmd :=
  let d := fun i => readNat s none (a + 8 * i) 8
  let g := (List.range 64).map (fun i => if i = 0 ∨ al.g ≤ i then (0 : Dword) else dw (readNat s none (a + 0x100 + 8 * i) 8))
  let v := (List.range 32).map (fun i => if al.v ≤ i then (0 : Vec) else BitVec.ofNat 1024 (readNat s none (a + 0x100 + 8 * al.g + 128 * i) 128))
  let tl := (List.range 8).map (fun i => if al.a ≤ i then (0 : Tile) else BitVec.ofNat 8192 (readNat s none (a + 0x100 + 8 * al.g + 128 * al.v + 1024 * i) 1024))
  let p := (List.range 8).map (fun i => if i = 0 then (0 : Word) else BitVec.ofNat 32 (readNat s none (a + 0x50 + 4 * i) 4))
  let nf := (List.range 8).map (fun i => BitVec.ofNat 16 (readNat s none (a + 0x40 + 2 * i) 2) &&& 0xFFFC#16)
  let gs := d 3 / 2 ^ 32 % 256
  let t : Thread := {
    regs := { g := Vector.ofFn (fun i => g.getD i.val 0), v := Vector.ofFn (fun i => v.getD i.val 0), p := Vector.ofFn (fun i => p.getD i.val 0),
              nf := Vector.ofFn (fun i => nf.getD i.val 0), t := Vector.ofFn (fun i => tl.getD i.val 0), fpc := dw (d 4) &&& 0xFB#64 }
    allot := al, net := net, pc := d 1 % 2 ^ 17, seg := d 1 / 2 ^ 32 % 2 ^ 16, pid := pid, asid := asid, gslot := some gs,
    kernel := d 3 / 2 ^ 16 % 2 ^ 16, domain := d 3 % 2 ^ 16, weight := d 2, group := d 6, tid := d 1 / 2 ^ 52 % 16, crew := crew,
    prio := d 1 / 2 ^ 56 % 4, slim := dw (d 5), inHandler := decide (d 0 / 2 ^ 57 % 2 = 1),
    run := if d 0 / 2 ^ 48 % 2 ^ 8 = 2 then .parked .restored false else .ready, marker := false, seq := 0,
    out := [], acc := [], trap := none, woken := none, halted := false, haltOuts := [], claims := [], parkedAt := s.clock }
  let ncmd := d 3 / 2 ^ 40 % 2 ^ 8
  let slot := d 1 / 2 ^ 48 % 16
  (t, slot, (List.range ncmd).map (fun i => readCmd s (cmdsAt al a + 32 * i) (whoOf c t) slot))

/-! ## Crew images (R373) -/

/-- The four inbound queues of 8 words, then their counts. DESIGN CHOICE: log entry 46. -/
def netqBytes (k : Core) : List Byte :=
  let qs := k.nq.toList
  qs.flatMap (fun q => (List.range 8).flatMap (fun i => leBytes 4 ((q[i]?.getD 0)).toNat)) ++ qs.flatMap (fun q => leBytes 8 q.length) ++ leBytes 32 0

/-- DESIGN CHOICE: log entry 46. -/
def latchData (l : Option Latch) : List Byte :=
  let b := match l with | some x => x.bytes | none => []
  b.take 1664 ++ List.replicate (1664 - b.length) 0

/-- DESIGN CHOICE: log entry 46. -/
def latchState (l : Option Latch) : List Byte :=
  match l with
  | some x => leBytes 8 1 ++ leBytes 8 x.size ++ leBytes 8 (match x.desc with | some d => 2 ^ 16 + d.toNat | none => 0) ++ leBytes 8 0
  | none => leBytes 32 0

def recBytes (r : Rec) : List Byte := leBytes 8 r.d0.toNat ++ leBytes 8 r.d1.toNat ++ leBytes 8 r.d2.toNat ++ leBytes 8 r.d3.toNat

/-- The bits of consecutive lines, one each, packed from bit 0 upward. -/
def packBits : List Bool → List Byte
  | b0 :: b1 :: b2 :: b3 :: b4 :: b5 :: b6 :: b7 :: l =>
    BitVec.ofNat 8 (bit b0 0 + bit b1 1 + bit b2 2 + bit b3 3 + bit b4 4 + bit b5 5 + bit b6 6 + bit b7 7) :: packBits l
  | [] => []
  | l => [BitVec.ofNat 8 ((List.range 8).foldl (fun a i => a + bit (l.getD i false) i) 0)]

/-- The parts of a core's scratchpad that a crew has: its data region, then the stacks of its slots, as (physical address, size). DESIGN CHOICE: log entry 46. -/
def crewParts (c : CoreId) (h : Header) (crew : Nat) (slots : List Nat) : List (Nat × Nat) :=
  let b := c.pkg * 2 ^ 48 + spadBase c.n
  (b + crew * h.spad, h.spad) :: slots.map (fun x => (b + 2 ^ 19 - (x + 1) * h.stack, h.stack))

/-- The fixed sections of a crew image: their lengths, and where the line bits and data stand. DESIGN CHOICE: log entry 46. -/
def crewHead (h : Header) (nslots ninbox : Nat) (netq latch : Bool) : Nat × Nat :=
  let fixed := 64 + (if netq then 192 else 0) + (if latch then 3392 else 0) + 32 * ninbox
  (fixed, fixed + roundUp ((h.spad + nslots * h.stack) / 1024 + (if (h.spad + nslots * h.stack) % 1024 = 0 then 0 else 1)) 8)

/-- The slots whose threads belong to a crew of a grid. -/
def crewSlots (k : Core) (g crew : Nat) : List Nat :=
  (List.range 16).filter (fun i => match (k.slots[i]?).join with
    | some t => decide (t.gslot = some g ∧ t.crew = crew)
    | none => false)

/-- Bytes that a crew's images would take. -/
def crewLen (s : State) (c : CoreId) (g crew : Nat) (h : Header) (home : List Nat) : Nat :=
  let k := getCore s c
  let slots := crewSlots k g crew
  let recs := (k.inbox ++ k.heldRecs).filter (fun r => decide (r.crew = crew))
  let hd := crewHead h home.length recs.length (h.net && decide (crew = 0)) (decide (crew = 0) && (k.latCur.isSome || k.latInc.isSome))
  roundUp (hd.2 + h.spad + home.length * h.stack) 64 +
    slots.foldl (fun n sl => n + imageLen { g := h.g, v := h.v, a := h.a } (k.mq.filter (fun m => decide (m.slot = sl) && !m.started)).length) 0

/-! ## Allocation in the eviction pool (R377) -/

/-- The live allocations of a partition's eviction pool. -/
def poolAllocs (s : State) (p pid : Nat) : List (Nat × Nat) :=
  let k := getPkg s p
  (k.trapImgs.filter (fun t => decide (t.pid = pid))).filterMap (fun t => t.alloc) ++
    k.grids.toList.flatMap (fun o => match o with
      | some g => if g.pid = pid then g.groups.filterMap (fun x => x.alloc) else []
      | none => [])

/-- The lowest offset, a multiple of m, at which len bytes fit below `size` without overlapping a live allocation: 0 or the end of
an allocation. DESIGN CHOICE: log entry 50. -/
def lowestFit (allocs : List (Nat × Nat)) (len size m : Nat) : Option Nat :=
  let cands := 0 :: allocs.map (fun a => roundUp (a.1 + a.2) m)
  let ok := cands.filter (fun o => decide (o + len ≤ size) && allocs.all (fun a => decide (o + len ≤ a.1) || decide (a.1 + a.2 ≤ o)))
  ok.foldl (fun b o => match b with
    | none => some o
    | some x => some (Nat.min x o)) none

/-- DESIGN CHOICE: log entry 50. -/
def poolFit (s : State) (p pid len : Nat) : Option Nat :=
  let base := fld (block s p pid).imgpool 47 6 * 64
  if devOk s p pid base && devOk s p pid (base + (block s p pid).imgsize.toNat - 1) then lowestFit (poolAllocs s p pid) len (block s p pid).imgsize.toNat 64
  else none

/-- The physical base of the eviction pool. -/
def poolPhys (s : State) (p pid : Nat) : Nat := devPhys p (fld (block s p pid).imgpool 47 6 * 64)

end Sys2Proof.Machine
end

