-- ==== Sys2Proof/Machine/Fp.lean ====
section
/-!
DEFINITION. Number formats, exact values and the rounding helpers of spec/04_number_formats.md (R113 to R138): decoding,
RoundFP and RoundFPSat, comparison, conversion, and the arithmetic of R127. Values are exact: a sign, an integer and a power
of two, with a mark where the value lies strictly above that magnitude and below the next integer (a quotient, a root or a
transcendental value, which no format holds exactly). Every function here is total and never reads the machine.
-/
namespace Sys2Proof.Machine

/-- Special values of a format (R113, R119). -/
inductive Spec where
  | none | nanOnly | infNan
deriving DecidableEq, Repr, Inhabited

/-- The attributes of a format (R113, R114, R120, R129). `ieee` marks the four formats of R113, whose NaN may be signalling. -/
structure Fmt where
  width : Nat
  signed : Bool
  ew : Nat
  mw : Nat
  bias : Int
  spec : Spec
  ieee : Bool
deriving DecidableEq, Repr, Inhabited

def fp64 : Fmt := { width := 64, signed := true, ew := 11, mw := 52, bias := 1023, spec := .infNan, ieee := true }
def fp32 : Fmt := { width := 32, signed := true, ew := 8, mw := 23, bias := 127, spec := .infNan, ieee := true }
def fp16 : Fmt := { width := 16, signed := true, ew := 5, mw := 10, bias := 15, spec := .infNan, ieee := true }
def bf16 : Fmt := { width := 16, signed := true, ew := 8, mw := 7, bias := 127, spec := .infNan, ieee := true }

/-- The format that MOD names (R183). -/
def fmtOf : FFmt → Fmt
  | .f32 => fp32 | .f64 => fp64 | .f16 => fp16 | .bf16 => bf16

/-- F.emin of R129. -/
def Fmt.emin (f : Fmt) : Int := 1 - f.bias

/-- The code of greatest finite magnitude, without its sign: magnitude codes rise with the magnitudes they name (R114, R120). -/
def Fmt.maxCode (f : Fmt) : Nat :=
  match f.spec with
  | .none => 2 ^ (f.ew + f.mw) - 1
  | .nanOnly => 2 ^ (f.ew + f.mw) - 2
  | .infNan => (2 ^ f.ew - 1) * 2 ^ f.mw - 1

/-- The code with a sign bit (R120). -/
def Fmt.withSign (f : Fmt) (neg : Bool) (mag : Nat) : Nat := if neg && f.signed then 2 ^ (f.width - 1) + mag else mag

/-- The code of an infinity, in a format that has one. -/
def Fmt.infCode (f : Fmt) (neg : Bool) : Nat := f.withSign neg ((2 ^ f.ew - 1) * 2 ^ f.mw)

/-- CanonNaN (R113, R114, R120). -/
def Fmt.canonNaN (f : Fmt) : Nat :=
  match f.spec with
  | .nanOnly => 2 ^ (f.ew + f.mw) - 1
  | _ => (2 ^ f.ew - 1) * 2 ^ f.mw + 2 ^ (f.mw - 1)

/-- The largest exponent of a finite normal code, less the bias (R114, R133); a free value where the format has none. DESIGN CHOICE: log entry 10. -/
def Fmt.emaxnorm (f : Fmt) : Int :=
  if f.maxCode / 2 ^ f.mw = 0 then Config.noNormalEmax f.ew f.mw f.bias else (f.maxCode / 2 ^ f.mw : Nat) - f.bias

/-- An exact value (R129). `fin neg m e st` has the sign `neg` and the magnitude m * 2^e where `st` is false; where it is true the
magnitude lies strictly between m * 2^e and (m + 1) * 2^e. -/
inductive FVal where
  | nan (signalling neg : Bool)
  | inf (neg : Bool)
  | fin (neg : Bool) (m : Nat) (e : Int) (st : Bool)
deriving DecidableEq, Repr, Inhabited

def FVal.isNaN : FVal → Bool
  | .nan _ _ => true | _ => false
def FVal.isSNaN : FVal → Bool
  | .nan s _ => s | _ => false
def FVal.isInf : FVal → Bool
  | .inf _ => true | _ => false
def FVal.isZero : FVal → Bool
  | .fin _ m _ st => m == 0 && !st | _ => false
def FVal.neg : FVal → Bool
  | .nan _ n => n | .inf n => n | .fin n _ _ _ => n
/-- The value with its sign inverted. -/
def FVal.flip : FVal → FVal
  | .nan s n => .nan s !n | .inf n => .inf !n | .fin n m e st => .fin (!n) m e st
/-- The magnitude. -/
def FVal.abs : FVal → FVal
  | .nan s _ => .nan s false | .inf _ => .inf false | .fin _ m e st => .fin false m e st

/-- The exact value of an integer. -/
def FVal.ofInt (k : Int) : FVal := .fin (decide (k < 0)) k.natAbs 0 false

/-- Decode of R129: the exact value, infinity or NaN of a code (R113, R120). -/
def decodeFp (f : Fmt) (b : Nat) : FVal :=
  let neg := f.signed && b / 2 ^ (f.width - 1) % 2 == 1
  let ex := b / 2 ^ f.mw % 2 ^ f.ew
  let man := b % 2 ^ f.mw
  let top := ex == 2 ^ f.ew - 1
  if f.spec == .nanOnly && top && man == 2 ^ f.mw - 1 then .nan false neg
  else if f.spec == .infNan && top then
    if man == 0 then .inf neg else .nan (f.ieee && man < 2 ^ (f.mw - 1)) neg
  else if ex == 0 then .fin neg man (f.emin - f.mw) false
  else .fin neg (2 ^ f.mw + man) (ex - f.bias - f.mw) false

/-- ⌊log2⌋ of the magnitude m * 2^e of a nonzero value. -/
def flog (m : Nat) (e : Int) : Int := (Nat.log2 m : Int) + e

/-- RoundInt of R130 on the magnitude m * 2^e (with its mark): the rounded integer and whether it is inexact. -/
def roundMag (rm : Rm) (neg : Bool) (m : Nat) (e : Int) (st : Bool) : Nat × Bool :=
  let k := if 0 ≤ e then m * 2 ^ e.toNat else m / 2 ^ (-e).toNat
  let rem := if 0 ≤ e then 0 else m % 2 ^ (-e).toNat
  let half := if 0 ≤ e then 1 else 2 ^ ((-e).toNat - 1)
  let inexact := rem != 0 || st
  let up := match rm with
    | .rne => if 0 ≤ e then false else decide (half < rem) || (rem == half && (st || k % 2 == 1))
    | .rtz => false
    | .rdn => neg && inexact
    | .rup => !neg && inexact
  (if up then k + 1 else k, inexact)

/-- RoundFP, and RoundFPSat where `sat` is set (R129). -/
def roundFP (f : Fmt) (rm : Rm) (sat : Bool) (x : FVal) : Nat × Flags :=
  match x with
  | .nan s neg =>
    let fl : Flags := { nv := s || f.spec == .none }
    if f.spec != .none then (f.canonNaN, fl) else (f.withSign neg f.maxCode, fl)
  | .inf neg =>
    if !f.signed && neg then (0, { nv := true })
    else if f.spec == .infNan then (f.infCode neg, {})
    else (f.withSign neg f.maxCode, { of := true })
  | .fin neg m e st =>
    if !f.signed && neg then (0, { nv := m != 0 || st })
    else if m == 0 && !st then (f.withSign neg 0, {})
    else
      let lg := flog m e
      let ex := max lg f.emin
      let r := roundMag rm neg m (e - (ex - f.mw)) st
      let code := (ex - f.emin).toNat * 2 ^ f.mw + r.1
      if f.maxCode < code then
        let toInf := match rm with | .rne => true | .rup => !neg | .rdn => neg | .rtz => false
        if sat then (f.withSign neg f.maxCode, { nx := true })
        else if f.spec == .infNan && toInf then (f.infCode neg, { of := true, nx := true })
        else (f.withSign neg f.maxCode, { of := true, nx := true })
      else (f.withSign neg code, { nx := r.2, uf := r.2 && decide (lg < f.emin) })

/-- The signed integer n with value n * 2^e of a finite magnitude brought to the exponent e. -/
def alignTo (neg : Bool) (m : Nat) (e0 e : Int) : Int :=
  let v : Int := m * 2 ^ (e0 - e).toNat
  if neg then -v else v

/-- Exact sum of two values (R127): the zero rule and ∞ − ∞ included. -/
def addVal (rm : Rm) (x y : FVal) : FVal × Flags :=
  let nv : Flags := { nv := x.isSNaN || y.isSNaN }
  match x, y with
  | .nan _ _, _ => (.nan false false, nv)
  | _, .nan _ _ => (.nan false false, nv)
  | .inf a, .inf b => if a == b then (.inf a, {}) else (.nan false false, { nv := true })
  | .inf a, _ => (.inf a, {})
  | _, .inf b => (.inf b, {})
  | .fin a m e _, .fin b n g _ =>
    let h := min e g
    let s := alignTo a m e h + alignTo b n g h
    if s == 0 then (.fin (if a == b then a else rm == .rdn) 0 0 false, {})
    else (.fin (decide (s < 0)) s.natAbs h false, {})

/-- Exact product of two values (R127). -/
def mulVal (x y : FVal) : FVal × Flags :=
  let nv : Flags := { nv := x.isSNaN || y.isSNaN }
  match x, y with
  | .nan _ _, _ => (.nan false false, nv)
  | _, .nan _ _ => (.nan false false, nv)
  | .inf a, b => if b.isZero then (.nan false false, { nv := true }) else (.inf (a != b.neg), {})
  | a, .inf b => if a.isZero then (.nan false false, { nv := true }) else (.inf (a.neg != b), {})
  | .fin a m e _, .fin b n g _ => (.fin (a != b) (m * n) (e + g) false, {})

/-- Exact x * y + z (R127): the product's invalid case is reported whatever z is. -/
def fmaVal (rm : Rm) (x y z : FVal) : FVal × Flags :=
  let p := mulVal x y
  let s := addVal rm p.1 z
  (s.1, p.2.or s.2)

/-- x / y, with 130 bits beyond the divisor's length and the mark (R127). -/
def divVal (x y : FVal) : FVal × Flags :=
  let nv : Flags := { nv := x.isSNaN || y.isSNaN }
  match x, y with
  | .nan _ _, _ => (.nan false false, nv)
  | _, .nan _ _ => (.nan false false, nv)
  | .inf _, .inf _ => (.nan false false, { nv := true })
  | .inf a, b => (.inf (a != b.neg), {})
  | a, .inf b => (.fin (a.neg != b) 0 0 false, {})
  | .fin a m e _, .fin b n g _ =>
    if n == 0 then
      if m == 0 then (.nan false false, { nv := true }) else (.inf (a != b), { dz := true })
    else
      let k := 130 + Nat.log2 n
      (.fin (a != b) (m * 2 ^ k / n) (e - g - k) (m * 2 ^ k % n != 0), {})

/-- ⌊√n⌋ bit by bit: `r` so far, with `k` bits still to try. -/
def isqrtBits (n : Nat) : Nat → Nat → Nat
  | 0, r => r
  | k + 1, r =>
    let t := r + 2 ^ k
    isqrtBits n k (if t * t ≤ n then t else r)

/-- ⌊√n⌋. -/
def isqrt (n : Nat) : Nat := isqrtBits n (Nat.log2 n / 2 + 1) 0

/-- √x with at least 130 bits and the mark (R127). -/
def sqrtVal (x : FVal) : FVal × Flags :=
  match x with
  | .nan s _ => (.nan false false, { nv := s })
  | .inf a => if a then (.nan false false, { nv := true }) else (.inf false, {})
  | .fin a m e _ =>
    if m == 0 then (.fin a 0 0 false, {})
    else if a then (.nan false false, { nv := true })
    else
      let k := 260 + (e % 2).toNat
      let r := isqrt (m * 2 ^ k)
      (.fin false r ((e - k) / 2) (r * r != m * 2 ^ k), {})

/-- One rounding of an exact value with the flags of both (R127). -/
def roundOf (f : Fmt) (rm : Rm) (v : FVal × Flags) : Nat × Flags :=
  let r := roundFP f rm false v.1
  (r.1, v.2.or r.2)

/-- The operations with two or three operands of R184 and R185. -/
inductive FpOp where
  | add | sub | mul | fma | fms | fnma
deriving DecidableEq, Repr, Inhabited

/-- RoundFP of the exact result of an operation on codes of one format (R127, R185). -/
def fpArith (op : FpOp) (f : Fmt) (rm : Rm) (x y z : Nat) : Nat × Flags :=
  let a := decodeFp f x
  let b := decodeFp f y
  let c := decodeFp f z
  roundOf f rm (match op with
    | .add => addVal rm a b
    | .sub => addVal rm a b.flip
    | .mul => mulVal a b
    | .fma => fmaVal rm a b c
    | .fms => fmaVal rm a b c.flip
    | .fnma => fmaVal rm a.flip b c)

def fpDiv (f : Fmt) (rm : Rm) (x y : Nat) : Nat × Flags := roundOf f rm (divVal (decodeFp f x) (decodeFp f y))
def fpSqrt (f : Fmt) (rm : Rm) (x : Nat) : Nat × Flags := roundOf f rm (sqrtVal (decodeFp f x))

/-- Order of two values that are not NaN: −1, 0 or 1; −0 and +0 are equal. -/
def cmpVal (x y : FVal) : Int :=
  let key : FVal → Int := fun v => match v with | .inf n => if n then -1 else 1 | _ => 0
  if x.isInf || y.isInf then
    if key x < key y then -1 else if key y < key x then 1 else 0
  else match x, y with
    | .fin a m e _, .fin b n g _ =>
      let h := min e g
      let p := alignTo a m e h
      let q := alignTo b n g h
      if p < q then -1 else if q < p then 1 else 0
    | _, _ => 0

/-- The comparisons of R188. -/
inductive FCmp where
  | eq | lt | le | un
deriving DecidableEq, Repr, Inhabited

/-- Comparison by R128: a quiet NaN sets NV only in the ordered comparisons. -/
def fpCompare (op : FCmp) (f : Fmt) (x y : Nat) : Bool × Flags :=
  let a := decodeFp f x
  let b := decodeFp f y
  let nan := a.isNaN || b.isNaN
  let snan := a.isSNaN || b.isSNaN
  match op with
  | .eq => (!nan && cmpVal a b == 0, { nv := snan })
  | .lt => (!nan && decide (cmpVal a b < 0), { nv := nan })
  | .le => (!nan && decide (cmpVal a b ≤ 0), { nv := nan })
  | .un => (nan, { nv := snan })

/-- Minimum (or maximum) of R128: −0 below +0, a single NaN is passed over. -/
def fpMinMax (mx : Bool) (f : Fmt) (x y : Nat) : Nat × Flags :=
  let a := decodeFp f x
  let b := decodeFp f y
  let fl : Flags := { nv := a.isSNaN || b.isSNaN }
  if a.isNaN && b.isNaN then (f.canonNaN, fl)
  else if a.isNaN then (y, fl)
  else if b.isNaN then (x, fl)
  else
    let c := cmpVal a b
    let less := decide (c < 0) || (c == 0 && a.neg && !b.neg)
    (if less != mx then x else y, fl)

/-- `fclass` of R188: one of ten bits. -/
def fpClass (f : Fmt) (x : Nat) : Nat :=
  match decodeFp f x with
  | .nan s _ => if s then 256 else 512
  | .inf n => if n then 1 else 128
  | .fin n m e _ =>
    if m == 0 then (if n then 8 else 16)
    else if flog m e < f.emin then (if n then 4 else 32)
    else (if n then 2 else 64)

/-- The sign bit cleared or inverted; nothing else changes (R187). -/
def fpAbs (f : Fmt) (x : Nat) : Nat := x % 2 ^ (f.width - 1)
def fpNeg (f : Fmt) (x : Nat) : Nat := x % 2 ^ (f.width - 1) + (1 - x / 2 ^ (f.width - 1) % 2) * 2 ^ (f.width - 1)

/-- Sat of R130. -/
def satInt (k lo hi : Int) : Int := if k < lo then lo else if hi < k then hi else k

/-- RoundInt of R130 of an exact finite value. -/
def roundInt (rm : Rm) (x : FVal) : Int × Bool :=
  match x with
  | .fin neg m e st => let r := roundMag rm neg m e st; (if neg then -(r.1 : Int) else r.1, r.2)
  | _ => (0, false)

/-- ConvToInt of R131. -/
def convToInt (x : FVal) (n : Nat) (signed : Bool) (rm : Rm) : Int × Flags :=
  let lo : Int := if signed then -2 ^ (n - 1) else 0
  let hi : Int := if signed then 2 ^ (n - 1) - 1 else 2 ^ n - 1
  match x with
  | .nan _ _ => (0, { nv := true })
  | .inf neg => (if neg then lo else hi, { nv := true })
  | .fin neg m e st =>
    let r := roundInt rm (.fin neg m e st)
    if r.1 < lo || hi < r.1 then (satInt r.1 lo hi, { nv := true }) else (r.1, { nx := r.2 })

/-- Conversion between formats from the exact source value (R132). -/
def fpConvert (src dst : Fmt) (rm : Rm) (sat : Bool) (x : Nat) : Nat × Flags := roundFP dst rm sat (decodeFp src x)

/-- The exact value of a finite code scaled by a power of two. -/
def FVal.scale (v : FVal) (k : Int) : FVal :=
  match v with
  | .fin n m e st => .fin n m (e + k) st
  | w => w

/-! Narrow-format registers (R119 to R121). -/

/-- The format that a 16-bit descriptor names, or none where it is invalid (R121). -/
def nfFmt (d : Half) : Option Fmt :=
  let n := d.toNat
  let w := n / 16384
  let s := n / 8192 % 2
  let ew := n / 1024 % 8
  let spec := n / 4 % 4
  let width := if w = 0 then 4 else if w = 1 then 6 else 8
  if w = 3 || spec = 3 || decide (width - s < ew) then none
  else
    let mw := width - s - ew
    if (spec = 1 && ew = 0) || (spec = 2 && (ew = 0 || mw = 0)) then none
    else some { width := width, signed := s = 1, ew := ew, mw := mw, bias := (n / 16 % 64 : Nat)
                spec := if spec = 0 then .none else if spec = 1 then .nanOnly else .infNan, ieee := false }

/-- The presets of R122. -/
def nfPresets : List Half := [0xB074, 0xB4F8, 0x6810, 0x6C30, 0x2810, 0, 0, 0]

/-! Block scaling (R115, R133). -/

/-- ⌊log2⌋ of the largest magnitude of finite values, none where all are zero. -/
def maxLog : List FVal → Option Int
  | [] => none
  | .fin _ m e _ :: vs =>
    if m == 0 then maxLog vs
    else match maxLog vs with | none => some (flog m e) | some l => some (max (flog m e) l)
  | _ :: vs => maxLog vs

/-- The scale part of MXPack (R133): the code X with NV or OF. -/
def mxScale (f : Fmt) (vs : List FVal) : Nat × Flags :=
  if vs.any FVal.isNaN then (255, { nv := true })
  else if vs.any FVal.isInf then (255, { of := true })
  else match maxLog vs with
    | none => (127, {})
    | some l => ((satInt (l - f.emaxnorm) (-127) 127 + 127).toNat, {})

/-- The code of an element under scale X (R133, R282). -/
def mxElem (f : Fmt) (rm : Rm) (x : Nat) (v : FVal) : Nat × Flags :=
  if x = 255 then (0, {}) else roundFP f rm true (v.scale (127 - x))

/-- OR of the flags of a list of results. -/
def flagsOf (rs : List (Nat × Flags)) : Flags := rs.foldl (fun a r => a.or r.2) {}

/-- MXPack of R133: the scale, the element codes and the flags. -/
def mxPack (f : Fmt) (rm : Rm) (vs : List FVal) : Nat × List Nat × Flags :=
  let s := mxScale f vs
  let es := vs.map (mxElem f rm s.1)
  (s.1, es.map Prod.fst, s.2.or (flagsOf es))

/-- The value of a block element under scale X (R115). -/
def mxVal (f : Fmt) (x e : Nat) : FVal := if x = 255 then .nan false false else (decodeFp f e).scale (x - 127)

/-! Matrix sums (R134, R135). -/

/-- A product term of the matrix unit: NaN covers 0 * ∞ (R134). -/
def mulTerm (x y : FVal) : FVal := (mulVal x y).1

/-- A zero with a positive sign. -/
def plusZero : FVal := .fin false 0 0 false

/-- Sum of the terms cut to a window and whether anything was cut (Align48 of R134). -/
def align48 (emax : Int) : List FVal → Int × Bool
  | [] => (0, false)
  | .fin n m e _ :: ts =>
    let r := align48 emax ts
    let sh := e - (emax - 48)
    let a : Nat := if 0 ≤ sh then m * 2 ^ sh.toNat else m / 2 ^ (-sh).toNat
    let cut := if 0 ≤ sh then false else m % 2 ^ (-sh).toNat != 0
    ((if n then -(a : Int) else a) + r.1, cut || r.2)
  | _ :: ts => align48 emax ts

/-- MatSum of R134: the FP32 code of the sum of the terms. -/
def matSum (ts : List FVal) : Nat :=
  let pinf := ts.any (fun t => t == .inf false)
  let ninf := ts.any (fun t => t == .inf true)
  if ts.any FVal.isNaN || (pinf && ninf) then 0x7FC00000
  else if pinf then 0x7F800000
  else if ninf then 0xFF800000
  else match maxLog ts with
    | none => if ts.all FVal.neg then 0x80000000 else 0
    | some emax =>
      let r := align48 emax ts
      if r.1 = 0 then 0
      else
        let s4 : Int := r.1 * 4 + (if r.2 then (if r.1 < 0 then -1 else 1) else 0)
        (roundFP fp32 .rne false (.fin (decide (s4 < 0)) s4.natAbs (emax - 50) false)).1

/-! Transcendental values (R192): fixed-point evaluation to 320 bits, then a magnitude with its mark. -/

/-- ⌊ln 2 · 2^320⌋. -/
def ln2Fix : Nat := 0xb17217f7d1cf79abc9e3b39803f2f6af40f343267298b62d8a0d175b8baafa2be7b876206debac98
/-- ⌊π · 2^320⌋. -/
def piFix : Nat := 0x3243f6a8885a308d313198a2e03707344a4093822299f31d0082efa98ec4e6c89452821e638d01377

/-- One in the fixed-point form. -/
def oneFix : Nat := 2 ^ 320
/-- A bound on the error of the series below, in units of the last place. -/
def guardFix : Nat := 2 ^ 14

/-- Σ y^k / k! from term k on; `t` is the term at k. -/
def expSeries (y : Nat) : Nat → Nat → Nat → Nat
  | 0, _, _ => 0
  | fuel + 1, k, t => t + expSeries y fuel (k + 1) (t * y / oneFix / (k + 1))

/-- 2^f for f in [0, 1) in fixed point. -/
def exp2Fix (f : Nat) : Nat := expSeries (f * ln2Fix / oneFix) 90 0 oneFix

/-- Σ u^(2j+1) / (2j+1); `p` is the power at 2j+1. -/
def atanhSeries (u2 : Nat) : Nat → Nat → Nat → Nat
  | 0, _, _ => 0
  | fuel + 1, n, p => p / n + atanhSeries u2 fuel (n + 2) (p * u2 / oneFix)

/-- log2 z for z = m / 2^k in [1, 2), in fixed point: 2 atanh((z − 1) / (z + 1)) / ln 2. -/
def log2Fix (m k : Nat) : Nat :=
  let u := (m - 2 ^ k) * oneFix / (m + 2 ^ k)
  2 * atanhSeries (u * u / oneFix) 110 1 u * oneFix / ln2Fix

/-- Alternating Σ (−1)^j a^j / (2j+1)! with a = (π g)²: sin(πg) / (πg). -/
def sincSeries (a : Nat) : Nat → Nat → Nat → Int
  | 0, _, _ => 0
  | fuel + 1, n, t => (t : Int) - sincSeries a fuel (n + 2) (t * a / oneFix / ((n + 1) * (n + 2)))

/-- sin(πg) for g = m * 2^e in (0, 1/2): a magnitude with its mark. -/
def sinpiMag (m : Nat) (e : Int) : FVal :=
  let g := if 0 ≤ e + 320 then m * 2 ^ (e + 320).toNat else m / 2 ^ (-(e + 320)).toNat
  let pg := g * piFix / oneFix
  let s := (sincSeries (pg * pg / oneFix) 60 1 oneFix).toNat * piFix / oneFix
  .fin false (m * (s - guardFix)) (e - 320) true

/-- 2^x (R192). -/
def exp2Val (x : FVal) : FVal × Flags :=
  match x with
  | .nan s _ => (.nan false false, { nv := s })
  | .inf n => if n then (.fin false 0 0 false, {}) else (.inf false, {})
  | .fin neg m e _ =>
    if m == 0 then (.fin false 1 0 false, {})
    else if 20 ≤ flog m e then (.fin false 1 (if neg then -100000 else 100000) true, {})
    else
      let d := (-e).toNat
      let v : Int := if 0 ≤ e then m * 2 ^ e.toNat else m
      let n := (if neg then -v else v) / 2 ^ d
      let r := ((if neg then -v else v) % 2 ^ d).toNat
      if r == 0 then (.fin false 1 n false, {})
      else
        let f := if d ≤ 320 then r * 2 ^ (320 - d) else r / 2 ^ (d - 320)
        (.fin false (max (exp2Fix f - guardFix) oneFix) (n - 320) true, {})

/-- log2 x (R192). -/
def log2Val (x : FVal) : FVal × Flags :=
  match x with
  | .nan s _ => (.nan false false, { nv := s })
  | .inf n => if n then (.nan false false, { nv := true }) else (.inf false, {})
  | .fin neg m e _ =>
    if m == 0 then (.inf true, { dz := true })
    else if neg then (.nan false false, { nv := true })
    else
      let k := Nat.log2 m
      let i : Int := k + e
      if m == 2 ^ k then (FVal.ofInt i, {})
      else
        let s : Int := i * oneFix + log2Fix m k
        (.fin (decide (s < 0)) (s.natAbs - guardFix) (-320) true, {})

/-- 1 / √x (R192). -/
def rsqrtVal (x : FVal) : FVal × Flags :=
  match x with
  | .nan s _ => (.nan false false, { nv := s })
  | .inf n => if n then (.nan false false, { nv := true }) else (.fin false 0 0 false, {})
  | .fin neg m e _ =>
    if m == 0 then (.inf neg, { dz := true })
    else if neg then (.nan false false, { nv := true })
    else
      let m2 := m * 2 ^ (e % 2).toNat
      let k := 160 + Nat.log2 m2
      let r := isqrt (2 ^ (2 * k) / m2)
      (.fin false r (-(k : Int) - e / 2) (r * r * m2 != 2 ^ (2 * k)), {})

/-- sin(πf + πn) for f = r / 2^d in [0, 1), of the sign `neg`. -/
def sinpiOf (neg : Bool) (r d : Nat) : FVal :=
  let h := 2 ^ d
  if 2 * r == h then .fin neg 1 0 false
  else
    match sinpiMag (if 2 * r < h then r else h - r) (-(d : Int)) with
    | .fin _ m e st => .fin neg m e st
    | v => v

/-- sin(πx) (R192). -/
def sinpiVal (x : FVal) : FVal × Flags :=
  match x with
  | .nan s _ => (.nan false false, { nv := s })
  | .inf _ => (.nan false false, { nv := true })
  | .fin neg m e _ =>
    if 0 ≤ e then (.fin neg 0 0 false, {})
    else
      let d := (-e).toNat
      let r := m % 2 ^ d
      if r == 0 then (.fin neg 0 0 false, {}) else (sinpiOf (neg != (m / 2 ^ d % 2 == 1)) r d, {})

/-- cos(πx) (R192): sin(π(|x| + 1/2)), with an exact zero positive. -/
def cospiVal (x : FVal) : FVal × Flags :=
  match x with
  | .nan s _ => (.nan false false, { nv := s })
  | .inf _ => (.nan false false, { nv := true })
  | .fin _ m e _ =>
    let d := (-e).toNat + 1
    let v := (if 0 ≤ e then m * 2 ^ e.toNat else m) * 2 + 2 ^ (d - 1)
    let r := v % 2 ^ d
    if r == 0 then (.fin false 0 0 false, {}) else (sinpiOf (v / 2 ^ d % 2 == 1) r d, {})

/-- The six operations of R192. -/
inductive TransOp where
  | exp2 | log2 | rcp | rsqrt | sinpi | cospi
deriving DecidableEq, Repr, Inhabited

/-- A transcendental instruction on codes (R192): RoundFP of the exact value. -/
def fpTrans (op : TransOp) (f : Fmt) (rm : Rm) (x : Nat) : Nat × Flags :=
  let v := decodeFp f x
  roundOf f rm (match op with
    | .exp2 => exp2Val v
    | .log2 => log2Val v
    | .rcp => divVal (.fin false 1 0 false) v
    | .rsqrt => rsqrtVal v
    | .sinpi => sinpiVal v
    | .cospi => cospiVal v)

end Sys2Proof.Machine
end

