-- ==== Sys2Proof/Machine/Alu.lean ====
section
/-!
DEFINITION. The integer and predicate results of spec/06 (R171 to R182, R193 to R196) as functions of operand values.
-/
namespace Sys2Proof.Machine

/-- The width W of R171. -/
def wBits : Width → Nat
  | .d => 64 | .w => 32

/-- The low W bits of a source, unsigned (R171). -/
def uOf (wd : Width) (x : Dword) : Nat := x.toNat % 2 ^ wBits wd

/-- The value of n bits as two's complement. -/
def toSigned (n x : Nat) : Int := if 2 ^ (n - 1) ≤ x then (x : Int) - 2 ^ n else x

/-- The low W bits of a source, signed (R171). -/
def sOf (wd : Width) (x : Dword) : Int := toSigned (wBits wd) (uOf wd x)

/-- A result written by R171: the low W bits, sign-extended to 64. -/
def wOut (wd : Width) (r : Int) : Dword :=
  match wd with
  | .d => BitVec.ofInt 64 r
  | .w => (BitVec.ofInt 32 r).signExtend 64

/-- The integer operations with two sources (R173, R174, R177, R178, R181). -/
inductive AluOp where
  | add | sub | and | or | xor | shl | shr | sar | mul
  | div | divu | rem | remu | mulh | mulhu | mulhsu
  | min | max | minu | maxu | addsat | subsat | addsatu | subsatu
deriving DecidableEq, Repr, Inhabited

/-- The shifts of R174 on the low n bits of x, by the whole unsigned amount a. -/
def shlN (n x a : Nat) : Nat := if a < n then x * 2 ^ a % 2 ^ n else 0
def shrN (n x a : Nat) : Nat := if a < n then x / 2 ^ a else 0
def sarN (n x a : Nat) : Int := if a < n then toSigned n x / 2 ^ a else if toSigned n x < 0 then -1 else 0

/-- Quotient and remainder of R177 at W bits with the flag DZ. -/
def divMod (n : Nat) (signed : Bool) (x y : Int) : Int × Int × Flags :=
  if y = 0 then (-1, x, { dz := true })
  else if signed && x = -2 ^ (n - 1) && y = -1 then (x, 0, {})
  else (Int.tdiv x y, Int.tmod x y, {})

/-- The result and the flags of an integer operation at width W. -/
def aluRes (op : AluOp) (wd : Width) (x y : Dword) : Dword × Flags :=
  let n := wBits wd
  let ux := uOf wd x
  let uy := uOf wd y
  let sx := sOf wd x
  let sy := sOf wd y
  match op with
  | .add => (wOut wd (sx + sy), {})
  | .sub => (wOut wd (sx - sy), {})
  | .and => (wOut wd (x &&& y).toNat, {})
  | .or => (wOut wd (x ||| y).toNat, {})
  | .xor => (wOut wd (x ^^^ y).toNat, {})
  | .shl => (wOut wd (shlN n ux y.toNat), {})
  | .shr => (wOut wd (shrN n ux y.toNat), {})
  | .sar => (wOut wd (sarN n ux y.toNat), {})
  | .mul => (wOut wd (sx * sy), {})
  | .div => let r := divMod n true sx sy; (wOut wd r.1, r.2.2)
  | .divu => let r := divMod n false ux uy; (wOut wd r.1, r.2.2)
  | .rem => let r := divMod n true sx sy; (wOut wd r.2.1, r.2.2)
  | .remu => let r := divMod n false ux uy; (wOut wd r.2.1, r.2.2)
  | .mulh => (wOut wd (sx * sy / 2 ^ n), {})
  | .mulhu => (wOut wd ((ux : Int) * uy / 2 ^ n), {})
  | .mulhsu => (wOut wd (sx * uy / 2 ^ n), {})
  | .min => (wOut wd (if sy < sx then sy else sx), {})
  | .max => (wOut wd (if sx < sy then sy else sx), {})
  | .minu => (wOut wd (if uy < ux then uy else ux), {})
  | .maxu => (wOut wd (if ux < uy then uy else ux), {})
  | .addsat => (wOut wd (satInt (sx + sy) (-2 ^ (n - 1)) (2 ^ (n - 1) - 1)), {})
  | .subsat => (wOut wd (satInt (sx - sy) (-2 ^ (n - 1)) (2 ^ (n - 1) - 1)), {})
  | .addsatu => (wOut wd (satInt ((ux : Int) + uy) 0 (2 ^ n - 1)), {})
  | .subsatu => (wOut wd (satInt ((ux : Int) - uy) 0 (2 ^ n - 1)), {})

/-- Ones among the low k bits. -/
def popN : Nat → Nat → Nat
  | 0, _ => 0
  | k + 1, x => x % 2 + popN k (x / 2)

/-- Leading zeros of n bits; n for zero (R180). -/
def clzN (n x : Nat) : Nat := if x = 0 then n else n - 1 - Nat.log2 x

/-- Trailing zeros of n bits; n for zero (R180). -/
def ctzN : Nat → Nat → Nat
  | 0, _ => 0
  | k + 1, x => if x % 2 = 1 then 0 else 1 + ctzN k (x / 2)

/-- The low k bytes in reverse order (R180). -/
def bswapN : Nat → Nat → Nat
  | 0, _ => 0
  | k + 1, x => x % 256 * 256 ^ k + bswapN k (x / 256)

/-- The unary operations of R180. -/
inductive UnOp where
  | clz | ctz | popc | bswap | sextB | sextH | sextW | zextB | zextH | zextW
deriving DecidableEq, Repr, Inhabited

def unRes (op : UnOp) (wd : Width) (x : Dword) : Dword :=
  let u := uOf wd x
  match op with
  | .clz => BitVec.ofNat 64 (clzN (wBits wd) u)
  | .ctz => BitVec.ofNat 64 (ctzN (wBits wd) u)
  | .popc => BitVec.ofNat 64 (popN (wBits wd) u)
  | .bswap => wOut wd (bswapN (wBits wd / 8) u)
  | .sextB => (x.setWidth 8).signExtend 64
  | .sextH => (x.setWidth 16).signExtend 64
  | .sextW => (x.setWidth 32).signExtend 64
  | .zextB => (x.setWidth 8).setWidth 64
  | .zextH => (x.setWidth 16).setWidth 64
  | .zextW => (x.setWidth 32).setWidth 64

/-- The field of `len` bits from `pos`, unsigned (R179). -/
def bfxu (x : Dword) (pos len : Nat) : Nat := x.toNat / 2 ^ pos % 2 ^ len

/-- `bfi` of R179: the field replaced, the other bits kept. -/
def bfiRes (d x : Dword) (pos len : Nat) : Dword :=
  BitVec.ofNat 64 (d.toNat - bfxu d pos len * 2 ^ pos + x.toNat % 2 ^ len * 2 ^ pos)

/-- The integer comparisons of R176. -/
inductive ICmp where
  | eq | lt | ltu
deriving DecidableEq, Repr, Inhabited

def icmpRes (op : ICmp) (wd : Width) (x y : Dword) : Bool :=
  match op with
  | .eq => sOf wd x == sOf wd y
  | .lt => decide (sOf wd x < sOf wd y)
  | .ltu => decide (uOf wd x < uOf wd y)

/-- The predicate operations of R193. -/
inductive PredOp where
  | and | or | xor | andn
deriving DecidableEq, Repr, Inhabited

def predRes (op : PredOp) (x y : Word) : Word :=
  match op with
  | .and => x &&& y
  | .or => x ||| y
  | .xor => x ^^^ y
  | .andn => x &&& ~~~y

/-- All lanes at one truth value (R176). -/
def allLanes (b : Bool) : Word := if b then 0xFFFFFFFF#32 else 0

/-- Bit i of a word. -/
def bitOf (x : Word) (i : Nat) : Bool := x.toNat / 2 ^ i % 2 == 1

/-- A word with bit i set to b. -/
def setBitOf (x : Word) (i : Nat) (b : Bool) : Word :=
  BitVec.ofNat 32 (x.toNat - x.toNat / 2 ^ i % 2 * 2 ^ i + (if b then 2 ^ i else 0))

end Sys2Proof.Machine
end

