-- ==== Sys2Proof/Machine/Lanes.lean ====
section
/-!
DEFINITION. Elements and lanes of vector registers, and the results of the vector and lane-group instructions as functions of
operand values (spec/09_isa_vector_group.md, R264 to R290, with the reductions and scans of R136 and R137).
-/
namespace Sys2Proof.Machine

/-- Element i of width w (R264). -/
def elem (w : Nat) (v : Vec) (i : Nat) : Nat := v.toNat / 2 ^ (w * i) % 2 ^ w

/-- The number whose digits of w bits are the list, lowest first. -/
def packNat (w : Nat) : List Nat → Nat
  | [] => 0
  | x :: xs => x % 2 ^ w + 2 ^ w * packNat w xs

/-- A vector register from its elements (R264). -/
def ofElems (w : Nat) (l : List Nat) : Vec := BitVec.ofNat 1024 (packNat w l)

/-- The elements of a vector register. -/
def elems (w : Nat) (v : Vec) : List Nat := (List.range (1024 / w)).map (elem w v)

/-- The governing lane of an element (R265). -/
def govLane (w i : Nat) : Nat := if w = 16 then i / 2 else if w = 8 then i / 4 else i

/-- Element i takes part under the active lanes (R265). -/
def elemOn (lanes : Word) (w i : Nat) : Bool := bitOf lanes (govLane w i)

/-- Some element of width w is active (R265). -/
def anyOn (lanes : Word) (w : Nat) : Bool := (List.range (1024 / w)).any (elemOn lanes w)

/-- Results for the active elements over the old value of the destination (R265, R125). -/
def vMap (w : Nat) (on : Nat → Bool) (old : Vec) (f : Nat → Nat × Flags) : Vec × Flags :=
  let rs := (List.range (1024 / w)).map (fun i => if on i then f i else (elem w old i, {}))
  (ofElems w (rs.map Prod.fst), flagsOf rs)

/-- vMap for results without flags. -/
def vMap0 (w : Nat) (on : Nat → Bool) (old : Vec) (f : Nat → Nat) : Vec :=
  (vMap w on old (fun i => (f i, {}))).1

/-- A second vector operand: a register, or gC broadcast to every element (R267). -/
inductive VVal where
  | v (x : Vec)
  | g (x : Dword)
deriving DecidableEq, Repr

def VVal.elem (w : Nat) (y : VVal) (i : Nat) : Nat :=
  match y with
  | .v x => Machine.elem w x i
  | .g x => x.toNat % 2 ^ w

/-- The amount of a shift: the whole element, or the whole gC (R267, R277). -/
def VVal.amount (w : Nat) (y : VVal) (i : Nat) : Nat :=
  match y with
  | .v x => Machine.elem w x i
  | .g x => x.toNat

/-- Integer element operations (R275 to R277). -/
inductive VIntOp where
  | add | sub | mul | min | max | minu | maxu | and | or | xor | andn | shl | shr | sar
  | addsat | subsat | addsatu | subsatu
deriving DecidableEq, Repr, Inhabited

/-- The element of w bits of an integer. -/
def wrapTo (w : Nat) (k : Int) : Nat := (k % 2 ^ w).toNat

def vintRes (op : VIntOp) (w x y a : Nat) : Nat :=
  let sx := toSigned w x
  let sy := toSigned w y
  match op with
  | .add => (x + y) % 2 ^ w
  | .sub => wrapTo w ((x : Int) - y)
  | .mul => x * y % 2 ^ w
  | .min => if sy < sx then y else x
  | .max => if sx < sy then y else x
  | .minu => if y < x then y else x
  | .maxu => if x < y then y else x
  | .and => Nat.land x y
  | .or => Nat.lor x y
  | .xor => Nat.xor x y
  | .andn => Nat.land x (2 ^ w - 1 - y)
  | .shl => shlN w x a
  | .shr => shrN w x a
  | .sar => wrapTo w (sarN w x a)
  | .addsat => wrapTo w (satInt (sx + sy) (-2 ^ (w - 1)) (2 ^ (w - 1) - 1))
  | .subsat => wrapTo w (satInt (sx - sy) (-2 ^ (w - 1)) (2 ^ (w - 1) - 1))
  | .addsatu => wrapTo w (satInt ((x : Int) + y) 0 (2 ^ w - 1))
  | .subsatu => wrapTo w (satInt ((x : Int) - y) 0 (2 ^ w - 1))

def vint (op : VIntOp) (w : Nat) (on : Nat → Bool) (old x : Vec) (y : VVal) : Vec :=
  vMap0 w on old (fun i => vintRes op w (elem w x i) (y.elem w i) (y.amount w i))

/-- Narrowing and widening (R276). -/
inductive VNarOp where
  | narrow | narrowu | narrowsu | widen | widenu
deriving DecidableEq, Repr, Inhabited

/-- R276 with w the width of the destination and q the group; the governing lane is that of the wider element (R265). -/
def vnar (op : VNarOp) (w : Nat) (q : Bool) (lanes : Word) (old x : Vec) : Vec :=
  let ns := 512 / w
  let base := if q then ns else 0
  let sel : Nat → Nat := fun e => match op with
    | .narrow => wrapTo w (satInt (toSigned (2 * w) e) (-2 ^ (w - 1)) (2 ^ (w - 1) - 1))
    | .narrowu => wrapTo w (satInt e 0 (2 ^ w - 1))
    | .narrowsu => wrapTo w (satInt (toSigned (2 * w) e) 0 (2 ^ w - 1))
    | .widen => wrapTo w (toSigned (w / 2) e)
    | .widenu => e
  match op with
  | .widen | .widenu =>
    let n := 1024 / w
    vMap0 w (elemOn lanes w) old (fun j => sel (elem (w / 2) x ((if q then n else 0) + j)))
  | _ =>
    vMap0 w (fun i => decide (base ≤ i) && decide (i < base + ns) && elemOn lanes (2 * w) (i - base)) old
      (fun i => sel (elem (2 * w) x (i - base)))

/-- Floating element operations with two or three operands (R270, R271). -/
def vfp (op : FpOp) (f : Fmt) (rm : Rm) (on : Nat → Bool) (old x : Vec) (y : VVal) : Vec × Flags :=
  vMap f.width on old (fun i => fpArith op f rm (elem f.width x i) (y.elem f.width i) (elem f.width old i))

/-- Compares write the active lanes of a predicate (R274). -/
def vcmp (w sel : Nat) (lanes old : Word) (f : Nat → Bool × Flags) : Word × Flags :=
  let n := if w = 64 then 16 else 32
  let idx : Nat → Nat := fun l => if w = 16 then 2 * l + sel else if w = 8 then 4 * l + sel else l
  let rs := (List.range 32).map (fun l =>
    if decide (l < n) && bitOf lanes l then (let r := f (idx l); ((if r.1 then 1 else 0 : Nat), r.2))
    else ((if bitOf old l then 1 else 0 : Nat), {}))
  (BitVec.ofNat 32 (packNat 1 (rs.map Prod.fst)), flagsOf rs)

/-- Conversion between floating formats of a vector (R279). -/
def vfcvt (src dst : Fmt) (rm : Rm) (q : Nat) (lanes : Word) (old x : Vec) : Vec × Flags :=
  let ws := src.width
  let wd := dst.width
  if wd ≤ ws then
    let ns := 1024 / ws
    vMap wd (fun i => decide (q * ns ≤ i) && decide (i < q * ns + ns) && elemOn lanes ws (i - q * ns)) old
      (fun i => fpConvert src dst rm false (elem ws x (i - q * ns)))
  else
    let n := 1024 / wd
    vMap wd (elemOn lanes wd) old (fun j => fpConvert src dst rm false (elem ws x (q * n + j)))

/-- Narrow element 32 q + j of a register (R281). -/
def narrowOf (w : Nat) (v : Vec) (q j : Nat) : Nat := elem w v (32 * q + j)

/-- The 32 narrow elements of group q replaced where active; every other bit kept (R281). -/
def putGroup (w q : Nat) (on : Nat → Bool) (old : Vec) (f : Nat → Nat × Flags) : Vec × Flags :=
  let rs := (List.range 32).map (fun j => if on j then f j else (narrowOf w old q j, {}))
  let base := 32 * w * q
  let keep := old.toNat - old.toNat / 2 ^ base % 2 ^ (32 * w) * 2 ^ base
  (BitVec.ofNat 1024 (keep + packNat w (rs.map Prod.fst) * 2 ^ base), flagsOf rs)

/-- The last group of R281. -/
def groupMax (w : Nat) : Nat := if w = 8 then 3 else if w = 6 then 4 else 7

/-- `vmxpk` on one element (R282). -/
def mxpkElem (nf : Fmt) (rm : Rm) (x e : Nat) : Nat × Flags := mxElem nf rm x (decodeFp fp32 e)

/-- `vmxunpk` on one element (R282). -/
def mxunpkElem (nf : Fmt) (rm : Rm) (x e : Nat) : Nat × Flags :=
  if x = 255 then (fp32.canonNaN, {}) else roundFP fp32 rm false ((decodeFp nf e).scale (x - 127))

/-- The scale of the active FP32 elements (R282). -/
def vmxscOf (nf : Fmt) (lanes : Word) (v : Vec) : Nat × Flags :=
  mxScale nf (((List.range 32).filter (bitOf lanes)).map (fun i => decodeFp fp32 (elem 32 v i)))

/-- `vshuf` (R284). -/
def vshuf (w : Nat) (on : Nat → Bool) (old x c : Vec) : Vec :=
  vMap0 w on old (fun i => let k := elem w c i; if k < 1024 / w then elem w x k else 0)

/-- The source of element i under a pattern (R285). -/
def vpermSrc (n mode k i : Nat) : Nat :=
  match mode with
  | 0 => Nat.xor i k
  | 1 => k
  | 2 => i % 2 * (n / 2) + i / 2
  | _ => 2 * (i % (n / 2)) + i / (n / 2)

/-- `vrot` within groups of 2^gs elements (R286). -/
def vrot (w gs k : Nat) (on : Nat → Bool) (old x : Vec) : Vec :=
  let g := 2 ^ gs
  vMap0 w on old (fun i => elem w x (i / g * g + (i % g + k % g) % g))

/-- The votes of R287: each active lane of a group gets the OR (or AND) over the group's active lanes. -/
def vvote (all : Bool) (gs : Nat) (lanes old p : Word) : Word :=
  let g := 2 ^ gs
  let res : Nat → Bool := fun l =>
    let grp := (List.range g).map (fun t => l / g * g + t)
    let act := grp.filter (bitOf lanes)
    if all then act.all (bitOf p) else act.any (bitOf p)
  BitVec.ofNat 32 (packNat 1 ((List.range 32).map (fun l =>
    if bitOf lanes l then (if res l then 1 else 0) else (if bitOf old l then 1 else 0))))

/-- `vmatch` (R288). -/
def vmatch (w : Nat) (on : Nat → Bool) (old x : Vec) : Vec :=
  let n := 1024 / w
  vMap0 w on old (fun i =>
    packNat 1 ((List.range n).map (fun j => if on j && elem w x j == elem w x i then 1 else 0)))

/-! Reductions and scans: an inactive position holds none (R136, R137). -/

/-- One level of the tree. -/
def treeLevel (comb : Nat → Nat → Nat × Flags) : List (Option Nat) → List (Option Nat) × Flags
  | a :: b :: rest =>
    let t := treeLevel comb rest
    match a, b with
    | some x, some y => let r := comb x y; (some r.1 :: t.1, r.2.or t.2)
    | some x, none => (some x :: t.1, t.2)
    | none, y => (y :: t.1, t.2)
  | l => (l, {})

/-- The pairwise tree over a list of 2^k positions (R136). -/
def treeOf (comb : Nat → Nat → Nat × Flags) : Nat → List (Option Nat) → Option Nat × Flags
  | 0, l => (l.headD none, {})
  | k + 1, l =>
    let t := treeLevel comb l
    let r := treeOf comb k t.1
    (r.1, t.2.or r.2)

/-- The block sums of positions 0 to i, from the largest power of two down, added left to right (R137). -/
def scanBlocks (comb : Nat → Nat → Nat × Flags) : Nat → Nat → List (Option Nat) → Option Nat → Option Nat × Flags
  | 0, cnt, l, acc =>
    if cnt % 2 = 1 then
      match acc, l.headD none with
      | some a, some b => let r := comb a b; (some r.1, r.2)
      | none, b => (b, {})
      | a, none => (a, {})
    else (acc, {})
  | k + 1, cnt, l, acc =>
    if cnt / 2 ^ (k + 1) % 2 = 1 then
      let t := treeOf comb (k + 1) (l.take (2 ^ (k + 1)))
      let c : Option Nat × Flags := match acc, t.1 with
        | some a, some b => let r := comb a b; (some r.1, r.2)
        | none, b => (b, {})
        | a, none => (a, {})
      let r := scanBlocks comb k cnt (l.drop (2 ^ (k + 1))) c.1
      (r.1, (t.2.or c.2).or r.2)
    else scanBlocks comb k cnt l acc

/-- The inclusive scan at position t of a group (R137). -/
def scanAt (comb : Nat → Nat → Nat × Flags) (l : List (Option Nat)) (t : Nat) : Option Nat × Flags :=
  scanBlocks comb 7 (t + 1) l none

/-- The positions of group g of size 2^gs, none where inactive. -/
def groupOf (w gs : Nat) (on : Nat → Bool) (x : Vec) (g : Nat) : List (Option Nat) :=
  (List.range (2 ^ gs)).map (fun t => let i := g * 2 ^ gs + t; if on i then some (elem w x i) else none)

/-- A reduction: every active element gets its group's result (R289). -/
def vred (comb : Nat → Nat → Nat × Flags) (w gs : Nat) (on : Nat → Bool) (old x : Vec) : Vec × Flags :=
  vMap w on old (fun i => let r := treeOf comb gs (groupOf w gs on x (i / 2 ^ gs)); (r.1.getD 0, r.2))

/-- A scan, inclusive or exclusive with its identity (R290). -/
def vscan (comb : Nat → Nat → Nat × Flags) (ident : Nat) (ex : Bool) (w gs : Nat) (on : Nat → Bool) (old x : Vec) :
    Vec × Flags :=
  vMap w on old (fun i =>
    let l := groupOf w gs on x (i / 2 ^ gs)
    let t := i % 2 ^ gs
    if ex then
      if t = 0 then (ident, {})
      else let r := scanAt comb l (t - 1); (r.1.getD ident, r.2)
    else let r := scanAt comb l t; (r.1.getD ident, r.2))

/-- The combination of a floating reduction or scan (R289, R290). -/
inductive FRed where
  | add | min | max
deriving DecidableEq, Repr, Inhabited

def fredComb (op : FRed) (f : Fmt) (rm : Rm) (x y : Nat) : Nat × Flags :=
  match op with
  | .add => fpArith .add f rm x y 0
  | .min => fpMinMax false f x y
  | .max => fpMinMax true f x y

/-- The identity of an exclusive floating scan (R290). -/
def fredIdent (op : FRed) (f : Fmt) : Nat :=
  match op with
  | .add => 0 | .min => f.infCode false | .max => f.infCode true

/-- The identity of an exclusive integer scan (R290). -/
def iredIdent (op : VIntOp) (w : Nat) : Nat :=
  match op with
  | .min => 2 ^ (w - 1) - 1
  | .max => 2 ^ (w - 1)
  | .minu => 2 ^ w - 1
  | _ => 0

def iredComb (op : VIntOp) (w x y : Nat) : Nat × Flags := (vintRes op w x y y, {})

end Sys2Proof.Machine
end

