-- ==== Sys2Proof/Machine/Ops.lean ====
section
/-!
DEFINITION. The operations that the meanings share: taking a trap and returning from it (R347, R348, R364 to R367, R207), the eddy table
(R61), neighbour queues (R62), and the frame of an issued instruction (R35, R145, R150, R152, R368, R410, R455).
-/
namespace Sys2Proof.Machine

/-! ## Traps -/

def clsIllegal : Nat := 0
def clsAccess : Nat := 1
def clsStack : Nat := 2
def clsWeight : Nat := 3
def clsBrk : Nat := 4
def clsTrap : Nat := 5
def clsShard : Nat := 6
def clsEcall : Nat := 7
def clsMachine : Nat := 8

/-- The grid of a thread. -/
def gridOf (s : State) (c : CoreId) (t : Thread) : Option Grid := t.gslot.bind (getGrid s c.pkg)

/-- The first four words of an instruction, from bits [15:0] upward (R347). -/
def wordsField (ws : List Half) : Nat :=
  ((List.range 4).map (fun i => (ws.getD i 0).toNat * 2 ^ (16 * i))).foldl (· + ·) 0

/-- The trap record of R347, with the fields of R366 for one delivered to privileged software. DESIGN CHOICE: log entry 24. -/
def trapRecord (t : Thread) (slot : Nat) (i : TrapInfo) (image more : Nat) : Nat :=
  (i.pc % 2 ^ 32 * 2 ^ 32 + i.seg * 2 ^ 16 + i.cause % 256 * 2 ^ 8 + i.cls) + 2 ^ 64 * (i.addr.toNat + 2 ^ 64 * (i.aux.toNat + 2 ^ 64 *
    (wordsField i.words + 2 ^ 64 * ((Nat.max 1 i.words.length * 2 ^ 8 + t.tid * 2 ^ 4 + slot) + 2 ^ 64 * (image + 2 ^ 64 * more)))))

/-- The trap record fits in the thread's own stack (R348). DEDUCED: log entry 21. -/
def recordFits (t : Thread) (stack : Nat) : Bool :=
  let g2 := t.regs.g[(2 : Fin 64)].toNat
  decide (g2 % 16 = 0) && decide (t.slim.toNat + 64 ≤ g2) && decide (g2 ≤ t.slim.toNat + stack)

/-- The trap goes to the user handler (R364): its TRAPEN bit, not inside the handler, and R348; the record's bytes are writable. DEDUCED: log entry 21. -/
def userHandled (s : State) (c : CoreId) (t : Thread) (i : TrapInfo) : Bool :=
  match gridOf s c t with
  | some g =>
    decide (i.cls < 7) && decide (g.hdr.trapen / 2 ^ i.cls % 2 = 1) && !t.inHandler && recordFits t g.hdr.stack &&
      (match resolve c (t.regs.g[(2 : Fin 64)] - 64) with
       | some a => !protectedBytes s t.gslot (physOf c a) 64
       | none => false)
  | none => false

/-- Entry into the user handler (R347): the record below g2, then TRAPVEC in segment 0. -/
def enterHandler (s : State) (c : CoreId) (slot : Nat) (t : Thread) (vec : Nat) (i : TrapInfo) : State :=
  let s1 := match resolve c (t.regs.g[(2 : Fin 64)] - 64) with
    | some a => writeEvent s (whoOf c t) [(physOf c a, leBytes 64 (trapRecord t slot i 0 0))] false false
    | none => s
  setT s1 c slot (some { t with pc := vec, seg := 0, inHandler := true, run := .ready, marker := false, trap := none, woken := none })

/-- A trapped thread saved at a physical address (R365 steps 2 and 3): its image with TRAPPED, its record on its way to the trap queue.
An `ecall` is saved at the next instruction (R367). DESIGN CHOICE: log entry 24. -/
def saveTrapped (s : State) (c : CoreId) (slot : Nat) (t : Thread) (i : TrapInfo) (at_ : Nat) (alloc : Option (Nat × Nat)) : State × Nat :=
  let pc := if i.cls = clsEcall then i.pc + 2 * i.words.length else t.pc
  let s0 := setT s c slot (some { t with trap := none, run := .ready, pc := pc })
  let sv := saveThread s0 c slot { trapped := true, ecall := decide (i.cls = clsEcall), mchk := decide (i.cls = clsMachine) } at_
  let more := bit t.inHandler 48 + t.asid * 2 ^ 32 + t.pid * 2 ^ 24 + t.gslot.getD 255 * 2 ^ 16 + c.n
  let r := trapRecord t slot i (at_ % 2 ^ 48) more
  let img : TrapImg := { pid := t.pid, at_ := at_, alloc := alloc, gslot := t.gslot.getD 255, core := c.n, crew := t.crew }
  (modPkg sv.1 c.pkg (fun k => { k with
    trapImgs := k.trapImgs ++ [img]
    trapWaits := k.trapWaits ++ [{ pid := t.pid, rcd := BitVec.ofNat 512 r, gslot := t.gslot.getD 255, sent := none }] }), sv.2)

/-- Delivery to privileged software (R365): the thread's image goes into the eviction pool; where the pool lacks room the thread waits,
HELD and unsaved. DESIGN CHOICE: log entry 50. -/
def deliverTrap (s : State) (c : CoreId) (slot : Nat) (t : Thread) (i : TrapInfo) : State :=
  let ncmd := ((getCore s c).mq.filter (fun m => decide (m.slot = slot) && !m.started)).length
  let len := imageLen t.allot ncmd
  match poolFit s c.pkg t.pid len with
  | none => setT s c slot (some { t with trap := some i, run := .held .trap })
  | some off => (saveTrapped s c slot t i (poolPhys s c.pkg t.pid + off) (some (off, len))).1

/-- A trap enters its handler, the thread's earlier stores performed before the record (R84), or is delivered; its results are final (R150, R364). A fault
processor's own trap halts it (R356). DEDUCED: log entry 21. -/
def enterTrap (s : State) (c : CoreId) (slot : Nat) (i : TrapInfo) : State :=
  match getT s c slot with
  | none => s
  | some t =>
    if isFp c then modCore (setT s c slot (some { t with trap := some i, run := .held .trap })) c (fun k => { k with halted := true })
    else if userHandled s c t i then
      match gridOf s c t with
      | some g => enterHandler (drainThread s c slot) c slot t g.hdr.trapvec i
      | none => s
    else deliverTrap s c slot t i

/-- TAKING A TRAP: the one way into every trap (R150, R362). A thread with results outstanding or accesses not accepted first waits as at a switch
marker; USER_TRAP_ENTRY or TRAP_DELIVERY then follows. So does one that a pre-emption has halted, until it is saved; a machine trap that
already waits comes first. DESIGN CHOICE: log entries 22, 23. -/
def takeTrap (s : State) (c : CoreId) (slot : Nat) (i : TrapInfo) : State :=
  match getT s c slot with
  | none => s
  | some t =>
    if t.out = [] ∧ t.acc = [] ∧ t.halted = false ∧ t.trap = none then enterTrap (setT s c slot (some { t with claims := [] })) c slot i
    else setT s c slot (some { t with trap := some (t.trap.getD i), run := .held .trap, claims := [] })

/-! ## The eddy table (R61) -/

/-- Entries in use: parked waits that hold one, and the arms that the core has set. -/
def eddyUsed (s : State) (c : CoreId) : Nat :=
  ((getCore s c).slots.toList.filter (fun o => match o with
    | some t => (match t.run with | .parked _ true => true | _ => false)
    | none => false)).length + (s.arms.filter (fun a => decide (a.who.core = c))).length

/-- A wait takes an entry where it is of the kinds that hold one and one is free (R61, R257); one on a word in host memory is polled (R432).
DEDUCED: log entry 29. -/
def takesEntry (s : State) (who : Who) (w : ParkOn) : Bool :=
  match w with
  | .line _ => decide (eddyUsed s who.core < 64)
  | .flag a _ | .root a => decide (eddyUsed s who.core < 64) && !onHost s who a
  | _ => false

/-! ## Neighbour queues (R62, R63) -/

/-- The direction of a port in a kernel with net (R62): qn, qe, qs, qw. -/
def portDir (net : Bool) (r : GReg) : Option Nat := if net && decide (60 ≤ r.val) then some (r.val - 60) else none

/-- A crew of the grid has left the core for its image (R48). -/
def crewOff (s : State) (p n : Nat) (g : Option Nat) : Bool := s.redirects.any (fun r => decide (r.pkg = p ∧ r.core = n ∧ some r.gslot = g))

/-- The neighbour of a port, within the mesh and the grid's tenancy; the ADDR of the fault otherwise (R63, R454). -/
def portPeer (s : State) (c : CoreId) (t : Thread) (dir : Nat) : Nat ⊕ Dword :=
  match neighbour c.n dir with
  | none => .inr 0xFFFFFFFFFFFFFFFF#64
  | some n => if (getCore s { c with n := n }).tenancy = t.gslot ∨ crewOff s c.pkg n t.gslot = true then .inl n else .inr (dw n)

/-- The neighbour queues and latches of a core are stopped for a grid (R369): a crew of it there is halted, or saved. -/
def netStopped (s : State) (p n : Nat) (g : Option Nat) : Bool :=
  crewOff s p n g || (getCore s { pkg := p, n := n }).slots.toList.any (fun o => match o with
    | some t => t.halted && decide (t.gslot = g)
    | none => false)

/-- Words of an access to a port (R62). DEDUCED: log entry 25. -/
def portWords (narrow : Bool) : Nat := if narrow then 1 else 2

/-- The value of popped words. -/
def joinWords (ws : List Word) : Dword := dw ((ws.getD 0 0).toNat + 2 ^ 32 * (ws.getD 1 0).toNat)

/-- The words that a write pushes, low word first. -/
def splitWords (narrow : Bool) (x : Dword) : List Word :=
  if narrow then [x.setWidth 32] else [x.setWidth 32, (x >>> 32).setWidth 32]

/-- The thread in hand runs a kernel with net (R62). -/
def netHere (s : State) : Bool := match getT s s.cur.core s.cur.slot with | some t => t.net | none => false

/-- Words in flight or in place towards an inbound queue. -/
def nqUsed (s : State) (p n dir : Nat) : Nat :=
  ((getCore s { pkg := p, n := n }).nq[dir]?.getD []).length +
    ((s.nwords.filter (fun w => decide (w.pkg = p ∧ w.dst = n ∧ w.dir = dir))).map (fun w => w.words.length)).foldl (· + ·) 0

/-- The inbound queue of the neighbour that a port pushes into (R62). -/
def oppositeDir (dir : Nat) : Nat := (dir + 2) % 4

/-! ## The frame of an issued instruction -/

/-- What an instruction names and needs before it can issue. -/
structure Uses where
  /-- General registers read, in order; true where the use is of 32 bits or fewer (R62). -/
  rg : List (GReg × Bool) := []
  /-- General registers written by a fixed-latency result. -/
  wg : List (GReg × Bool) := []
  /-- General registers written by a variable-latency result (R147). -/
  lg : List GReg := []
  /-- Further general registers that the instruction names. -/
  ng : List Nat := []
  v : List VReg := []
  m : List MReg := []
  /-- Variable-latency results that it starts (R368). -/
  lat : Nat := 0
  /-- The unit of the core that it runs on (R172, R268). -/
  unit : Option LatUnit := none
  /-- An effect outside the registers, which waits for earlier accesses (R152, R410). -/
  eff : Bool := false
  /-- Not ordered after the thread's earlier stores (R84): a posted item without `.rel` (R93). -/
  loose : Bool := false
  /-- Level S only (R210). -/
  priv : Bool := false
  /-- An operand field that the instruction refuses, whatever its registers hold (R320). -/
  ill : Bool := false
  /-- Not on a fault processor (R356). -/
  noFp : Bool := false
  /-- Whether it runs under the lanes given: lane 0 decides for a scalar instruction, any element for a vector one (R145, R265). -/
  on : Word → Bool := fun m => bitOf m 0

/-- What an instruction that issues finds. -/
structure Ctx where
  c : CoreId
  slot : Nat
  t : Thread
  /-- The values of the registers of `Uses.rg`, in order. -/
  x : List Dword
  /-- The address after the instruction. -/
  next : Nat

def Ctx.val (k : Ctx) (i : Nat) : Dword := k.x.getD i 0
def Ctx.who (k : Ctx) : Who := whoOf k.c k.t

/-- How an instruction ends. -/
inductive Res where
  | ok (s : State)
  | jump (s : State) (pc seg : Nat)
  | trap (s : State) (cls cause : Nat) (addr aux : Dword)
  | hold (s : State) (w : HeldOn)
  | park (s : State) (w : ParkOn)
  /-- Done, and HELD until the instruction's completion (R328). -/
  | stall (s : State) (w : HeldOn)
  /-- The slot is FREE. -/
  | gone (s : State)

/-- The base word, as AUX of class illegal (R455). DESIGN CHOICE: log entry 24. -/
def baseAux (s : State) : Dword := ((s.cur.words.getLast?).getD 0).setWidth 64

/-- DESIGN CHOICE: log entry 17. -/
def Res.illegal (s : State) (cause : Nat) : Res := .trap s clsIllegal cause 0 (baseAux s)
def Res.access (s : State) (cause : Nat) (addr : Dword) : Res := .trap s clsAccess cause addr 0

/-- A register beyond its allotment (R35). -/
def beyond (al : Allot) (u : Uses) : Bool :=
  u.rg.any (fun r => decide (al.g ≤ r.1.val)) || u.wg.any (fun r => decide (al.g ≤ r.1.val)) || u.lg.any (fun r => decide (al.g ≤ r.val)) ||
    u.ng.any (fun r => decide (al.g ≤ r)) || u.v.any (fun r => decide (al.v ≤ r.val)) || u.m.any (fun r => decide (al.a ≤ r.val))

/-- The lanes that run (R145). -/
def lanesOf (t : Thread) (p : Pre) : Word := let x := readP t p.pn; if p.neg then ~~~x else x

/-- A scalar instruction runs (R145). -/
def runs (t : Thread) (p : Pre) : Bool := bitOf (lanesOf t p) 0

/-- The instruction is predicated off (R145, R265). -/
def isOff (t : Thread) (p : Pre) (u : Uses) : Bool := !u.on (lanesOf t p)

/-- Past the instruction: PC, switch marker, instruction number. -/
def Thread.advance (t : Thread) (pc : Nat) (sw : Bool) : Thread :=
  { t with pc := pc, marker := sw, seq := t.seq + 1, run := .ready, woken := none, claims := [] }

/-- The ports that an instruction reads, with the words that each read takes. -/
def portReads (net : Bool) (u : Uses) : List (Nat × Nat) :=
  u.rg.filterMap (fun r => (portDir net r.1).map (fun d => (d, portWords r.2)))

def portWrites (net : Bool) (u : Uses) : List (GReg × Nat × Bool) :=
  u.wg.filterMap (fun r => (portDir net r.1).map (fun d => (r.1, d, r.2)))

/-- The words needed from one inbound queue. DEDUCED: log entry 25. -/
def needFrom (l : List (Nat × Nat)) (d : Nat) : Nat := ((l.filter (fun x => decide (x.1 = d))).map (fun x => x.2)).foldl (· + ·) 0

/-- An inbound queue has words that an access not yet accepted has read (R62). -/
def popsPending (s : State) (c : CoreId) (d : Nat) : Bool :=
  (getCore s c).slots.toList.any (fun o => match o with
    | some t => t.acc.any (fun a => a.pops.any (fun x => decide (x.1 = d)))
    | none => false) ||
  s.lateAccs.any (fun l => decide (l.who.core = c) && l.acc.pops.any (fun x => decide (x.1 = d)))

/-- The values of the registers read: a port read takes the queue's words in order (R62). DEDUCED: log entry 25. -/
def readAll (tick : Nat) (t : Thread) : List (GReg × Bool) → Vector (List Word) 4 → List Dword
  | [], _ => []
  | (r, nar) :: l, q =>
    match portDir t.net r with
    | some d =>
      let n := portWords nar
      let ws := q[d]?.getD []
      joinWords (ws.take n) :: readAll tick t l (q.setIfInBounds d (ws.drop n))
    | none => readG tick t r :: readAll tick t l q

/-- Popped words leave their queues. -/
def dropPops (k : Core) (l : List (Nat × Nat)) : Core :=
  { k with nq := l.foldl (fun q x => q.setIfInBounds x.1 ((q[x.1]?.getD []).drop x.2)) k.nq }

/-- Two waits for the same thing that threads are served at in order: a neighbour queue, the matrix command queue, a unit. -/
def sameLine : HeldOn → HeldOn → Bool
  | .pop d _, .pop e _ => decide (d = e)
  | .push n d _, .push m e _ => decide (n = m ∧ d = e)
  | .mqueue, .mqueue => true
  | .unit a, .unit b => decide (a = b)
  | _, _ => false

/-- Another thread of the core came before: those that use one port, the matrix command queue or a unit are served in issue order (R62, R172, R268, R291). -/
def lineTaken (k : Core) (slot : Nat) (t : Thread) (w : HeldOn) : Bool :=
  let mine := t.claims.find? (fun x => sameLine x.2 w)
  (List.range 16).any (fun i => decide (i ≠ slot) && (match (k.slots[i]?).join with
    | some o => o.claims.any (fun x => sameLine x.2 w && (match mine with | some y => decide (x.1 < y.1) | none => true))
    | none => false))

/-- A unit of a core is busy: a result of it has not landed, in a register or in an image (R172, R268). -/
def unitBusy (s : State) (c : CoreId) (u : LatUnit) : Bool :=
  (getCore s c).slots.toList.any (fun o => match o with
    | some t => t.out.any (fun r => decide (r.unit = some u))
    | none => false) ||
  s.lates.any (fun l => decide (l.core = c) && decide (l.out.unit = some u))

/-- What stops an instruction that uses ports, before its body (R62, R63): a trap, or a hold. DESIGN CHOICE: log entry 17. -/
def portCheck (s : State) (c : CoreId) (slot : Nat) (t : Thread) (u : Uses) : Option Res :=
  let rs := portReads t.net u
  let ws := portWrites t.net u
  if u.lg.any (fun r => (portDir t.net r).isSome) then some (Res.illegal s 3)
  else if rs = [] ∧ ws = [] then none
  else
    let dirs := rs.map (fun x => x.1) ++ ws.map (fun x => x.2.1)
    match dirs.findSome? (fun d => match portPeer s c t d with | .inr a => some a | .inl _ => none) with
    | some a => some (Res.access s 9 a)
    | none =>
      if t.acc ≠ [] then some (.hold s .accs)
      else
        let k := getCore s c
        match rs.find? (fun x => popsPending s c x.1 || lineTaken k slot t (.pop x.1 0) || decide ((k.nq[x.1]?.getD []).length < needFrom rs x.1)) with
        | some x => some (.hold s (.pop x.1 (needFrom rs x.1)))
        | none =>
          (ws.findSome? (fun w => match portPeer s c t w.2.1 with
            | .inl n =>
              let need := portWords w.2.2
              if nqUsed s c.pkg n (oppositeDir w.2.1) + need ≤ 8 ∧ lineTaken k slot t (.push n (oppositeDir w.2.1) 0) = false ∧ netStopped s c.pkg n t.gslot = false then none
              else some (n, oppositeDir w.2.1, need)
            | .inr _ => none)).map (fun x => .hold s (.push x.1 x.2.1 x.2.2))

/-- A port's value leaves towards the neighbour's queue (R62, R63). -/
def pushPort (s : State) (c : CoreId) (t : Thread) (w : GReg × Nat × Bool) : State :=
  match portPeer s c t w.2.1 with
  | .inl n =>
    let m : NWord := { pkg := c.pkg, dst := n, dir := oppositeDir w.2.1, gslot := t.gslot.getD 255, era := (getCore s { c with n := n }).era,
                       words := splitWords w.2.2 t.regs.g[w.1] }
    { s with nwords := s.nwords ++ [m] }
  | .inr _ => s

/-- The effects of ports of an instruction that has run: pops, held with an access that is not yet accepted, and pushes. -/
def commitPorts (s : State) (c : CoreId) (slot seq : Nat) (u : Uses) (net : Bool) : State :=
  let rs := portReads net u
  let ws := portWrites net u
  if rs = [] ∧ ws = [] then s
  else
    let s1 := match getT s c slot with
      | some t =>
        if t.acc.any (fun a => decide (a.seq = seq)) then
          setT s c slot (some { t with acc := t.acc.map (fun a => if a.seq = seq then { a with pops := rs } else a) })
        else modCore s c (fun k => dropPops k rs)
      | none => modCore s c (fun k => dropPops k rs)
    match getT s1 c slot with
    | some t => ws.foldl (fun s w => pushPort s c t w) s1
    | none => s1

/-- What a waiting instruction has a place for: each port that it uses (R62), and the queue or unit on which it is HELD (R172, R291). -/
def claimsOf (s : State) (c : CoreId) (t : Thread) (u : Uses) (w : Option HeldOn) : List HeldOn :=
  (portReads t.net u).map (fun x => .pop x.1 0) ++
    (portWrites t.net u).filterMap (fun x => match portPeer s c t x.2.1 with
      | .inl n => some (.push n (oppositeDir x.2.1) 0)
      | .inr _ => none) ++
    (w.filter (fun x => match x with | .mqueue | .unit _ => true | _ => false)).toList

/-- The claims of its instruction, each since the turn in which it was made first. -/
def keepClaims (tick : Nat) (t : Thread) (l : List HeldOn) : List (Nat × HeldOn) :=
  t.claims ++ (l.filter (fun w => !t.claims.any (fun x => sameLine x.2 w))).map (fun w => (tick, w))

/-- An instruction's end put into effect. -/
def finish (c : CoreId) (slot : Nat) (t : Thread) (pre : Pre) (next : Nat) (u : Uses) (r : Res) : State :=
  let done := fun (s : State) (pc : Nat) (seg : Nat) =>
    let s1 := commitPorts s c slot t.seq u t.net
    modT s1 c slot (fun x => { x.advance pc pre.sw with seg := seg })
  match r with
  | .ok s => done s next t.seg
  | .jump s pc seg => done s pc seg
  | .trap s cls cause addr aux =>
    takeTrap s c slot { cls := cls, cause := cause, addr := addr, aux := aux, pc := t.pc, seg := t.seg, words := s.cur.words }
  | .hold s w => modT s c slot (fun x => { x with run := .held w, claims := keepClaims s.tick x (claimsOf s c t u (some w)) })
  | .park s w =>
    let kept := fun (x : Thread) => keepClaims s.tick x (claimsOf s c t u none)
    if pre.sw ∧ (t.out ≠ [] ∨ t.acc ≠ []) then modT s c slot (fun x => { x with run := .held .results, claims := kept x })
    else modT s c slot (fun x => { x with run := .parked w (takesEntry s (whoOf c x) w), parkedAt := s.clock, claims := kept x })
  | .stall s w => modT (done s next t.seg) c slot (fun x => { x with run := .held w })
  | .gone s => s

/-- The checks and waits that every instruction shares, then its body (R455): level, fault-processor rows, allotment, predicate, ports,
earlier accesses, results outstanding, a unit (R172). -/
def issueRes (s : State) (c : CoreId) (slot : Nat) (t : Thread) (pre : Pre) (u : Uses) (body : State → Ctx → Res) : Res :=
  let next := t.pc + 2 * s.cur.words.length
  if u.priv && !isFp c then Res.illegal s 4
  else if u.noFp && isFp c then Res.illegal s 1
  else if beyond t.allot u then Res.illegal s 2
  else if isOff t pre u then .ok s
  else if u.ill then Res.illegal s 3
  else match portCheck s c slot t u with
    | some r => r
    | none =>
      if u.eff ∧ t.acc ≠ [] then .hold s .accs
      else if 0 < u.lat ∧ 32 < t.out.length + u.lat then .hold s .full
      else if u.unit.any (fun x => unitBusy s c x || lineTaken (getCore s c) slot t (.unit x)) then .hold s (.unit (u.unit.getD .divide))
      else body (if u.eff && !u.loose then drainThread s c slot else s) { c := c, slot := slot, t := t, x := readAll s.tick t u.rg (getCore s c).nq, next := next }

/-- The uses that count towards the port effects of an instruction that is predicated off: none. DESIGN CHOICE: log entry 34. -/
def effective (t : Thread) (pre : Pre) (u : Uses) : Uses := if isOff t pre u then {} else u

/-- THE FRAME OF AN ISSUED INSTRUCTION: the current thread's instruction with what it uses and does. DESIGN CHOICE: log entry 34. -/
def issue (s : State) (pre : Pre) (u : Uses) (body : State → Ctx → Res) : Host.Outcome State Fault Refusal :=
  let c := s.cur.core
  let slot := s.cur.slot
  match getT s c slot with
  | none => .next s
  | some t => .next (finish c slot t pre (t.pc + 2 * s.cur.words.length) (effective t pre u) (issueRes s c slot t pre u body))

/-- The thread of the context as it stands now. -/
def Ctx.upd (k : Ctx) (s : State) (f : Thread → Thread) : State := modT s k.c k.slot f

/-- RETURN FROM A TRAP HANDLER, `tret` (R207): the thread leaves its handler for an address and a segment. -/
def trapReturn (s : State) (k : Ctx) (pc seg : Nat) : Res := .jump (k.upd s (fun t => { t with inHandler := false })) pc seg

/-- The ticket of a thread (R409): its core, its slot and a sequence number. DESIGN CHOICE: log entry 53. -/
def ticketOf (c : CoreId) (slot seq : Nat) : Nat := c.n % 2 ^ 13 * 2 ^ 18 + slot * 2 ^ 14 + seq % 2 ^ 14

/-- A thread's access to a page that is absent: it takes a ticket and is HELD at the access until an answer (R409, R410); it runs ahead where one of the
core's two shadow slots is free (R411). DESIGN CHOICE: log entry 53. -/
def faultTicket (s : State) (c : CoreId) (slot : Nat) (words : List Half) (a : Dword) (write : Bool) (page hp hf : Nat) :
    State × HeldOn :=
  let k := getPkg s c.pkg
  let tk := ticketOf c slot k.ticketSeq
  let w : FaultWait := {
    core := c, slot := slot, ticket := tk, page := page, addr := a, write := write, homePkg := hp, homeFp := hf, sent := false, words := words,
    since := s.clock, shadow := decide ((k.waits.filter (fun x => decide (x.core = c) && !x.sent && x.shadow)).length < 2) }
  (setPkg s c.pkg { k with ticketSeq := k.ticketSeq + 1, waits := k.waits ++ [w] }, .ticket tk)

/-- The request of an access that the instruction makes at its issue. -/
def Ctx.req (k : Ctx) : Req := .issue k.c k.slot k.t.seq

/-- The continuation of an access at issue that was judged and not performed: a trap, a ticket, a place in the migration buffer (R416), or a wait
for the cluster. -/
def blockedRes (s : State) (k : Ctx) (a : Dword) (write : Bool) (j : Judged) : Res :=
  match j with
  | .fail c => Res.access s c a
  | .fault _ _ pg hp hf => let r := faultTicket s k.c k.slot s.cur.words a write pg hp hf; .hold r.1 r.2
  | .transit p st pg => .hold (holdAtPort s k.who a (.transit p st pg) write k.req).1 .port
  | .asleep p q => .hold (wakeCluster s p q) .accs
  | .ok _ _ => .hold s .accs

/-- An access at issue waits behind an earlier request of the core for the same page, as that one does (R412, R416). -/
def behindRes (s : State) (k : Ctx) (a : Dword) (r : Res) : Res :=
  match portBehind s k.who a k.req with
  | some x => .hold (holdBehind s x k.req).1 .port
  | none => r

/-- An access that an instruction makes at its issue: performed, a trap, or a wait. -/
def reach (s : State) (k : Ctx) (a : Dword) (n : Nat) (kind : AKind) (body : State → Nat → Res) : Res :=
  behindRes s k a (match judge s k.who a n kind with
    | (s1, .ok ph _) => body s1 ph
    | (s1, j) => blockedRes s1 k a (decide (kind ≠ .read)) j)

/-- TakeShare of R70 and R236: ⌊w/2⌋ is handed out and the sender keeps the rest; a thread of domain 0 hands out nothing. -/
def takeShare (s : State) (k : Ctx) (body : State → Nat → Res) : Res :=
  let t := k.t
  let split := fun (s : State) (w : Nat) => body (k.upd s (fun x => { x with weight := w - w / 2 })) (w / 2)
  if t.domain = 0 then body s 0
  else if t.weight = 0 then
    (match rootOf s k.c.pkg t.pid t.domain with
     | none => Res.access s 11 (dw t.domain)
     | some (a, _) => .trap s clsWeight 1 a 0)
  else if t.weight = 1 then
    (match rootOf s k.c.pkg t.pid t.domain with
     | none => Res.access s 11 (dw t.domain)
     | some (root, _) => behindRes s k root (match borrow s k.who t.domain with
       | .took s1 n => split s1 (t.weight + n)
       | .exhausted a v => .trap s clsWeight 2 a (dw v)
       | .noDomain => Res.access s 11 (dw t.domain)
       | .blocked s1 a j => blockedRes s1 k a true j))
  else split s t.weight

end Sys2Proof.Machine
end

