-- ==== Sys2Proof/Machine/Issue.lean ====
section
/-!
DEFINITION. Issue within a core (R39, R147, R396): which HELD and PARKED threads have become READY, the rotation, the fetch of an
instruction's words (R140), and the row of `tlbsd` that gB's OP names (R405).
-/
namespace Sys2Proof.Machine

/-- Posted items, copies and drains of a core that count towards the limit of 64 (R223, R303, R309): those that have neither arrived nor reported
failure. -/
def postedCount (s : State) (c : CoreId) : Nat :=
  (s.items.filter (fun i => decide (i.who.core = c))).length +
    (s.arrivals.filter (fun a => decide (a.who.core = c) && decide (a.kind ≠ 0) && !a.inc)).length +
    (s.copies.filter (fun j => decide (j.job.who.core = c) && j.job.packet.isNone)).length +
    (s.remotes.filter (fun m => decide (m.who.core = c))).length +
    (s.hubs.map (fun h => (h.2.amps.filter (fun a => decide (a.job.who.core = c) && a.job.packet.isNone)).length +
      (h.2.runs.filter (fun r => decide (r.job.who.core = c) && r.job.packet.isNone)).length)).foldl (· + ·) 0 +
    ((getCore s c).loads.filter (fun l => l.who.isSome)).length +
    (s.cores.map (fun ck => (ck.2.mq.filter (fun m => m.remote.isSome && decide (m.who.core = c))).length)).foldl (· + ·) 0 +
    ((getCore s c).mq.filter (fun m => match m.op with | .drain _ _ _ _ _ _ => m.remote.isNone | _ => false)).length

/-- A posted instruction may issue: fewer than 64 items, and no failure record held (R223, R227). -/
def itemRoom (s : State) (c : CoreId) : Bool := decide (postedCount s c < 64) && (getCore s c).heldRecs.isEmpty

/-- A segment is resident on a core (R329). -/
def isResident (k : Core) (seg : Nat) : Bool := decide (seg = 0) && k.base.isSome || k.resident.any (fun x => decide (x.id = seg))

/-- A segment is being loaded. -/
def isPending (k : Core) (seg : Nat) : Bool := k.loads.any (fun l => decide (l.seg.id = seg ∧ l.era = k.era))

/-- sr.cycle of a core's die (R154, R444). DESIGN CHOICE: log entry 13. -/
def cycleOf (s : State) (c : CoreId) : Nat :=
  let d := if isFp c then (c.n - 8192) / 4 else dieOf c.n
  s.clock - ((getPkg s c.pkg).dieRelease[d]?.getD 0)

/-- Commands that the thread issued and that name a tile, or any command of its (R306). A drain is complete once it has read its tile. -/
def cmdsOn (k : Core) (slot : Nat) (t : Option MReg) : Bool :=
  k.mq.any (fun m => decide (m.slot = slot) && m.remote.isNone && (match t with | some x => decide (m.tile = x.val) | none => true))

/-- The condition of a HELD thread is met (R39). -/
def heldMet (s : State) (c : CoreId) (slot : Nat) (t : Thread) (w : HeldOn) : Bool :=
  let k := getCore s c
  match w with
  | .accs => t.acc.isEmpty
  | .results => t.acc.isEmpty && t.out.isEmpty
  | .full => decide (t.out.length < 32)
  | .items => itemRoom s c
  | .pop d n => decide (n ≤ (k.nq[d]?.getD []).length) && !popsPending s c d && !lineTaken k slot t w
  | .push n d need => decide (nqUsed s c.pkg n d + need ≤ 8) && !lineTaken k slot t w && !netStopped s c.pkg n t.gslot
  | .mqueue => decide (k.mq.length < 8) && !lineTaken k slot t w
  | .unit u => !unitBusy s c u && !lineTaken k slot t w
  | .tiles x => !cmdsOn k slot x
  | .ownTiles => !tileCmds k slot
  | .mailbox dst => decide ((getCore s dst).mailbox.length < 64)
  | .wfi => !k.mailbox.isEmpty || (decide (k.timer ≠ 0) && decide (k.timer.toNat ≤ cycleOf s c))
  | .ticket _ => false
  | .shinv _ => false
  | .port => false
  | .ranges pid asid turn =>
    let p := getPkg s c.pkg
    !(p.held ++ p.faults ++ p.retries).any (fun q => decide (q.pid = pid ∧ q.asid = asid ∧ q.since < turn) && !q.refused)
  | .land pid asid page => !(getPkg s c.pkg).transits.any (fun x => decide (x.pid = pid ∧ x.asid = asid ∧ x.va = page) && x.landing.isSome)
  | .segment x => isResident k x || (decide (x ≠ 0) && !isPending k x)
  | .trap => false

/-- PHASE of a reel unit (R64). -/
def reelPhase (r : Reel) : Nat := fld r.reg 47 32

/-- The condition of a PARKED thread that its own core sees (R46); a future read without an eddy entry polls its line (R262). -/
def parkMet (s : State) (c : CoreId) (t : Thread) (w : ParkOn) : Bool :=
  let k := getCore s c
  match w with
  | .line a => !lineEmpty s t.gslot a
  | .barWait u p =>
    let d := (reelPhase (k.reel[u]?.getD Reel.reset) + 65536 - p % 65536) % 65536
    decide (1 ≤ d) && decide (d ≤ 32767)
  | .barArrive u p => decide (reelPhase (k.reel[u]?.getD Reel.reset) ≠ p)
  | .inbox => !k.inbox.isEmpty
  | .ring => (ringFree (getHub s c.pkg (clusterOf c.n))).isSome
  | .heap => (heapFree s c.pkg t.pid (clusterOf c.n)).isSome
  | .mailbox => !k.mailbox.isEmpty
  | _ => false

/-- Threads of a core whose condition is met become READY (R39). -/
def refresh (s : State) (c : CoreId) : State :=
  let k := getCore s c
  let f := fun (slot : Nat) (o : Option Thread) => o.map (fun t => match t.run with
    | .held w => if heldMet s c slot t w then { t with run := .ready } else t
    | .parked .heap _ => if parkMet s c t .heap then { t with run := .ready, woken := some 0 } else t
    | .parked w _ => if parkMet s c t w then { t with run := .ready } else t
    | .ready => t)
  setCore s c ((List.range 16).foldl (fun k i => setSlot k i (f i ((k.slots[i]?).join))) k)

/-- READY, or PARKED as its image had it: such a thread evaluates its condition at once, by trying its wait again (R39). -/
def mayTry (r : Run) : Bool :=
  match r with
  | .ready => true
  | .parked .restored _ => true
  | _ => false

/-- A slot can issue (R147, R396): READY, its switch marker satisfied, its segment in instruction memory (R375, R391). DESIGN CHOICE: log entry 23. -/
def canIssue (c : CoreId) (k : Core) (slot : Nat) : Bool :=
  match (k.slots[slot]?).join with
  | some t => mayTry t.run && (!t.marker || (t.acc.isEmpty && t.out.isEmpty)) && (isFp c || isResident k t.seg) && !k.halted && !t.halted
  | none => false

/-- The slot first in rotation after the one that issued last (R396). -/
def pickSlot (c : CoreId) (k : Core) : Option Nat :=
  ((List.range 16).map (fun i => (k.last + 1 + i) % 16)).find? (canIssue c k)

/-- A byte of instruction memory; what nothing has been loaded into is zero (R156, R444). DEDUCED: log entry 12. DESIGN CHOICE: log entry 71. -/
def imemByte : List Host.Cell → Nat → Byte
  | [], _ => 0
  | (a', b) :: m, a => if a' = a then b else imemByte m a

/-- The words from an address, at most five, below 0x2_0000 (R140). DESIGN CHOICE: log entry 71. -/
def fetchWords (m : List Host.Cell) (pc : Nat) : Nat → List Nat
  | 0 => []
  | k + 1 => if 0x1FFFE < pc then [] else ((imemByte m pc).toNat + 256 * (imemByte m (pc + 1)).toNat) :: fetchWords m (pc + 2) k

/-- A core can issue nothing where it is halted or has no slot that can issue. -/
def coreExists (s : State) (c : CoreId) : Bool := inJob s c.pkg && decide (c.n < 8208)

noncomputable section

/-- The row of `tlbsd` that gB's OP names (R405, R406). DEDUCED: log entry 70. -/
def refine (s : State) (i : Instr) : Instr :=
  match i with
  | .tlbsdInval o =>
    match getT s s.cur.core s.cur.slot with
    | some t =>
      match fld (readG s.tick t o.b) 63 60 with
      | 1 => .tlbsdTransit o
      | 2 => .tlbsdLand o
      | 3 => .tlbsdDiscard o
      | 4 => .tlbsdRanges o
      | 5 => .tlbsdResume o
      | 6 => .tlbsdRefuse o
      | _ => .tlbsdInval o
    | none => .tlbsdInval o
  | j => j

/-- The stores that are performed before an event: what only moves accesses and items on leaves the rest to the homes, every other waits for all. DESIGN CHOICE: log entry 7. -/
def settleBefore (i : Instr) (s : State) : State :=
  match i with
  | .accessAcceptance _ _ _ => drainSome s
  | .resultLanding _ _ _ => drainSome s
  | .postedItemDelivery _ => drainSome s
  | .countedArrival _ => drainSome s
  | .lateResultLanding _ => drainSome s
  | _ => drainAll s

/-- The rotation after an issue (R396): a slot whose instruction is found to wait, HELD or PARKED as its image had it, has issued nothing, and the
slot that issued last stays the last. -/
def keepLast (old : Nat) (s1 s2 : State) : State :=
  let c := s1.cur.core
  match getT s1 c s1.cur.slot, getT s2 c s1.cur.slot with
  | some t, some u =>
    let waits := match u.run with
      | .held .trap => false
      | .held _ => true
      | .parked _ _ => decide (t.run ≠ .ready)
      | .ready => false
    if u.seq = t.seq ∧ waits = true then modCore s2 c (fun k => { k with last := old }) else s2
  | _, _ => s2

end

end Sys2Proof.Machine
end

