-- ==== Sys2Proof/Machine/Access.lean ====
section
/-!
DEFINITION. Synchronous accesses from issue to landing (R84, R147 to R152, R212 to R217), read-modify-writes (R98, R99, R228, R229), and
posted items from issue to delivery (R212, R223 to R227).
-/
namespace Sys2Proof.Machine

/-! ## Issue of a synchronous access -/

/-- Size in bytes (R213). -/
def sizeBytes : Size → Nat
  | .d => 8 | .w => 4 | .h => 2 | .b => 1

def widthBytes : Width → Nat
  | .d => 8 | .w => 4

/-- The address of a memory operand (R213): base plus register, immediate or nothing, modulo 2^64. The register's value is the next of the list. -/
def offAddr (base : Dword) (off : Off) (x : Dword) : Dword :=
  match off with
  | .none => base
  | .reg _ => base + x
  | .imm v => base + BitVec.ofInt 64 v

def offUses : Off → List (GReg × Bool)
  | .reg r => [(r, false)]
  | _ => []

/-- The checks at issue of an address of n bytes, in the order in which R212 lists them: alignment, bits [63:60] (R74), the alias rule (R76); then
one window (R214). DEDUCED: log entry 20. DESIGN CHOICE: log entry 16. -/
def issueAddr (c : CoreId) (a : Dword) (n align : Nat) : Nat ⊕ Dword :=
  if a.toNat % align ≠ 0 then .inl 4
  else if 2 ^ 60 ≤ a.toNat then .inl 1
  else match resolve c a with
    | none => .inl 3
    | some r =>
      if windowOf (locOf a) ≠ windowOf ((locOf a + n - 1) % 2 ^ 48) ∨ 2 ^ 48 < locOf a + n then .inl 1
      else .inr r

/-- The kept elements of a vector destination are read under R148 where an earlier result to it is outstanding (R269). -/
def keepV (tick : Nat) (t : Thread) (d : Dst) : Thread :=
  match d with
  | .v r => { t with regs := t.regs.setV r (readV tick t r) }
  | _ => t

/-- Items and synchronous accesses are numbered in the order of their issue (R98). -/
def numbered (s : State) : State := { s with itemSeq := s.itemSeq + 1 }

/-- The thread's results of an access are outstanding and the access is on its way (R152). -/
def startAccess (s : State) (k : Ctx) (op : AccOp) (strong : Bool) (os : OrdSc) (dst : Option Dst)
    (shard : Option Nat := none) : State :=
  let t := k.t
  let a : Access := {
    seq := t.seq, no := s.itemSeq, op := op, strong := strong, os := os, pc := t.pc, seg := t.seg, words := s.cur.words, ck := t.regs, ckHandler := t.inHandler,
    pops := [], buffered := false, shard := shard }
  numbered (k.upd s (fun t =>
    let t := match dst with
      | some d => pushOut (keepV s.tick t d) d .none {} false
      | none => t
    { t with acc := t.acc ++ [a] }))

/-! ## Order of acceptance (R84, R152) -/

def AccOp.ranges : AccOp → List (Dword × Nat)
  | .read ps _ _ => ps
  | .write ps _ => ps.map (fun p => (p.1, p.2.length))
  | .sectors ps _ => ps.map (fun p => (p.1, p.2.length))
  | .rmw _ a n _ _ => [(a, n)]
  | .fill a bs => [(a, bs.length)]
  | .clear a => [(a, 128)]

def AccOp.isRead : AccOp → Bool
  | .read _ _ _ => true
  | _ => false

def acquires (o : Order) : Bool := match o with | .acq | .ar => true | _ => false
def releases (o : Order) : Bool := match o with | .rel | .ar => true | _ => false
def narrow (s : Scope) : Bool := match s with | .sys => false | _ => true

/-- A load or a returning read-modify-write. -/
def returnsValue : AccOp → Bool
  | .read _ _ _ => true
  | .rmw _ _ _ _ _ => true
  | _ => false

/-- Pages in transit read as they are mapped. -/
def mappedNow (s : State) : State := { s with pkgs := s.pkgs.map (fun x => (x.1, { x.2 with transits := [] })) }

/-- Two ranges of a core have a common byte, as they are named (PKG 0 is the core's own package, R74) or where their pages stand now. -/
def sameBytes (s : State) (w : Who) (a b : Dword × Nat) : Bool :=
  let meet := fun (x y : Nat) => decide (x < y + b.2) && decide (y < x + a.2)
  meet (physOf w.core a.1) (physOf w.core b.1) ||
    (match homeNow (mappedNow s) w a.1, homeNow (mappedNow s) w b.1 with
     | some x, some y => meet x y
     | _, _ => false)

/-- An earlier access is ordered before a later one by R84, or holds it back by R152 (writes and other effects leave in order). DEDUCED: log entry 35. -/
def orderedBefore (s : State) (w : Who) (a b : Access) : Bool :=
  !b.op.isRead || acquires a.os.ord || a.op.ranges.any (fun x => b.op.ranges.any (sameBytes s w x)) ||
    (returnsValue a.op && a.strong && b.strong && narrow a.os.scope && narrow b.os.scope)

/-- Access k of a thread may be accepted now. DEDUCED: log entry 35. -/
def mayAccept (s : State) (w : Who) (t : Thread) (k : Nat) : Bool :=
  match t.acc[k]? with
  | none => false
  | some b => (t.acc.take k).all (fun a => !orderedBefore s w a b)

/-! ## Read-modify-writes at the home (R98, R99, R228 to R232) -/

/-- The new value of n bytes (R99, R228). -/
def rmwNew (op : RmwOp) (n old y cmp : Nat) : Nat :=
  let w := 8 * n
  let o := old % 2 ^ w
  let v := y % 2 ^ w
  match op with
  | .add => (o + v) % 2 ^ w
  | .min => if toSigned w v < toSigned w o then v else o
  | .max => if toSigned w o < toSigned w v then v else o
  | .minu => if v < o then v else o
  | .maxu => if o < v then v else o
  | .and => Nat.land o v
  | .or => Nat.lor o v
  | .xor => Nat.xor o v
  | .swp => v
  | .cas => if o = cmp % 2 ^ w then v else o
  | .faddF32 => (fpArith .add fp32 .rne o v 0).1
  | .faddBf16 => (fpArith .add bf16 .rne o v 0).1

/-- Host memory takes FetchAdd, Swap and CAS of 32 and 64 bits only (R432). -/
def hostAtomic (op : RmwOp) (n : Nat) : Bool :=
  match op with
  | .add | .swp | .cas => decide (n = 4 ∨ n = 8)
  | _ => false

/-- How a read-modify-write is judged at its home (R229, R432). -/
def rmwKind (op : RmwOp) (n : Nat) : AKind := if op = .cas then .cas else if hostAtomic op n then .rmw else .rmwDev

/-! ## Performing accesses -/

/-- The outcome at the home. -/
inductive Done where
  | ok (s : State) (v : OutVal)
  | fail (s : State) (cause : Nat) (a : Dword)
  | wait (s : State) (a : Dword) (j : Judged)

/-- Every part of an access judged; on success the physical addresses. -/
def judgeAll (s : State) (w : Who) (k : AKind) : List (Dword × Nat) → State × (List Nat ⊕ Dword × Judged)
  | [] => (s, .inl [])
  | (a, n) :: l =>
    match judge s w a n k with
    | (s1, .ok ph _) => match judgeAll s1 w k l with
      | (s2, .inl ps) => (s2, .inl (ph :: ps))
      | r => r
    | (s1, j) => (s1, .inr (a, j))

/-- The bytes of an access lie in one window and one page (R214). DESIGN CHOICE: log entry 16. -/
def spanOk (s : State) (w : Who) (k : AKind) (parts : List Dword) (span : Nat) : Bool :=
  match parts with
  | [] => true
  | a :: _ => match (xlate s w a (decide (k ≠ .read))).2 with
    | .at_ _ lim _ _ => decide (span ≤ lim)
    | _ => true

def notOk (s : State) (a : Dword) (j : Judged) : Done :=
  match j with
  | .fail c => .fail s c a
  | _ => .wait s a j

/-- The register value of a read's bytes (R213, R218, R220, R221). -/
def landing (l : Land) (bs : List (List Byte)) : OutVal :=
  match l with
  | .scalar signed =>
    let b := bs.headD []
    .dword (if signed then BitVec.ofInt 64 (toSigned (8 * b.length) (leNat b)) else dw (leNat b))
  | .lanes pos => .vec ((pos.zip bs).map (fun x => (x.1, 8 * x.2.length, leNat x.2)))

/-- Pieces of an access at their physical addresses. -/
def placed {α : Type} (phs : List Nat) (ps : List (Dword × α)) : List (Nat × α) := (phs.zip ps).map (fun x => (x.1, x.2.2))

/-- An access judged at its home (R82, R217), all of it or nothing: reads and read-modify-writes are performed, a store's writes wait there: a plain
one's in the 64-byte halves that it touches (R27, R214), a vector store's by sectors (R81, R218). A compare and swap that finds another value is a
strong load (R229). -/
def perform (s : State) (w : Who) (slot seq : Nat) (op : AccOp) (strong pub : Bool) : Done :=
  match op with
  | .read ps span l =>
    if spanOk s w .read (ps.map (fun p => p.1)) span = false then .fail s 1 ((ps.headD (0, 0)).1) else
    (match judgeAll s w .read ps with
     | (s1, .inl phs) => .ok s1 (landing l ((ps.zip phs).map (fun x => readJudged s1 w x.1.1 x.2 x.1.2)))
     | (s1, .inr (a, j)) => notOk s1 a j)
  | .write ps span =>
    if spanOk s w .write (ps.map (fun p => p.1)) span = false then .fail s 1 ((ps.headD (0, [])).1) else
    (match judgeAll s w .write (ps.map (fun p => (p.1, p.2.length))) with
     | (s1, .inl phs) =>
       let l := (placed phs ps).flatMap (fun x => halfPieces (x.2.length + 1) x.1 x.2)
       .ok { s1 with wbuf := s1.wbuf ++ l.map (fun x =>
         { who := w, slot := slot, seq := seq, parts := [x], dest := pkgOf w.core ((ps.headD (0, [])).1), strong := strong, pub := pub }) } .none
     | (s1, .inr (a, j)) => notOk s1 a j)
  | .sectors ps span =>
    if spanOk s w .write (ps.map (fun p => p.1)) span = false then .fail s 1 ((ps.headD (0, [])).1) else
    (match judgeAll s w .write (ps.map (fun p => (p.1, p.2.length))) with
     | (s1, .inl phs) =>
       let l := placed phs ps
       .ok { s1 with wbuf := s1.wbuf ++ (bySector l).map (fun g =>
         { who := w, slot := slot, seq := seq, parts := g, dest := pkgOf w.core ((ps.headD (0, [])).1), strong := true, pub := pubSector l g }) } .none
     | (s1, .inr (a, j)) => notOk s1 a j)
  | .rmw op a n y cmp =>
    (match judge s w a n (rmwKind op n) with
     | (s1, .ok ph _) =>
       let old := readNat s1 w.gslot ph n
       let v : Dword := match op with
         | .faddF32 | .faddBf16 => dw old
         | _ => BitVec.ofInt 64 (toSigned (8 * n) old)
       if op = .cas ∧ old ≠ cmp.toNat % 2 ^ (8 * n) then .ok s1 (.dword v)
       else if op = .cas ∧ protectedBytes s1 w.gslot ph n = true then .fail s1 5 a
       else .ok (writeWord s1 w ph n (rmwNew op n old y.toNat cmp.toNat)) (.dword v)
     | (s1, j) => notOk s1 a j)
  | .fill a bs =>
    (match judge s w a bs.length .fill with
     | (s1, .ok ph _) => .ok (noteStrong (fillLine s1 w.gslot w.pid (lineOf ph) [(ph % 128, bs)]) w.gslot ph bs.length) .none
     | (s1, j) => notOk s1 a j)
  | .clear a =>
    (match judge s w a 128 .fill with
     | (s1, .ok ph _) =>
       if lineEmpty s1 w.gslot ph && decide (readNat s1 w.gslot (ph + 8) 8 ≠ 0) then .fail s1 5 a
       else .ok (setLine (writeWord s1 w ph 16 0) w.gslot ph false) .none
     | (s1, j) => notOk s1 a j)

/-! ## What a failed write leaves (R95, R217) -/

/-- The state before its links went down. -/
def healed (s : State) : State := { s with pkgs := s.pkgs.map (fun x => (x.1, { x.2 with linksDown := [] })) }

/-- One byte of a store whose link failed, which keeps its old value or takes the new one (R217). DESIGN CHOICE: log entry 9. -/
def leaveByte (w : Who) (strong : Bool) (s : State) (x : Dword × Byte) : State :=
  match judge (healed s) w x.1 1 .write with
  | (_, .ok ph _) => if Config.failedSector s.tick x.1.toNat then writeEvent s w [(ph, [x.2])] strong false else s
  | _ => s

/-- The bytes of a store whose link failed. DESIGN CHOICE: log entry 9. -/
def leaveBytes (s : State) (w : Who) (strong : Bool) (ps : List (Dword × List Byte)) : State :=
  (ps.flatMap (fun p => p.2.mapIdx (fun i b => (p.1 + dw i, b)))).foldl (leaveByte w strong) s

/-- Pieces by the sectors of their addresses, ascending. -/
def sectorsOf (ps : List (Dword × List Byte)) : List (List (Dword × List Byte)) :=
  (bySector (ps.map (fun p => (p.1.toNat, p.2)))).map (fun g => g.map (fun p => (dw p.1, p.2)))

/-- What a failed item, or a row of a copy, leaves in one sector, where all that it writes there could have been written before the failure: nothing,
so that the old value stays, or all of it (R95). DESIGN CHOICE: log entry 9. -/
def keptSector (w : Who) (s : State) (g : List (Dword × List Byte)) : List (Nat × List Byte) :=
  match judgeAll (healed s) w .write (g.map (fun p => (p.1, p.2.length))) with
  | (_, .inl phs) => if Config.failedSector s.tick ((g.headD (0, [])).1.toNat / 32) then placed phs g else []
  | _ => []

/-- One sector of a failed item (R95). DESIGN CHOICE: log entry 9. -/
def leaveSector (w : Who) (s : State) (g : List (Dword × List Byte)) : State := writeEvent s w (keptSector w s g) true false

/-- The sectors of a failed item. DESIGN CHOICE: log entry 9. -/
def leaveSectors (s : State) (w : Who) (ps : List (Dword × List Byte)) : State := (sectorsOf ps).foldl (leaveSector w) s

/-! ## Results (R147 to R149, R368) -/

/-- A register given its result. -/
def Regs.land (r : Regs) (d : Dst) (v : OutVal) : Regs :=
  match d, v with
  | .g i, .dword x => r.setG i x
  | .v i, .vec ps => r.setV i (BitVec.ofNat 1024 (putParts r.v[i].toNat ps))
  | .p i, .dword x => r.setP i (x.setWidth 32)
  | _, _ => r

/-- The value of a result known. -/
def setOut (t : Thread) (seq : Nat) (v : OutVal) : Thread :=
  { t with out := t.out.map (fun o => if o.seq = seq then { o with val := v, ready := true } else o) }

/-- Registers with a result: its value unless it is stale there, its flags in any case (R149). -/
def Out.into (o : Out) (r : Regs) (stale : Bool) : Regs :=
  let r1 := if stale then r else r.land o.dst o.val
  { r1 with fpc := setFlags r1.fpc o.flags }

/-- A result in the registers that a later access would go back to (R410). DEDUCED: log entry 14. -/
def landCk (o : Out) (a : Access) : Access :=
  if o.seq < a.seq then { a with ck := o.into a.ck (match o.staleBy with | some q => decide (q < a.seq) | none => false) } else a

/-- A result lands (R149, R125): in its register unless a later writer has made it stale, its flags in any case; and in the
checkpoints of later accesses, as R410 lets results of earlier instructions land. DEDUCED: log entry 14. -/
def landOut (t : Thread) (o : Out) : Thread :=
  { t with regs := o.into t.regs o.staleBy.isSome
           out := t.out.filter (fun x => !(decide (x.seq = o.seq) && decide (x.dst = o.dst)))
           acc := t.acc.map (landCk o) }

/-! ## Acceptance (R152, R217) -/

/-- Words popped from the queues of a crew image (R62, R373). -/
def imgPops (s : State) (netAt : Nat) (l : List (Nat × Nat)) : State :=
  l.foldl (fun s x =>
    let n := readNat s none (netAt + 128 + 8 * x.1) 8
    let ws := readNat s none (netAt + 32 * x.1) 32 / 2 ^ (32 * x.2)
    writeNat (writeNat s none (netAt + 32 * x.1) 32 ws) none (netAt + 128 + 8 * x.1) 8 (n - x.2)) s

/-- The words that an access has read leave the queues of its core, wherever these are: on the core, or in the image of the crew that they left with. -/
def commitPops (s : State) (w : Who) (l : List (Nat × Nat)) : State :=
  if l = [] then s
  else match s.redirects.find? (fun r => decide (r.pkg = w.core.pkg ∧ r.core = w.core.n ∧ some r.gslot = w.gslot ∧ r.crew = 0)) with
    | some r =>
      if readNat s none (r.image + 6) 1 / 2 % 2 = 1 then imgPops s (r.image + 64) l else modCore s w.core (fun k => dropPops k l)
    | none => modCore s w.core (fun k => dropPops k l)

/-- An access accepted: it leaves the list, its pops are committed, its result is known. -/
def accepted (s : State) (w : Who) (slot : Nat) (a : Access) (v : OutVal) : State :=
  commitPops (modT s w.core slot (fun t => setOut { t with acc := t.acc.filter (fun b => decide (b.seq ≠ a.seq)) } a.seq v)) w a.pops

/-- A failed access: the registers of its issue, and its precise trap (R217). DEDUCED: log entry 20. -/
def failAccess (s : State) (c : CoreId) (slot : Nat) (t : Thread) (a : Access) (cause : Nat) (addr : Dword) : State :=
  let t1 := rollback t a
  takeTrap (setT (dropReqs s (undone t t1)) c slot (some t1)) c slot
    { cls := clsAccess, cause := cause, addr := addr, aux := 0, pc := a.pc, seg := a.seg, words := a.words }

def isWrite : AccOp → Bool
  | .read _ _ _ => false
  | _ => true

/-- An accepted store of the thread and an access may have a common byte: equal addresses within a page of 64 KiB. -/
def mayMeet (b : BufWrite) (r : Dword × Nat) : Bool :=
  b.parts.any (fun p => decide ((p.1 + 2 ^ 16 - r.1.toNat % 2 ^ 16) % 2 ^ 16 < r.2) || decide ((r.1.toNat + 2 ^ 16 - p.1 % 2 ^ 16) % 2 ^ 16 < p.2.length))

/-- An accepted store that goes before a later request of its core to the same place: to another package (R440), or to the host where the request writes
there (R432). -/
def pairedWith (s : State) (w : Who) (targets writes : List Dword) (b : BufWrite) : Bool :=
  (decide (b.dest ≠ w.core.pkg) && targets.any (fun a => decide (pkgOf w.core a = b.dest))) || (decide (hostBase ≤ b.at_) && writes.any (onHost s w))

/-- Those stores performed before the request. -/
def settlePair (s : State) (w : Who) (targets writes : List Dword) : State :=
  drainWhere s (fun b => decide (b.who.core = w.core) && pairedWith s w targets writes b)

/-- What must be performed before an access arrives: the thread's earlier stores to its bytes, before a release all of them (R84); the core's stores
to the same other package or to the host (R432, R440); and every store before a line is emptied. DESIGN CHOICE: log entry 7. -/
def settleFor (s : State) (w : Who) (slot : Nat) (a : Access) : State :=
  let targets := a.op.ranges.map (fun r => r.1)
  match a.op with
  | .clear _ => drainAll s
  | _ =>
    drainWhere s (fun b => decide (b.who.core = w.core) &&
      ((decide (b.slot = slot) && (releases a.os.ord || a.op.ranges.any (mayMeet b))) ||
       pairedWith s w targets (if a.op.isRead then [] else targets) b))

/-- The address ranges that an item reads and writes. -/
def Item.reaches (i : Item) : List Dword := match i.op with | .getl src _ => [src, i.addr] | _ => [i.addr]

/-- A request of a core to another package waits there until every earlier one of the pair has been performed or has failed (R440): the core's items
and accesses with a lower number. -/
def farWaits (s : State) (c : CoreId) (no : Nat) (targets : List Dword) : Bool :=
  let far := (targets.map (pkgOf c)).filter (fun q => decide (q ≠ c.pkg))
  let meets := fun (l : List Dword) => l.any (fun a => far.contains (pkgOf c a))
  !far.isEmpty &&
    (s.items.any (fun i => decide (i.who.core = c) && decide (i.id < no) && meets i.reaches) ||
     (getCore s c).slots.toList.any (fun o => match o with
       | some t => t.acc.any (fun a => decide (a.no < no) && meets (a.op.ranges.map (fun r => r.1)))
       | none => false) ||
     s.lateAccs.any (fun l => decide (l.who.core = c) && decide (l.acc.no < no) && meets (l.acc.op.ranges.map (fun r => r.1))))

/-- A read-modify-write in an item's or an access's place. -/
def Item.adds (i : Item) : Bool := match i.op with | .red _ _ _ => true | .adds _ => true | _ => false
def AccOp.rmws : AccOp → Bool
  | .rmw _ _ _ _ _ => true
  | _ => false

/-- The bytes that an item's writes touch, for R224. -/
def Item.ranges (i : Item) : List (Dword × Nat) :=
  match i.op with
  | .store ps _ => ps.map (fun p => (i.addr + dw p.1, p.2.length))
  | .red _ n _ => [(i.addr, n)]
  | .adds ps => ps.map (fun p => (i.addr + dw p.off, match p.op with | .faddBf16 => 2 | _ => 4))
  | .getl _ _ => [(i.addr, 128)]

/-- The target bytes of a drain that still stands in the matrix queue, with the item number that it took at its issue (R303). -/
def drainRange (m : MCmd) : Option (Dword × Nat) :=
  match m.op with
  | .drain kind _ _ _ target _ => some (target, if kind = 2 then 256 else 1024)
  | _ => none

/-- The drain adds to its target (R303). -/
def MCmd.adds (m : MCmd) : Bool := match m.op with | .drain kind _ _ _ _ _ => decide (kind = 1) | _ => false

/-- An access waits: for the thread's earlier reductions of the same bytes, those of drains that still stand in the matrix queue among them (R98), for
earlier requests to its package (R440), for the core's earlier items to the host before a write there (R432). -/
def accWaits (s : State) (w : Who) (a : Access) : Bool :=
  let mine := s.items.filter (fun i => decide (i.who.core = w.core) && decide (i.id < a.no))
  let meets := fun (x : Dword × Nat) => a.op.ranges.any (sameBytes s w x)
  farWaits s w.core a.no (a.op.ranges.map (fun r => r.1)) ||
    (a.op.rmws && (mine.any (fun i => i.adds && i.ranges.any meets) ||
      (getCore s w.core).mq.any (fun m => m.adds && decide (m.seq < a.no) && (match drainRange m with | some r => meets r | none => false)))) ||
    (!a.op.isRead && a.op.ranges.any (fun r => onHost s w r.1) && (mine.any (fun i => onHost s w i.addr) ||
      s.copies.any (fun j => decide (j.job.who.core = w.core) && decide (j.id < a.no) && onHost s j.job.who j.dst)))

/-- A store that publishes a packet's slot (R382): a strong one of the dword at 0x38 with release at system scope. -/
def publishes (a : Access) : Bool :=
  a.strong && releases a.os.ord && !narrow a.os.scope && (match a.op with
    | .write [(x, bs)] _ => decide (bs.length = 8) && decide (x.toNat % 64 = 56)
    | _ => false)

/-- An access at its home. -/
def arriveAccess (s : State) (w : Who) (slot : Nat) (a : Access) : Done :=
  perform (settleFor s w slot a) w slot a.seq a.op a.strong (publishes a)

/-- What an access that has failed with a CAUSE leaves in memory (R217). -/
def accLeaves (s : State) (w : Who) (a : Access) (cause : Nat) : State :=
  match a.op with
  | .write ps _ | .sectors ps _ => if cause = 8 then leaveBytes s w a.strong ps else s
  | _ => s

/-- An access held in a port's list. -/
def markHeld (s : State) (c : CoreId) (slot seq : Nat) : State :=
  modT s c slot (fun x => { x with acc := x.acc.map (fun b => if b.seq = seq then { b with buffered := true } else b) })

/-- Access k of a thread arrives at its home. DESIGN CHOICE: log entry 7. -/
def tryAccess (s : State) (c : CoreId) (slot k : Nat) : State :=
  match getT s c slot with
  | none => s
  | some t =>
    match t.acc[k]? with
    | none => s
    | some a =>
      let w := whoOf c t
      let r : Req := .access c slot a.no
      if a.buffered || !mayAccept s w t k || accWaits s w a then s
      else match a.op.ranges.findSome? (fun x => portBehind s w x.1 r) with
        | some x => markHeld (holdBehind s x r).1 c slot a.seq
        | none => match arriveAccess s w slot a with
          | .ok s1 v => accepted s1 w slot a v
          | .fail s1 cause addr => failAccess (accLeaves s1 w a cause) c slot t a cause addr
          | .wait s1 addr (.fault _ _ pg hp hf) =>
            let t1 := rollback t a
            let s2 := dropReqs s1 (undone t t1)
            if t1.trap.isSome then setT s2 c slot (some { t1 with run := .held .trap })
            else
              let f := faultTicket (setT s2 c slot (some t1)) c slot a.words addr (isWrite a.op) pg hp hf
              modT f.1 c slot (fun x => { x with run := .held f.2 })
          | .wait s1 addr (.transit p st pg) => markHeld (holdAtPort s1 w addr (.transit p st pg) (isWrite a.op) r).1 c slot a.seq
          | .wait s1 _ (.asleep p q) => wakeCluster s1 p q
          | .wait s1 _ _ => s1

/-! ## Accesses of saved threads (R148, R372) -/

/-- The registers and the PC of an image as an access of its thread found them at its issue (R152, R410): the thread is READY at it. -/
def rewindImage (s : State) (l : LateAcc) : State :=
  let al := l.allot
  let r := l.acc.ck
  let a := l.img
  let put := fun (s : State) (off : Nat) (bs : List Byte) => writeBytes s none (a + off) bs
  let d0 := readNat s none a 8
  let d1 := readNat s none (a + 8) 8
  let d0' := d0 - d0 / 2 ^ 57 % 2 * 2 ^ 57 + bit l.acc.ckHandler 57
  let d0' := d0' - d0' / 2 ^ 48 % 2 ^ 8 * 2 ^ 48 + 2 ^ 48
  let s1 := put (put s 0 (leBytes 8 d0')) 8 (leBytes 8 (d1 / 2 ^ 48 * 2 ^ 48 + l.acc.seg * 2 ^ 32 + l.acc.pc))
  let s2 := put (put (put s1 0x20 (leBytes 8 r.fpc.toNat)) 0x40 (r.nf.toList.flatMap (fun x => leBytes 2 x.toNat))) 0x54
    ((r.p.toList.drop 1).flatMap (fun x => leBytes 4 x.toNat))
  let s3 := put (put s2 0x108 (((r.g.toList.take al.g).drop 1).flatMap (fun x => leBytes 8 x.toNat))) (0x100 + 8 * al.g)
    ((r.v.toList.take al.v).flatMap (fun x => leBytes 128 x.toNat))
  put s3 (0x100 + 8 * al.g + 128 * al.v) ((r.t.toList.take al.a).flatMap (fun x => leBytes 1024 x.toNat))

/-- An entry of an image's outstanding list is marked LANDED and PENDING goes down (R372). -/
def markLanded (s : State) (img : Nat) (entry : Option Nat) : State :=
  match entry with
  | none => s
  | some e =>
    let at_ := img + 0x80 + 4 * e
    let s1 := writeNat s none at_ 4 (readNat s none at_ 4 % 2 ^ 31 + 2 ^ 31)
    let d := readNat s1 none (img + 0x38) 8
    writeNat s1 none (img + 0x38) 8 (if d / 2 ^ 8 % 2 ^ 8 = 0 then d else d - 2 ^ 8)

/-- A result of a saved thread that was stale is the last writer of its register again: it is listed in the image (R151, R372). -/
def relist (s : State) (l : Late) : State × Late :=
  let d := readNat s none (l.img + 0x38) 8
  let n := d % 2 ^ 8
  let fresh := { l with out := { l.out with staleBy := none } }
  if 32 ≤ n then (s, fresh)
  else (writeNat (writeNat s none (l.img + 0x80 + 4 * n) 4 (outCode l.out.dst)) none (l.img + 0x38) 8 (d + 1 + 2 ^ 8), { fresh with entry := some n })

/-- The results of an image whose thread goes back to an instruction, those that no later writer makes stale any more listed. -/
def relistAll (img q : Nat) : State → List Late → State × List Late
  | s, [] => (s, [])
  | s, l :: ls =>
    let r := if decide (l.img = img) && l.out.staleBy.any (fun x => decide (q ≤ x)) then relist s l else (s, l)
    let t := relistAll img q r.1 ls
    (t.1, r.2 :: t.2)

/-- A saved thread's access has failed or met a page fault: its image goes back to that access, which the thread issues again (R410); the results and
accesses issued from then on are dropped. DESIGN CHOICE: log entry 22. -/
def failLate (s : State) (l : LateAcc) : State :=
  let gone := fun (x : Late) => decide (x.img = l.img) && decide (l.acc.seq ≤ x.out.seq)
  let y := relistAll l.img l.acc.seq (rewindImage s l) (s.lates.filter (fun x => !gone x))
  let s1 := (s.lates.filter gone).foldl (fun s x => markLanded s x.img x.entry) y.1
  let out := (s.lateAccs.filter (fun x => decide (x.img = l.img) && decide (l.acc.seq ≤ x.acc.seq) && x.acc.buffered)).map (fun x => x.acc.no)
  { dropReqs s1 out with
    lates := y.2
    lateAccs := s1.lateAccs.filter (fun x => !(decide (x.img = l.img) && decide (l.acc.seq ≤ x.acc.seq))) }

/-- An access of a saved thread arrives at its home, in its place among those of its image (R152). DESIGN CHOICE: log entries 7, 22. -/
def tryLate (s : State) (l : LateAcc) : State :=
  let w := l.who
  let r : Req := .access w.core l.slot l.acc.no
  let before := s.lateAccs.filter (fun x => decide (x.img = l.img) && decide (x.acc.no < l.acc.no))
  let held := fun (s : State) => { s with lateAccs := s.lateAccs.map (fun x => if x.acc.no = l.acc.no then { x with acc := { x.acc with buffered := true } } else x) }
  if l.acc.buffered || before.any (fun x => orderedBefore s w x.acc l.acc) || accWaits s w l.acc then s
  else match l.acc.op.ranges.findSome? (fun x => portBehind s w x.1 r) with
    | some x => held (holdBehind s x r).1
    | none => match arriveAccess s w l.slot l.acc with
      | .ok s1 v => { commitPops s1 w l.acc.pops with
          lateAccs := s1.lateAccs.filter (fun x => decide (x.acc.no ≠ l.acc.no))
          lates := s1.lates.map (fun x => if x.img = l.img ∧ x.out.seq = l.acc.seq then { x with out := { x.out with val := v, ready := true } } else x) }
      | .fail s1 cause _ => failLate (accLeaves s1 w l.acc cause) l
      | .wait s1 addr (.transit p st pg) => held (holdAtPort s1 w addr (.transit p st pg) (isWrite l.acc.op) r).1
      | .wait s1 _ (.asleep p q) => wakeCluster s1 p q
      | .wait s1 _ _ => failLate s1 l

/-! ## Posted items: issue (R212, R223) -/

/-- The flag of a posted item checked at issue (R91, R212): 0 is no flag; the resolved address otherwise, or the CAUSE. -/
def issueFlag (s : State) (c : CoreId) (f : Dword) : Nat ⊕ Dword :=
  if f = 0 then .inr 0
  else match issueAddr c f 8 8 with
    | .inl n => .inl n
    | .inr r =>
      let p := pkgOf c r
      if p ≠ c.pkg ∧ inJob s p = false then .inl 3
      else if windowOf (locOf r) = .none then .inl 1
      else .inr r

/-- The KIND and details of a posted item sent off. -/
def sendItem (s : State) (k : Ctx) (kind : Nat) (op : ItemOp) (addr flag : Dword) (share : Nat) (note : Bool) (pub : Bool := false) : State :=
  let i : Item := {
    id := s.itemSeq, who := k.who, kind := kind, op := op, addr := addr, flag := flag, share := share, domain := k.t.domain, note := note,
    stage := .sent, pub := pub }
  { s with items := s.items ++ [i], itemSeq := s.itemSeq + 1 }

/-- The checks that every posted instruction makes (R212, R223, R225): the alignment of target and flag, then their windows; then its item. `n`
target bytes, aligned to `align`; `win` says whether the target's window can take the operation. -/
def posted (s : State) (k : Ctx) (target flag : Dword) (n align : Nat) (win : Dword → Bool) (body : Dword → Dword → Res) : Res :=
  if target.toNat % align = 0 ∧ flag.toNat % 8 ≠ 0 then Res.access s 4 flag
  else match issueAddr k.c target n align with
  | .inl c => Res.access s c target
  | .inr a =>
    match issueFlag s k.c flag with
    | .inl c => Res.access s c flag
    | .inr f =>
      if windowOf (locOf a) = .none ∨ win a = false then Res.access s 1 target
      else if itemRoom s k.c then body a f else .hold s .items

/-! ## Posted items: delivery -/

/-- Lowest and highest byte of a strided side of a layout record, relative to its base (R320). -/
def strideSpan (esize : Nat) (dims : List (Nat × Int)) : Int × Int :=
  dims.foldl (fun b d =>
    let x := (d.1 - 1 : Int) * d.2
    if x < 0 then (b.1 + x, b.2) else (b.1, b.2 + x)) (0, 2 ^ esize - 1)

/-- EXTk with SSTRk (side 0) or DSTRk (side 1) of a layout record (R318). -/
def layoutDims (rcd : Nat) (side : Nat) : List (Nat × Int) :=
  (List.range 4).map (fun k => (rcd / 2 ^ (64 + 32 * k) % 2 ^ 32, toSigned 32 (rcd / 2 ^ (192 + 128 * side + 32 * k) % 2 ^ 32)))

/-- The destination bytes of a copy, from the lowest to the highest (R320). -/
def copyRange (j : CopyJob) : Dword × Nat :=
  let b := strideSpan (j.rcd.toNat % 256) (layoutDims j.rcd.toNat 1)
  (BitVec.ofInt 64 ((j.dst.toNat : Int) + b.1), (b.2 - b.1 + 1).toNat)

/-- An earlier item of the same core that overlaps is still to be performed, or an earlier copy or drain still waits (R224); or an earlier request
to the same package (R440), or to the host (R432). -/
def itemBlocked (s : State) (i : Item) : Bool :=
  let mine := s.items.filter (fun j => decide (j.who.core = i.who.core) && decide (j.id < i.id))
  let meets := fun (r : Dword × Nat) => i.ranges.any (sameBytes s i.who r)
  s.copies.any (fun j => decide (j.job.who.core = i.who.core) && decide (j.id < i.id) && meets (copyRange j)) ||
    mine.any (fun j => j.ranges.any meets) ||
    (getCore s i.who.core).mq.any (fun m => match drainRange m with
      | some r => decide (m.seq < i.id) && meets r
      | none => false) ||
    farWaits s i.who.core i.id i.reaches || (onHost s i.who i.addr && (mine.any (fun j => onHost s j.who j.addr) ||
      s.copies.any (fun j => decide (j.job.who.core = i.who.core) && decide (j.id < i.id) && onHost s j.job.who j.dst)))

/-- The bytes of an item's parts judged, and the parts that were written where every one may be. -/
def storeParts (s : State) (w : Who) (a : Dword) (kind : AKind) (ps : List (Nat × List Byte)) : State × (List Nat ⊕ Dword × Judged) :=
  judgeAll s w kind (ps.map (fun p => (a + dw p.1, p.2.length)))

/-- The element of an add (R99, R232). -/
def addBytes (op : RmwOp) : Nat := match op with | .faddBf16 => 2 | _ => 4

/-- Element adds at physical addresses: those of one sector are one event, the sectors ascending (R98, R232). -/
def addSectors (s : State) (w : Who) (l : List (Nat × AddPart)) : State :=
  (sortBy (fun a b => decide (a ≤ b)) (l.map (fun x => x.1 / 32)).eraseDups).foldl (fun s k =>
    writeEvent s w ((l.filter (fun x => decide (x.1 / 32 = k))).map (fun x =>
      let n := addBytes x.2.op
      (x.1, leBytes n (rmwNew x.2.op n (readNat s w.gslot x.1 n) x.2.v 0)))) true false) s

/-- The four sectors of a line from an address. -/
def lineSectors (a : Dword) : List (Dword × Nat) := [(a, 32), (a + 32, 32), (a + 64, 32), (a + 96, 32)]

/-- A posted scalar store of a packet's last dword with `.rel` at system scope publishes it (R382). -/
def Item.publishes (i : Item) (ps : List (Nat × List Byte)) : Bool :=
  i.pub && (match ps with
    | [(off, bs)] => decide (bs.length = 8) && decide ((i.addr.toNat + off) % 64 = 56)
    | _ => false)

/-- An item performed at the homes of its bytes (R225 to R232, R303): one sector write for each sector, ascending (R85). The source of a `getl` is read
sector by sector, after the stores that the core's threads have made (R100). -/
def performItem (s : State) (i : Item) : Done :=
  let w := i.who
  match i.op with
  | .store ps fill =>
    (match storeParts s w i.addr (if fill then .fill else .write) ps with
     | (s1, .inl phs) =>
       let l := placed phs (ps.map (fun p => (i.addr, p.2)))
       if fill then
         match l with
         | x :: _ =>
           let line := lineOf x.1
           .ok (l.foldl (fun s x => noteStrong s w.gslot x.1 x.2.length) (fillLine s1 w.gslot w.pid line (l.map (fun x => (x.1 - line, x.2))))) .none
         | [] =>
           (match judge s1 w i.addr 1 .fill with
            | (s2, .ok ph _) => .ok (fillLine s2 w.gslot w.pid (lineOf ph) []) .none
            | (s2, j) => notOk s2 i.addr j)
       else if i.publishes ps then .ok (writeEvent s1 w l true true) .none
       else .ok (sectorWrites s1 w l) .none
     | (s1, .inr (a, j)) => notOk s1 a j)
  | .red op n v =>
    (match judge s w i.addr n .rmwDev with
     | (s1, .ok ph _) => .ok (writeWord s1 w ph n (rmwNew op n (readNat s1 w.gslot ph n) v.toNat 0)) .none
     | (s1, j) => notOk s1 i.addr j)
  | .adds ps =>
    (match judgeAll s w .rmwDev (ps.map (fun p => (i.addr + dw p.off, addBytes p.op))) with
     | (s1, .inl phs) => .ok (addSectors s1 w (phs.zip ps)) .none
     | (s1, .inr (a, j)) => notOk s1 a j)
  | .getl src fill =>
    (match judgeAll (drainWhere s (fun b => decide (b.who.core = w.core))) w .read (lineSectors src) with
     | (s1, .inl phs) =>
       let bs := ((lineSectors src).zip phs).map (fun x => readJudged s1 w x.1.1 x.2 32)
       (match judge s1 w i.addr 128 (if fill then .fill else .write) with
        | (s2, .ok pd _) =>
          if fill then .ok (noteStrong (fillLine s2 w.gslot w.pid (lineOf pd) [(0, bs.flatten)]) w.gslot pd 128) .none
          else .ok (sectorWrites s2 w (bs.mapIdx (fun k b => (pd + 32 * k, b)))) .none
        | (s2, j) => notOk s2 i.addr j)
     | (s1, .inr (a, j)) => notOk s1 a j)

/-- The arrival of an item that has been performed or has failed; an item without a flag makes none (R92, R95). DESIGN CHOICE: log entry 36. -/
def itemEnd (s : State) (i : Item) (failed : Bool) : State :=
  let s1 := { s with items := s.items.filter (fun j => decide (j.id ≠ i.id)) }
  let s2 := if failed then s1 else returnWeight s1 i.who i.domain i.share
  if i.flag = 0 then (if failed then returnWeight s2 i.who i.domain i.share else s2)
  else sendArrival s2 { id := 0, who := i.who, kind := i.kind, flag := i.flag, inc := failed, share := if failed then i.share else 0,
                        domain := i.domain, addr := i.addr, tag := 0, stage := .sent, retry := i.retry, no := some i.id }

/-- The sectors of a `getl` whose source can be read, with their offsets. -/
def getlSectors (s : State) (i : Item) (src : Dword) : List (Nat × List Byte) :=
  ([0, 32, 64, 96] : List Nat).filterMap (fun k => match judge s i.who (src + dw k) 32 .read with
    | (s1, .ok ph _) => some (k, readJudged s1 i.who (src + dw k) ph 32)
    | _ => none)

/-- What failed element adds leave: those of a sector are all performed or none (R95, R232). DESIGN CHOICE: log entry 9. -/
def leaveAdds (s : State) (w : Who) (l : List (Dword × AddPart)) : State :=
  let at_ := fun (x : Dword × AddPart) => x.1.toNat / 32
  (sortBy (fun a b => decide (a ≤ b)) (l.map at_).eraseDups).foldl (fun s k =>
    let g := l.filter (fun x => decide (at_ x = k))
    match judgeAll (healed s) w .rmwDev (g.map (fun x => (x.1, addBytes x.2.op))) with
    | (_, .inl phs) => if Config.failedSector s.tick k then addSectors s w (phs.zip (g.map (fun x => x.2))) else s
    | _ => s) s

/-- What a failed item leaves: each sector its earlier value or the item's (R95); the line of a `getl` with `.fill` is full (R226). DESIGN CHOICE: log entry 9. -/
def itemLeaves (s : State) (i : Item) : State :=
  match i.op with
  | .store ps false => leaveSectors s i.who (ps.map (fun p => (i.addr + dw p.1, p.2)))
  | .getl src false => leaveSectors s i.who ((getlSectors s i src).map (fun p => (i.addr + dw p.1, p.2)))
  | .getl src true =>
    (match judge s i.who i.addr 128 .fill with
     | (s2, .ok ph _) => fillLine s2 i.who.gslot i.who.pid (lineOf ph)
       ((getlSectors s i src).filter (fun p => Config.failedSector s.tick ((i.addr + dw p.1).toNat / 32)))
     | (s2, _) => s2)
  | .adds ps => leaveAdds s i.who (ps.map (fun x => (i.addr + dw x.off, x)))
  | _ =>
    (match performItem (healed s) i with
     | .ok s1 _ =>
       if Config.failedSector s.tick (i.addr.toNat / 32) then
         s.pkgs.foldl (fun y x => modPkg y x.1 (fun k => { k with linksDown := x.2.linksDown })) s1
       else s
     | _ => s)

/-- The inbox record of a failed item (R227, R305), and what it leaves. DESIGN CHOICE: log entry 36. -/
def itemFail (s : State) (i : Item) (cause : Nat) : State :=
  let src := match i.op with | .getl src _ => some src | _ => none
  let addr := match src with | some a => if cause ≤ 3 then a else i.addr | none => i.addr
  itemEnd (itemLeaves (postRec s i.who (mkRec i.who i.kind cause addr i.flag 0 0)) i) i true

/-- A record of a drain that succeeded with NOTE (R303). -/
def itemNote (s : State) (i : Item) : State :=
  if i.note then postRec s i.who (mkRec i.who 0x10 0 i.addr i.flag 0 0) else s

def setStage (s : State) (id : Nat) (st : Stage) : State :=
  { s with items := s.items.map (fun i => if i.id = id then { i with stage := st } else i) }

/-- The access of an item that meets an absent page only reads there: the source of a `getl` (R226). -/
def Item.readAt (i : Item) (s : State) (a : Dword) : Bool :=
  match i.op, (xlate s i.who a false).2 with
  | .getl src _, .fault _ _ _ _ _ => (lineSectors src).any (fun x => decide (x.1 = a))
  | _, _ => false

/-- An item arrives at the homes of its bytes, after what its core has sent there before (R432, R440). DESIGN CHOICE: log entry 36. -/
def tryItem (s : State) (i : Item) : State :=
  if itemBlocked s i then s
  else match i.reaches.findSome? (fun a => portBehind s i.who a (.item i.id)) with
    | some x => let r := holdBehind s x (.item i.id); setStage r.1 i.id r.2
    | none => match performItem (settlePair s i.who i.reaches [i.addr]) i with
      | .ok s1 _ => itemEnd (itemNote s1 i) i false
      | .fail s1 c _ => itemFail s1 i (itemCause c)
      | .wait s1 a j =>
        let r := holdAtPort s1 i.who a j (!i.readAt s1 a) (.item i.id)
        setStage r.1 i.id r.2

/-! ## Counted arrivals in order (R96) -/

/-- The place of an arrival among those of its core: its item's number, or its own where it has none. -/
def Arrival.key (a : Arrival) : Nat := a.no.getD a.id

/-- An item of the same core and flag, issued earlier, is being delivered again: its arrival comes first (R96). -/
def retryBefore (s : State) (a : Arrival) : Bool :=
  let same := fun (w : Who) (f : Dword) => decide (w.core = a.who.core) && decide (f ≠ 0) && sameBytes s a.who (f, 8) (a.flag, 8)
  s.items.any (fun i => i.retry && decide (i.id < a.key) && same i.who i.flag) ||
    s.arrivals.any (fun b => b.retry && decide (b.key < a.key) && same b.who b.flag)

/-- A counted arrival in its turn. -/
def tryArrival (s : State) (a : Arrival) : State := if retryBefore s a then s else (arrive s a).1

end Sys2Proof.Machine
end

