-- ==== Sys2Proof/Machine/Integer.lean ====
section
/-!
DEFINITION. The integer instructions of pages 0 and 1 (spec/06, R170 to R182). Each is one line over a shared operation.
-/
namespace Sys2Proof.Machine

def srcUses (nar : Bool) : Src → List (GReg × Bool)
  | .reg r => [(r, nar)]
  | .imm _ => []

/-- The value of a second source: the register read at position i, or the immediate (R144). -/
def srcVal (k : Ctx) (i : Nat) : Src → Dword
  | .reg _ => k.val i
  | .imm v => BitVec.ofInt 64 v

def isW : Width → Bool
  | .w => true | .d => false

/-- A fixed-latency scalar result with its flags (R125, R147). -/
def setG (s : State) (k : Ctx) (rd : GReg) (r : Dword × Flags) : Res := .ok (k.upd s (fun t => addFlags (writeG t rd r.1) r.2))

/-- A variable-latency scalar result whose value is known at issue (R147, R172). -/
def outG (s : State) (k : Ctx) (rd : GReg) (r : Dword × Flags) : Res :=
  .ok (k.upd s (fun t => pushOut t (.g rd) (.dword r.1) r.2 true))

/-- The result that an instruction has started occupies its unit until it lands (R172, R268). -/
def onUnit (u : LatUnit) (t : Thread) : Thread := { t with out := t.out.map (fun o => if o.seq = t.seq then { o with unit := some u } else o) }

def outU (s : State) (k : Ctx) (u : LatUnit) (rd : GReg) (r : Dword × Flags) : Res :=
  .ok (k.upd s (fun t => onUnit u (pushOut t (.g rd) (.dword r.1) r.2 true)))

/-- R173, R174, R181: `rd := x op y`. -/
def aluIssue (op : AluOp) (o : AluOps) (s : State) : Host.Outcome State Fault Refusal :=
  issue s o.pre { rg := (o.x, isW o.w) :: srcUses (isW o.w) o.y, wg := [(o.rd, isW o.w)] } (fun s k =>
    setG s k o.rd (aluRes op o.w (k.val 0) (srcVal k 1 o.y)))

/-- R177: the divisions, variable-latency, on the divide unit (R172), with DZ (R138). -/
def divIssue (op : AluOp) (o : AluOps) (s : State) : Host.Outcome State Fault Refusal :=
  issue s o.pre { rg := (o.x, isW o.w) :: srcUses (isW o.w) o.y, lg := [o.rd], lat := 1, unit := some .divide } (fun s k =>
    outU s k .divide o.rd (aluRes op o.w (k.val 0) (srcVal k 1 o.y)))

/-- R178: the high half of a product. -/
def mulhIssue (op : AluOp) (o : MulhOps) (s : State) : Host.Outcome State Fault Refusal :=
  issue s o.pre { rg := [(o.x, isW o.w), (o.y, isW o.w)], wg := [(o.rd, isW o.w)] } (fun s k =>
    setG s k o.rd (aluRes op o.w (k.val 0) (k.val 1)))

/-- R180: one operand. -/
def unIssue (op : UnOp) (o : UnOps) (s : State) : Host.Outcome State Fault Refusal :=
  issue s o.pre { rg := [(o.x, isW o.w)], wg := [(o.rd, isW o.w)] } (fun s k => setG s k o.rd (unRes op o.w (k.val 0), {}))

/-- R176: a compare writes every lane of a predicate. -/
def cmpIssue (op : ICmp) (o : CmpOps) (s : State) : Host.Outcome State Fault Refusal :=
  issue s o.pre { rg := (o.x, isW o.w) :: srcUses (isW o.w) o.y } (fun s k =>
    .ok (k.upd s (fun t => writeP t o.pd (allLanes (icmpRes op o.w (k.val 0) (srcVal k 1 o.y))))))

/-- ADD (R173). -/
def execAdd (o : AluOps) (s : State) : Host.Outcome State Fault Refusal := aluIssue .add o s
/-- SUB (R173). -/
def execSub (o : AluOps) (s : State) : Host.Outcome State Fault Refusal := aluIssue .sub o s
/-- AND (R173). -/
def execAnd (o : AluOps) (s : State) : Host.Outcome State Fault Refusal := aluIssue .and o s
/-- OR (R173). -/
def execOr (o : AluOps) (s : State) : Host.Outcome State Fault Refusal := aluIssue .or o s
/-- XOR (R173). -/
def execXor (o : AluOps) (s : State) : Host.Outcome State Fault Refusal := aluIssue .xor o s
/-- SHL (R174). -/
def execShl (o : AluOps) (s : State) : Host.Outcome State Fault Refusal := aluIssue .shl o s
/-- SHR (R174). -/
def execShr (o : AluOps) (s : State) : Host.Outcome State Fault Refusal := aluIssue .shr o s
/-- SAR (R174). -/
def execSar (o : AluOps) (s : State) : Host.Outcome State Fault Refusal := aluIssue .sar o s
/-- MUL (R173). -/
def execMul (o : AluOps) (s : State) : Host.Outcome State Fault Refusal := aluIssue .mul o s
/-- MIN (R181). -/
def execMin (o : AluOps) (s : State) : Host.Outcome State Fault Refusal := aluIssue .min o s
/-- MAX (R181). -/
def execMax (o : AluOps) (s : State) : Host.Outcome State Fault Refusal := aluIssue .max o s
/-- MINU (R181). -/
def execMinu (o : AluOps) (s : State) : Host.Outcome State Fault Refusal := aluIssue .minu o s
/-- MAXU (R181). -/
def execMaxu (o : AluOps) (s : State) : Host.Outcome State Fault Refusal := aluIssue .maxu o s
/-- ADDSAT (R181). -/
def execAddsat (o : AluOps) (s : State) : Host.Outcome State Fault Refusal := aluIssue .addsat o s
/-- SUBSAT (R181). -/
def execSubsat (o : AluOps) (s : State) : Host.Outcome State Fault Refusal := aluIssue .subsat o s
/-- ADDSATU (R181). -/
def execAddsatu (o : AluOps) (s : State) : Host.Outcome State Fault Refusal := aluIssue .addsatu o s
/-- SUBSATU (R181). -/
def execSubsatu (o : AluOps) (s : State) : Host.Outcome State Fault Refusal := aluIssue .subsatu o s
/-- DIV (R177). -/
def execDiv (o : AluOps) (s : State) : Host.Outcome State Fault Refusal := divIssue .div o s
/-- DIVU (R177). -/
def execDivu (o : AluOps) (s : State) : Host.Outcome State Fault Refusal := divIssue .divu o s
/-- REM (R177). -/
def execRem (o : AluOps) (s : State) : Host.Outcome State Fault Refusal := divIssue .rem o s
/-- REMU (R177). -/
def execRemu (o : AluOps) (s : State) : Host.Outcome State Fault Refusal := divIssue .remu o s
/-- MULH (R178). -/
def execMulh (o : MulhOps) (s : State) : Host.Outcome State Fault Refusal := mulhIssue .mulh o s
/-- MULHU (R178). -/
def execMulhu (o : MulhOps) (s : State) : Host.Outcome State Fault Refusal := mulhIssue .mulhu o s
/-- MULHSU (R178). -/
def execMulhsu (o : MulhOps) (s : State) : Host.Outcome State Fault Refusal := mulhIssue .mulhsu o s
/-- CLZ (R180). -/
def execClz (o : UnOps) (s : State) : Host.Outcome State Fault Refusal := unIssue .clz o s
/-- CTZ (R180). -/
def execCtz (o : UnOps) (s : State) : Host.Outcome State Fault Refusal := unIssue .ctz o s
/-- POPC (R180). -/
def execPopc (o : UnOps) (s : State) : Host.Outcome State Fault Refusal := unIssue .popc o s
/-- BSWAP (R180). -/
def execBswap (o : UnOps) (s : State) : Host.Outcome State Fault Refusal := unIssue .bswap o s
/-- SEXTB (R180). -/
def execSextB (o : UnOps) (s : State) : Host.Outcome State Fault Refusal := unIssue .sextB o s
/-- SEXTH (R180). -/
def execSextH (o : UnOps) (s : State) : Host.Outcome State Fault Refusal := unIssue .sextH o s
/-- SEXTW (R180). -/
def execSextW (o : UnOps) (s : State) : Host.Outcome State Fault Refusal := unIssue .sextW o s
/-- ZEXTB (R180). -/
def execZextB (o : UnOps) (s : State) : Host.Outcome State Fault Refusal := unIssue .zextB o s
/-- ZEXTH (R180). -/
def execZextH (o : UnOps) (s : State) : Host.Outcome State Fault Refusal := unIssue .zextH o s
/-- ZEXTW (R180). -/
def execZextW (o : UnOps) (s : State) : Host.Outcome State Fault Refusal := unIssue .zextW o s
/-- CEQ (R176). -/
def execCeq (o : CmpOps) (s : State) : Host.Outcome State Fault Refusal := cmpIssue .eq o s
/-- CLT (R176). -/
def execClt (o : CmpOps) (s : State) : Host.Outcome State Fault Refusal := cmpIssue .lt o s
/-- CLTU (R176). -/
def execCltu (o : CmpOps) (s : State) : Host.Outcome State Fault Refusal := cmpIssue .ltu o s
/-- MOV (R175). -/
def execMov (o : MovOps) (s : State) : Host.Outcome State Fault Refusal :=
  issue s o.pre { rg := srcUses false o.y, wg := [(o.rd, false)] } (fun s k => setG s k o.rd (srcVal k 0 o.y, {}))
/-- BFX (R179). -/
def execBfx (o : BitfOps) (s : State) : Host.Outcome State Fault Refusal :=
  issue s o.pre { rg := [(o.x, false)], wg := [(o.rd, false)] } (fun s k =>
    setG s k o.rd (BitVec.ofInt 64 (toSigned o.len (bfxu (k.val 0) o.pos o.len)), {}))
/-- BFXU (R179). -/
def execBfxu (o : BitfOps) (s : State) : Host.Outcome State Fault Refusal :=
  issue s o.pre { rg := [(o.x, false)], wg := [(o.rd, false)] } (fun s k => setG s k o.rd (dw (bfxu (k.val 0) o.pos o.len), {}))
/-- BFI: gA is a source too (R179). -/
def execBfi (o : BitfOps) (s : State) : Host.Outcome State Fault Refusal :=
  issue s o.pre { rg := [(o.rd, false), (o.x, false)], wg := [(o.rd, false)] } (fun s k =>
    setG s k o.rd (bfiRes (k.val 0) (k.val 1) o.pos o.len, {}))
/-- ADDSH (R182). -/
def execAddsh (o : AddshOps) (s : State) : Host.Outcome State Fault Refusal :=
  issue s o.pre { rg := [(o.x, false), (o.y, false)], wg := [(o.rd, false)] } (fun s k =>
    setG s k o.rd (k.val 0 + (k.val 1 <<< o.sh.val), {}))
/-- MOVH: the lower half of gA is kept (R182). -/
def execMovh (o : MovhOps) (s : State) : Host.Outcome State Fault Refusal :=
  issue s o.pre { rg := [(o.rd, false)], wg := [(o.rd, false)] } (fun s k =>
    setG s k o.rd (dw (o.imm % 2 ^ 32 * 2 ^ 32 + (k.val 0).toNat % 2 ^ 32), {}))

end Sys2Proof.Machine
end

