-- ==== Sys2Proof/Machine/TaskOps.lean ====
section
/-!
DEFINITION. The operations that the task and control instructions share: creating a thread (R34, R36, R38), ending one (R51, R57, R240), the
return of weight (R72), segments (R203), and deferring a future read (R59, R60).
-/
namespace Sys2Proof.Machine

/-- The frame of an instruction that applies the switch marker whatever its S bit (R205, R238). One that is predicated off applies it only where its
S bit is set (R145): the spec does not say that a `leave` with S = 0 applies it then. DESIGN CHOICE: log entry 75. -/
def issueMarked (s : State) (pre : Pre) (u : Uses) (body : State → Ctx → Res) : Host.Outcome State Fault Refusal :=
  let run := match getT s s.cur.core s.cur.slot with
    | some t => runs t pre
    | none => false
  issue s { pre with sw := pre.sw || run } u body

/-- A trap that the encoding alone decides: it is raised whatever the predicate (R145). DESIGN CHOICE: log entry 17. -/
def encodingTrap (s : State) (cause : Nat) : Host.Outcome State Fault Refusal :=
  issue s { sw := false, neg := false, pn := 0 } {} (fun s _ => Res.illegal s cause)

/-! ## Creating a thread -/

/-- Slot capacity of a kernel (R34). DEDUCED: log entry 58. -/
def slotCapacity (h : Header) : Nat :=
  let cap := fun (n total : Nat) => if n = 0 then 16 else total / n
  Nat.min 16 (Nat.min (cap h.g 512) (Nat.min (cap h.v 256) (cap h.a 8)))

/-- T of R36. -/
def stackTop : Nat := 0x800200080000

/-- The data base of a crew (R36). -/
def dataBase (h : Header) (crew : Nat) : Dword := dw (aliasSpad + crew * h.spad)

/-- The registers of a new thread (R38). -/
def newRegs (h : Header) (slot : Nat) (args : List Dword) (g3 : Dword) : Regs :=
  let g := (Vector.replicate 64 (0 : Dword)).set 2 (dw (stackTop - slot * h.stack)) |>.set 3 g3
  let g := g.set 4 (args.getD 0 0) |>.set 5 (args.getD 1 0) |>.set 6 (args.getD 2 0) |>.set 7 (args.getD 3 0)
  { Regs.zero with g := g, nf := Vector.ofFn (fun i => nfPresets.getD i.val 0) }

/-- A new thread of a grid, in a slot (R38, R43, R55). -/
def newThread (g : Grid) (gslot slot seg pc : Nat) (args : List Dword) (g3 : Dword) (weight domain group tid crew prio : Nat) : Thread :=
  {
    regs := newRegs g.hdr slot args g3, allot := { g := g.hdr.g, v := g.hdr.v, a := g.hdr.a }, net := g.hdr.net, pc := pc, seg := seg, pid := g.pid,
    asid := g.asid, gslot := some gslot, kernel := g.kernel, domain := domain, weight := weight, group := group, tid := tid, crew := crew,
    prio := prio, slim := dw (stackTop - (slot + 1) * g.hdr.stack), inHandler := false, run := .ready, marker := false, seq := 0, out := [],
    acc := [], trap := none, woken := none, halted := false, parkedAt := 0 }

/-- The FREE slot of lowest number within capacity (R50). DESIGN CHOICE: log entry 28. -/
def freeSlotOf (k : Core) (h : Header) : Option Nat :=
  (List.range (slotCapacity h)).find? (fun i => ((k.slots[i]?).join).isNone)

/-- The positions of a cluster in rotation after the one that came last (R55). -/
def rotation (last : Nat) : List Nat := (List.range 16).map (fun i => (last + 1 + i) % 16)

/-- A core can take a thread of a grid that starts in a segment: its tenancy, a FREE slot, the segment (R55, R238). DESIGN CHOICE: log entry 28. -/
def takesThread (s : State) (p n : Nat) (gslot : Nat) (h : Header) (seg : Nat) : Option Nat :=
  let k := getCore s { pkg := p, n := n }
  if k.tenancy = some gslot ∧ isResident k seg then freeSlotOf k h else none

/-! ## Segments (R168, R203) -/

/-- LOAD and SIZE of a segment that a core holds. -/
def segBounds (k : Core) (seg : Nat) : Nat × Nat :=
  if seg = 0 then (0, match k.base with | some b => b.2 | none => 0x20000)
  else match k.resident.find? (fun x => decide (x.id = seg)) with
    | some x => (x.load, x.size)
    | none => (0, 0)

/-- A target lies in its segment (R203): LOAD..LOAD+SIZE−2, or below BASESIZE. -/
def inSegment (k : Core) (seg target : Nat) : Bool :=
  let b := segBounds k seg
  decide (b.1 ≤ target) && decide (target + 2 ≤ b.1 + b.2)

/-- A valid target (R197). -/
def validTarget (t : Int) : Bool := decide (0 ≤ t) && decide (t ≤ 0x1FFFE) && decide (t % 2 = 0)

/-- A transfer of control within the segment (R197). DESIGN CHOICE: log entry 17. -/
def transfer (s : State) (k : Ctx) (target : Int) (f : Thread → Thread) : Res :=
  if validTarget target then .jump (k.upd s f) target.toNat k.t.seg else Res.illegal s 3

/-- A transfer into a named segment, from the check of residency onward (R203, R207). Segment 0 counts as resident always: where an error has taken it
(R422), the thread is HELD until it has been fetched again. -/
def enterSegment (s : State) (k : Ctx) (seg : Nat) (target : Nat) (go : State → Nat → Nat → Res) : Res :=
  let core := getCore s k.c
  let here := isResident core seg || (isFp k.c && decide (seg = 0))
  if !here && decide (seg ≠ 0) && !isPending core seg then Res.access s 10 (dw seg)
  else if !here then .hold s (.segment seg)
  else if validTarget target && inSegment core seg target then go s target seg
  else Res.illegal s 3

/-! ## Ending a thread -/

/-- What the end of a thread waits for: results and accesses as at a switch marker (R51, R57), then commands on its tiles (R294). -/
def endHold (s : State) (k : Ctx) : Option HeldOn :=
  match getT s k.c k.slot with
  | none => none
  | some t =>
    if t.out ≠ [] ∨ t.acc ≠ [] then some .results
    else if tileCmds (getCore s k.c) k.slot then some .ownTiles else none

/-- Weight added to the root of the thread's domain at once, a release at the domain's scope (R72): the thread's earlier stores are performed. -/
def giveBack (s : State) (k : Ctx) (domain amount : Nat) (body : State → Res) : Res :=
  if domain = 0 then body s
  else match rootOf s k.c.pkg k.t.pid domain with
    | none => Res.access s 11 (dw domain)
    | some (a, _) => reach s k a 8 .rmw (fun s ph =>
        body (writeWord s k.who ph 8 ((readNat s k.t.gslot ph 8 + amount) % 2 ^ 64)))

/-- QUIT (R51, R240): results land, the weight returns, the slot becomes FREE. DESIGN CHOICE: log entry 31. -/
def quitRes (s : State) (k : Ctx) : Res :=
  match endHold s k with
  | some w => .hold s w
  | none => giveBack s k k.t.domain k.t.weight (fun s =>
      .gone (freeSlot (decLive (leaveGroup s k.c k.t k.slot) k.c.pkg k.t.gslot) k.c k.slot))

/-- SUSP (R57, R241): the thread becomes a READY record of its own cluster. DESIGN CHOICE: log entry 31. -/
def suspRes (s : State) (k : Ctx) : Res :=
  match endHold s k with
  | some w => .hold s w
  | none =>
    let r := appendRing s k.c.pkg (clusterOf k.c.n) (threadRec k.t k.t.regs.g k.next false)
    if r.2 then .gone (freeSlot (leaveGroup r.1 k.c k.t k.slot) k.c k.slot) else .park s .ring

/-- The DEFERRED record of a future read (R59, R60): into the heap, onto the line's list, and the slot is FREE. -/
def deferRes (s : State) (k : Ctx) (line : Nat) : Res :=
  match endHold s k with
  | some w => .hold s w
  | none =>
    let cl := clusterOf k.c.n
    match heapFree s k.c.pkg k.t.pid cl with
    | none => .park s .heap
    | some i =>
      let old := readNat s k.t.gslot line 8
      let count := readNat s k.t.gslot (line + 8) 8
      let r := { threadRec k.t k.t.regs.g k.t.pc true with pc := k.t.pc + old % 2 ^ 16 * 2 ^ 32, state := 3 }
      let s1 := writeNat s none (heapAt s k.c.pkg k.t.pid cl i) 64 r.bits
      let s2 := writeNat (writeNat s1 k.t.gslot line 8 (i + 1)) k.t.gslot (line + 8) 8 (count + 1)
      .gone (freeSlot (leaveGroup s2 k.c k.t k.slot) k.c k.slot)

end Sys2Proof.Machine
end

