-- ==== Sys2Proof/Machine/Blocks.lean ====
section
/-!
DEFINITION. The registers of a partition block (R359), the requests that PREEMPT (R369) and IMGCTL (R376) take, and the crews that a halt
moves (R369, R373).
-/
namespace Sys2Proof.Machine

/-! ## Crews on cores -/

/-- A crew is off its core, in an image (R48). -/
def isOffCore (s : State) (p n gslot crew : Nat) : Bool :=
  s.redirects.any (fun r => decide (r.pkg = p ∧ r.core = n ∧ r.gslot = gslot ∧ r.crew = crew))

/-- The crew indices of a grid on a core, with the slots of each crew's stacks: those of its placed groups, and those that threads
of no group have. -/
def crewsOn (s : State) (p gslot n : Nat) : List (Nat × List Nat) :=
  let k := getCore s { pkg := p, n := n }
  let placed := match getGrid s p gslot with
    | some g => g.groups.flatMap (fun r => if r.out then [] else
        r.crews.filterMap (fun x => if x.core = n ∧ isOffCore s p n gslot x.crew = false then some (x.crew, x.slots) else none))
    | none => []
  let others := (List.range 16).filterMap (fun i => match (k.slots[i]?).join with
    | some t => if t.gslot = some gslot ∧ !placed.any (fun x => decide (x.1 = t.crew)) then some t.crew else none
    | none => none)
  placed ++ others.eraseDups.map (fun c => (c, crewSlots k gslot c))

/-- The cores whose tenancy is a grid. -/
def coresOf (s : State) (p gslot : Nat) : List Nat :=
  (s.cores.filter (fun ck => decide (ck.1.pkg = p) && decide (ck.2.tenancy = some gslot))).map (fun ck => ck.1.n)

/-- The crews that a halt takes: GSLOT, core and crew index. -/
def crewsOfGrid (s : State) (p gslot : Nat) : List (Nat × Nat × Nat) :=
  (coresOf s p gslot).flatMap (fun n => (crewsOn s p gslot n).map (fun x => (gslot, n, x.1)))

/-- The live grids of a partition. -/
def liveGrids (s : State) (p pid : Nat) : List Nat :=
  (List.range 255).filter (fun g => match getGrid s p g with
    | some x => decide (x.pid = pid) && liveOf x.st
    | none => false)

/-- The target of a halt (R369). -/
def haltTarget (s : State) (p pid op gslot core : Nat) : List (Nat × Nat × Nat) :=
  match op with
  | 0 => crewsOfGrid s p gslot
  | 1 => (liveGrids s p pid).flatMap (crewsOfGrid s p)
  | _ => (crewsOfGrid s p gslot).filter (fun x => decide (x.2.1 = core))

/-- The slots of a crew's stacks: those of its threads, and those that its launched threads left trapped (R365). -/
def homeSlots (s : State) (p gslot n crew : Nat) : List Nat :=
  let k := getCore s { pkg := p, n := n }
  let mine := crewSlots k gslot crew
  let placed := match (crewsOn s p gslot n).find? (fun x => decide (x.1 = crew)) with
    | some x => x.2
    | none => []
  (List.range 16).filter (fun i => mine.contains i || (placed.contains i && ((k.slots[i]?).join).isNone))

/-- Bytes that the images of crews take, and the closing dword (R373). -/
def needOf (s : State) (p : Nat) (l : List (Nat × Nat × Nat)) : Nat :=
  8 + (l.map (fun x => match getGrid s p x.1 with
    | some g => crewLen s { pkg := p, n := x.2.1 } x.1 x.2.2 g.hdr (homeSlots s p x.1 x.2.1 x.2.2)
    | none => 0)).foldl (· + ·) 0

/-! ## PREEMPT and IMGCTL -/

def pstatState (b : PBlock) : Nat := fld b.pstat 63 62

/-- PSTAT with a STATE and an error (R369). -/
def pstatOf (st need err : Nat) : Dword := dw (st * 2 ^ 62 + need % 2 ^ 32 * 2 ^ 8 + err)

/-- A write to PREEMPT (R369): refused with ERR, or the halt or the resume is in progress; a halt makes STATE 1, a resume leaves it until it ends. DESIGN
CHOICE: log entry 48. -/
def preemptWrite (s : State) (p pid : Nat) (v : Dword) : State :=
  let b := block s p pid
  let op := fld v 63 62
  let gs := fld v 55 48
  let core := fld v 12 0
  let st := pstatState b
  let err := fun (st need e : Nat) => modBlock s p pid (fun b => { b with pstat := pstatOf st need e })
  let busy := (getPkg s p).preempts.any (fun x => decide (x.pid = pid))
  if busy = true ∨ (op ≠ 3 ∧ st ≠ 0) then err st 0 3
  else
    let target := haltTarget s p pid op gs core
    let bad := decide (op = 0 ∨ op = 2) && (!(liveGrids s p pid).contains gs || (decide (op = 2) && target.isEmpty))
    if bad then err st 0 2
    else
      let need := needOf s p target
      if op ≠ 3 ∧ b.pasize.toNat < need then err st need 1
      else
        let s1 := modBlock s p pid (fun b => { b with pstat := pstatOf (if op = 3 then st else 1) 0 0 })
        let q : Preempt := { pid := pid, op := op, gslot := gs, core := core, was := st, todo := [], at_ := 0 }
        modPkg s1 p (fun k => { k with preempts := k.preempts.filter (fun x => decide (x.pid ≠ pid)) ++ [q] })

/-- A write to IMGCTL (R376): busy with a RESTORE or DISCARD; a reserved OP is refused. While busy it has no effect. DESIGN CHOICE: log entry 49. -/
def imgctlWrite (s : State) (p pid : Nat) (v : Dword) : State :=
  let op := fld v 63 62
  modBlock s p pid (fun b =>
    if b.imgreq.isSome then b
    else if op = 1 ∨ op = 2 then { b with istat := 1, imgreq := some (op, fld v 47 6 * 64) }
    else { b with istat := 2 })

/-! ## The registers (R359) -/

/-- Register k of a block; none where there is none. -/
def blockRead (s : State) (p pid k : Nat) : Option Dword :=
  let b := block s p pid
  match k with
  | 0 => some b.pctl
  | 1 => some b.fpmap
  | 2 => some b.domtab
  | 3 => some b.heap
  | 4 => some b.shardtab
  | 5 => some b.trapq
  | 6 => some (dw b.tqtail)
  | 7 => some b.tqhead
  | 8 => some b.imgpool
  | 9 => some b.imgsize
  | 10 => some 0
  | 11 => some b.parea
  | 12 => some b.pasize
  | 13 => some b.pstat
  | 14 => some 0
  | 15 => some b.istat
  | _ => none

/-- Bits [47:6]. -/
def baseBits (v : Dword) : Dword := v &&& 0x0000FFFFFFFFFFC0#64

/-- Register k of a block written; none where the write raises an illegal-instruction trap (R359). -/
def blockWrite (s : State) (p pid k : Nat) (v : Dword) : Option State :=
  let put := fun (f : PBlock → PBlock) => some (modBlock s p pid f)
  let idle := fun (f : PBlock → PBlock) => if partLive s p pid then none else put f
  match k with
  | 2 => idle (fun b => { b with domtab := v &&& 0xFFFFFFFFFFFFFFC0#64 })
  | 3 => idle (fun b => { b with heap := v &&& 0xFFFFFFFF#64 })
  | 4 => idle (fun b => { b with shardtab := baseBits v })
  | 5 => idle (fun b => { b with trapq := v &&& 0x000FFFFFFFFFFFC0#64 })
  | 7 => put (fun b => { b with tqhead := v &&& 0xFFFFFFFF#64 })
  | 8 => idle (fun b => { b with imgpool := baseBits v })
  | 9 => idle (fun b => { b with imgsize := v &&& 0xFFFFFFFFFFFFFFC0#64 })
  | 10 => some (preemptWrite s p pid v)
  | 11 => put (fun b => { b with parea := baseBits v })
  | 12 => put (fun b => { b with pasize := v &&& 0xFFFFFFFFFFFFFFC0#64 })
  | 14 => some (imgctlWrite s p pid v)
  | _ => none

end Sys2Proof.Machine
end

