-- ==== Sys2Proof/Machine/Memory.lean ====
section
/-!
DEFINITION. The memory instructions of pages 0 and 3 (spec/07, R213 to R227): loads and stores, ordered forms, vector accesses, gathers and
scatters, fragment loads, fences, and posted stores and fetches.
-/
namespace Sys2Proof.Machine

/-- An access of a size uses its data register at 32 bits or fewer (R62). DEDUCED: log entry 25. -/
def narS : Size → Bool
  | .d => false
  | _ => true

/-- R213, R215: a scalar load. -/
def loadIssue (signed strong : Bool) (o : MemOps) (s : State) : Host.Outcome State Fault Refusal :=
  issue s o.pre { rg := (o.base, false) :: offUses o.off, lg := [o.data], lat := 1 } (fun s k =>
    let a := offAddr (k.val 0) o.off (k.val 1)
    let n := sizeBytes o.size
    match issueAddr k.c a n (if strong then n else 1) with
    | .inl c => Res.access s c a
    | .inr r => .ok (startAccess s k (.read [(r, n)] n (.scalar signed)) strong o.os (some (.g o.data))))

/-- R213, R215: a scalar store. -/
def storeIssue (strong : Bool) (o : MemOps) (s : State) : Host.Outcome State Fault Refusal :=
  issue s o.pre { rg := (o.base, false) :: (offUses o.off ++ [(o.data, narS o.size)]) } (fun s k =>
    let a := offAddr (k.val 0) o.off (k.val 1)
    let n := sizeBytes o.size
    let x := k.val (1 + (offUses o.off).length)
    match issueAddr k.c a n (if strong then n else 1) with
    | .inl c => Res.access s c a
    | .inr r => .ok (startAccess s k (.write [(r, leBytes n x.toNat)] n) strong o.os none))

/-- LD (R213). -/
def execLd (o : MemOps) (s : State) : Host.Outcome State Fault Refusal := loadIssue false false o s
/-- ST (R213). -/
def execSt (o : MemOps) (s : State) : Host.Outcome State Fault Refusal := storeIssue false o s
/-- LD_SIGNED (R215). -/
def execLdSigned (o : MemOps) (s : State) : Host.Outcome State Fault Refusal := loadIssue true false o s
/-- LDO (R215). -/
def execLdo (o : MemOps) (s : State) : Host.Outcome State Fault Refusal := loadIssue false true o s
/-- LDO_SIGNED (R215). -/
def execLdoSigned (o : MemOps) (s : State) : Host.Outcome State Fault Refusal := loadIssue true true o s
/-- STO (R215). -/
def execSto (o : MemOps) (s : State) : Host.Outcome State Fault Refusal := storeIssue true o s

/-! ## Vector accesses (R218, R220, R221) -/

/-- The active lanes, ascending. -/
def activeLanes (t : Thread) (p : Pre) : List Nat := let m := lanesOf t p; (List.range 32).filter (bitOf m)

/-- The addresses of the active 32-bit lanes of a 128-byte access (R218): base alignment 32, and one window for the active lanes. -/
def laneAddrs (c : CoreId) (a : Dword) (ls : List Nat) : Nat ⊕ List Dword :=
  let lo := ls.headD 0
  let hi := ls.getLastD 0
  if a.toNat % 32 ≠ 0 then .inl 4
  else match issueAddr c (a + dw (4 * lo)) (4 * (hi - lo) + 4) 1 with
    | .inl e => .inl e
    | .inr r => .inr (ls.map (fun l => r + dw (4 * (l - lo))))

/-- The address that a fault of the lanes names: the base where it is misaligned, else the first active lane. DEDUCED: log entry 20. -/
def laneFault (a : Dword) (ls : List Nat) (cause : Nat) : Dword := if cause = 4 then a else a + dw (4 * ls.headD 0)

/-- Bytes from the first active lane to the end of the last. -/
def laneSpan (ls : List Nat) : Nat := 4 * (ls.getLastD 0 - ls.headD 0) + 4

/-- VLD (R218). -/
def execVld (o : VMemOps) (s : State) : Host.Outcome State Fault Refusal :=
  issue s o.pre { rg := (o.base, false) :: offUses o.off, v := [o.v], lat := 1, on := fun m => anyOn m 32 } (fun s k =>
    let a := offAddr (k.val 0) o.off (k.val 1)
    let ls := activeLanes k.t o.pre
    match laneAddrs k.c a ls with
    | .inl c => Res.access s c (laneFault a ls c)
    | .inr as => .ok (startAccess s k (.read (as.map (fun x => (x, 4))) (laneSpan ls) (.lanes (ls.map (fun l => 32 * l)))) false OrdSc.plain
        (some (.v o.v))))

/-- VST (R218): its lanes leave as sector writes (R81). -/
def execVst (o : VMemOps) (s : State) : Host.Outcome State Fault Refusal :=
  issue s o.pre { rg := (o.base, false) :: offUses o.off, v := [o.v], on := fun m => anyOn m 32 } (fun s k =>
    let a := offAddr (k.val 0) o.off (k.val 1)
    let ls := activeLanes k.t o.pre
    let x := readV s.tick k.t o.v
    match laneAddrs k.c a ls with
    | .inl c => Res.access s c (laneFault a ls c)
    | .inr as => .ok (startAccess s k (.sectors ((as.zip ls).map (fun p => (p.1, leBytes 4 (elem 32 x p.2)))) (laneSpan ls)) false OrdSc.plain none))

/-- The resolved addresses of accesses of n bytes; the first that fails, with its CAUSE. -/
def issueAddrs (c : CoreId) (n : Nat) : List Dword → Sum (Nat × Dword) (List Dword)
  | [] => .inr []
  | a :: l => match issueAddr c a n 1 with
    | .inl e => .inl (e, a)
    | .inr r => match issueAddrs c n l with
      | .inl e => .inl e
      | .inr rs => .inr (r :: rs)

/-- Addresses of the elements of n bytes of a gather or scatter (R212, R220): every one naturally aligned, then every one's window; the first that
fails, with its CAUSE. DEDUCED: log entry 20. -/
def elemAddrs (c : CoreId) (n : Nat) (l : List Dword) : Sum (Nat × Dword) (List Dword) :=
  match l.find? (fun a => decide (a.toNat % n ≠ 0)) with
  | some a => .inl (4, a)
  | none => issueAddrs c n l

/-- a_j of R220. -/
def gathAddr (base : Dword) (idx : Vec) (n sc j : Nat) : Dword := base + BitVec.ofInt 64 (toSigned (8 * n) (elem (8 * n) idx j) * 2 ^ sc)

/-- R220: a gather of elements of n bytes. -/
def gatherIssue (n : Nat) (o : GathOps) (s : State) : Host.Outcome State Fault Refusal :=
  issue s o.pre { rg := [(o.base, false)], v := [o.v, o.idx], lat := 1, on := fun m => anyOn m (8 * n) } (fun s k =>
    let js := (activeLanes k.t o.pre).filter (fun j => decide (j < 128 / n))
    let idx := readV s.tick k.t o.idx
    match elemAddrs k.c n (js.map (gathAddr (k.val 0) idx n o.sc.val)) with
    | .inl e => Res.access s e.1 e.2
    | .inr as => .ok (startAccess s k (.read (as.map (fun x => (x, n))) 0 (.lanes (js.map (fun j => 8 * n * j)))) false OrdSc.plain (some (.v o.v))))

/-- R220: a scatter; elements that overlap are written in ascending order. -/
def scatterIssue (n : Nat) (o : GathOps) (s : State) : Host.Outcome State Fault Refusal :=
  issue s o.pre { rg := [(o.base, false)], v := [o.v, o.idx], on := fun m => anyOn m (8 * n) } (fun s k =>
    let js := (activeLanes k.t o.pre).filter (fun j => decide (j < 128 / n))
    let idx := readV s.tick k.t o.idx
    let x := readV s.tick k.t o.v
    match elemAddrs k.c n (js.map (gathAddr (k.val 0) idx n o.sc.val)) with
    | .inl e => Res.access s e.1 e.2
    | .inr as => .ok (startAccess s k (.write ((as.zip js).map (fun p => (p.1, leBytes n (elem (8 * n) x p.2)))) 0) false OrdSc.plain none))

/-- VGATHER_W (R220). -/
def execVgatherW (o : GathOps) (s : State) : Host.Outcome State Fault Refusal := gatherIssue 4 o s
/-- VGATHER_D (R220). -/
def execVgatherD (o : GathOps) (s : State) : Host.Outcome State Fault Refusal := gatherIssue 8 o s
/-- VSCATTER_W (R220). -/
def execVscatterW (o : GathOps) (s : State) : Host.Outcome State Fault Refusal := scatterIssue 4 o s
/-- VSCATTER_D (R220). -/
def execVscatterD (o : GathOps) (s : State) : Host.Outcome State Fault Refusal := scatterIssue 8 o s

/-- A byte range lies in the core's own scratchpad: the resolved address. -/
def ownSpad (c : CoreId) (a : Dword) (n : Nat) : Option Dword :=
  match issueAddr c a n 1 with
  | .inr r => if windowOf (locOf r) = .spad c.n ∧ pkgOf c r = c.pkg then some r else none
  | .inl _ => none

/-- The elements of a fragment that active lanes take (R221): row i, column k, of n bytes. -/
def fragElems (n : Nat) (m : Word) : List (Nat × Nat) :=
  (List.range (8 / n)).flatMap (fun k => ((List.range 16).map (fun i => (i, k))).filter (fun x => bitOf m ((16 * x.2 + x.1) * n / 4)))

/-- LDF (R221): column k of the fragment fills sixteen consecutive lanes. DESIGN CHOICE: log entry 19. -/
def execLdf (o : LdfOps) (s : State) : Host.Outcome State Fault Refusal :=
  issue s o.pre { rg := [(o.base, false), (o.pitch, false)], v := [o.v], lat := 1, on := fun m => anyOn m 32 } (fun s k =>
    let b := k.val 0
    let p := k.val 1
    let n := if o.half then 2 else 1
    let es := fragElems n (lanesOf k.t o.pre)
    if b.toNat % 8 ≠ 0 then Res.access s 4 b
    else if p.toNat % 8 ≠ 0 then Res.access s 4 p
    else if 2 ^ 20 ≤ p.toNat then Res.access s 1 p
    else
      let as := es.map (fun x => b + dw (x.1 * p.toNat + n * x.2))
      match as.find? (fun a => (ownSpad k.c a n).isNone) with
      | some a => Res.access s 1 a
      | none => .ok (startAccess s k (.read (as.filterMap (fun a => (ownSpad k.c a n).map (fun r => (r, n)))) 0
          (.lanes (es.map (fun x => 8 * n * (16 * x.2 + x.1))))) false OrdSc.plain (some (.v o.v))))

/-! ## Fences (R222) -/

/-- A fence waits as a switch marker does, and every earlier write of the thread is performed. -/
def fenceIssue (o : FenceOps) (s : State) : Host.Outcome State Fault Refusal :=
  issue s o.pre {} (fun s k => if k.t.out ≠ [] ∨ k.t.acc ≠ [] then .hold s .results else .ok (drainThread s k.c k.slot))

/-- FENCE (R222). -/
def execFence (o : FenceOps) (s : State) : Host.Outcome State Fault Refusal := fenceIssue o s
/-- FENCE_SC (R222). -/
def execFenceSc (o : FenceOps) (s : State) : Host.Outcome State Fault Refusal := fenceIssue o s

/-! ## Posted stores and fetches (R225, R226) -/

def flagUses : Option GReg → List (GReg × Bool)
  | some r => [(r, false)]
  | none => []

/-- The flag's address as read: the last use (R212). -/
def flagVal (k : Ctx) (i : Nat) : Option GReg → Dword
  | some _ => k.val i
  | none => 0

/-- A share handed out by an item with `.wt` (R225); none without. -/
def shareIf (wt : Bool) (s : State) (k : Ctx) (body : State → Nat → Res) : Res := if wt then takeShare s k body else body s 0

/-- A filling target: one line of a scratchpad window (R225). -/
def fillOk (fill : Bool) (n : Nat) (r : Dword) : Bool :=
  !fill || ((match windowOf (locOf r) with | .spad _ => true | _ => false) && decide (locOf r / 128 = (locOf r + n - 1) / 128))

/-- STP (R225). The checks at issue take in all 128 bytes of a vector form, whichever lanes run: the spec gives the form 128 bytes and writes its
active lanes only. DESIGN CHOICE: log entry 16. -/
def execStp (o : StpOps) (s : State) : Host.Outcome State Fault Refusal :=
  match o.data with
  | .g size r =>
    issue s o.pre { rg := (o.base, false) :: (flagUses o.flag ++ [(r, narS size)]), eff := true, loose := !releases o.os.ord } (fun s k =>
      let n := sizeBytes size
      let x := k.val (1 + (flagUses o.flag).length)
      posted s k (k.val 0) (flagVal k 1 o.flag) n n (fillOk o.fill n) (fun a f => shareIf o.wt s k (fun s share =>
        .ok (sendItem s k 1 (.store [(0, leBytes n x.toNat)] o.fill) a f share false (releases o.os.ord && !narrow o.os.scope)))))
  | .v r =>
    issue s o.pre { rg := (o.base, false) :: flagUses o.flag, v := [r], eff := true, loose := !releases o.os.ord, on := fun m => anyOn m 32 } (fun s k =>
      let x := readV s.tick k.t r
      posted s k (k.val 0) (flagVal k 1 o.flag) 128 32 (fillOk o.fill 128) (fun a f => shareIf o.wt s k (fun s share =>
        .ok (sendItem s k 1 (.store ((activeLanes k.t o.pre).map (fun l => (4 * l, leBytes 4 (elem 32 x l)))) o.fill) a f share false))))

/-- GETL (R212, R226): the alignments, then the windows. A source of 128 bytes in two windows of R75 is an access fault at issue, which R212 and R226 do not
say of a `getl`. DESIGN CHOICE: log entry 16. -/
def execGetl (o : GetlOps) (s : State) : Host.Outcome State Fault Refusal :=
  issue s o.pre { rg := (o.dst, false) :: (o.src, false) :: flagUses o.flag, eff := true, loose := !releases o.os.ord } (fun s k =>
    let d := k.val 0
    if d.toNat % 128 ≠ 0 then Res.access s 4 d
    else if (k.val 1).toNat % 32 ≠ 0 then Res.access s 4 (k.val 1)
    else if (flagVal k 2 o.flag).toNat % 8 ≠ 0 then Res.access s 4 (flagVal k 2 o.flag)
    else match ownSpad k.c d 128 with
      | none => Res.access s 1 d
      | some dst => posted s k (k.val 1) (flagVal k 2 o.flag) 128 32 (fun _ => true) (fun src f =>
          .ok (sendItem s k 4 (.getl src o.fill) dst f 0 false)))

end Sys2Proof.Machine
end

