-- ==== Sys2Proof/Machine/Float.lean ====
section
/-!
DEFINITION. The scalar floating-point instructions of pages 0 and 1 (spec/06, R183 to R192).
-/
namespace Sys2Proof.Machine

/-- An operand of 32 bits or fewer moves one word through a port (R62). -/
def narF : FFmt → Bool
  | .f64 => false | _ => true

/-- The low bits of a register as an operand (R183). -/
def lowBits (f : Fmt) (x : Dword) : Nat := x.toNat % 2 ^ f.width

/-- A result in the low bits, the bits above zero (R183). -/
def fpOut (r : Nat × Flags) : Dword × Flags := (dw r.1, r.2)

/-- R184, R185: two or three operands, rounded once. gA is the addend of the fused operations. -/
def fpIssue (op : FpOp) (fused : Bool) (o : FpOps) (s : State) : Host.Outcome State Fault Refusal :=
  let f := fmtOf o.fmt
  let n := narF o.fmt
  issue s o.pre { rg := [(o.x, n), (o.y, n)] ++ (if fused then [(o.rd, n)] else []), wg := [(o.rd, n)] } (fun s k =>
    setG s k o.rd (fpOut (fpArith op f (RSelMode o.rm k.t.regs.fpc) (lowBits f (k.val 0)) (lowBits f (k.val 1)) (lowBits f (k.val 2)))))

/-- R187: minimum and maximum. -/
def fminIssue (mx : Bool) (o : Fp2Ops) (s : State) : Host.Outcome State Fault Refusal :=
  let f := fmtOf o.fmt
  let n := narF o.fmt
  issue s o.pre { rg := [(o.x, n), (o.y, n)], wg := [(o.rd, n)] } (fun s k =>
    setG s k o.rd (fpOut (fpMinMax mx f (lowBits f (k.val 0)) (lowBits f (k.val 1)))))

/-- R187, R188: a function of one operand that never rounds. -/
def fp1Issue (g : Fmt → Nat → Nat) (o : Fp1Ops) (s : State) : Host.Outcome State Fault Refusal :=
  let f := fmtOf o.fmt
  let n := narF o.fmt
  issue s o.pre { rg := [(o.x, n)], wg := [(o.rd, n)] } (fun s k => setG s k o.rd (dw (g f (lowBits f (k.val 0))), {}))

/-- R186, R192: variable-latency results of one operand, on the divide unit or the transcendental unit (R172). -/
def fp1rIssue (u : LatUnit) (g : Fmt → Rm → Nat → Nat × Flags) (o : Fp1ROps) (s : State) : Host.Outcome State Fault Refusal :=
  let f := fmtOf o.fmt
  issue s o.pre { rg := [(o.x, narF o.fmt)], lg := [o.rd], lat := 1, unit := some u } (fun s k =>
    outU s k u o.rd (fpOut (g f (RSelMode o.rm k.t.regs.fpc) (lowBits f (k.val 0)))))

/-- R188: a compare writes every lane of a predicate. -/
def fcmpIssue (op : FCmp) (o : FcmpOps) (s : State) : Host.Outcome State Fault Refusal :=
  let f := fmtOf o.fmt
  let n := narF o.fmt
  issue s o.pre { rg := [(o.x, n), (o.y, n)] } (fun s k =>
    let r := fpCompare op f (lowBits f (k.val 0)) (lowBits f (k.val 1))
    .ok (k.upd s (fun t => addFlags (writeP t o.pd (allLanes r.1)) r.2)))

/-- The bits of an integer width (R190). -/
def iBits : IWidth → Nat
  | .i64 => 64 | .i32 => 32 | .i16 => 16 | .i8 => 8

def narI : IWidth → Bool
  | .i64 => false | _ => true

/-- R190: floating to integer. -/
def ftoiIssue (signed : Bool) (o : FintOps) (s : State) : Host.Outcome State Fault Refusal :=
  let f := fmtOf o.fmt
  issue s o.pre { rg := [(o.x, narF o.fmt)], wg := [(o.rd, narI o.iw)] } (fun s k =>
    let r := convToInt (decodeFp f (lowBits f (k.val 0))) (iBits o.iw) signed (RSelMode o.rm k.t.regs.fpc)
    setG s k o.rd (BitVec.ofInt 64 r.1, r.2))

/-- R190: integer to floating. -/
def itofIssue (signed : Bool) (o : FintOps) (s : State) : Host.Outcome State Fault Refusal :=
  let f := fmtOf o.fmt
  let n := iBits o.iw
  issue s o.pre { rg := [(o.x, narI o.iw)], wg := [(o.rd, narF o.fmt)] } (fun s k =>
    let u := (k.val 0).toNat % 2 ^ n
    setG s k o.rd (fpOut (roundFP f (RSelMode o.rm k.t.regs.fpc) false (FVal.ofInt (if signed then toSigned n u else u)))))

/-- The format of an nf register; an invalid descriptor is none (R121). -/
def nfOf (t : Thread) (r : NfReg) : Option Fmt := nfFmt (t.regs.nf[r])

/-- FADD (R184). -/
def execFadd (o : FpOps) (s : State) : Host.Outcome State Fault Refusal := fpIssue .add false o s
/-- FSUB (R184). -/
def execFsub (o : FpOps) (s : State) : Host.Outcome State Fault Refusal := fpIssue .sub false o s
/-- FMUL (R184). -/
def execFmul (o : FpOps) (s : State) : Host.Outcome State Fault Refusal := fpIssue .mul false o s
/-- FFMA (R184). -/
def execFfma (o : FpOps) (s : State) : Host.Outcome State Fault Refusal := fpIssue .fma true o s
/-- FADDROUNDED (R185). -/
def execFaddRounded (o : FpOps) (s : State) : Host.Outcome State Fault Refusal := fpIssue .add false o s
/-- FSUBROUNDED (R185). -/
def execFsubRounded (o : FpOps) (s : State) : Host.Outcome State Fault Refusal := fpIssue .sub false o s
/-- FMULROUNDED (R185). -/
def execFmulRounded (o : FpOps) (s : State) : Host.Outcome State Fault Refusal := fpIssue .mul false o s
/-- FFMAROUNDED (R185). -/
def execFfmaRounded (o : FpOps) (s : State) : Host.Outcome State Fault Refusal := fpIssue .fma true o s
/-- FFMS (R185). -/
def execFfms (o : FpOps) (s : State) : Host.Outcome State Fault Refusal := fpIssue .fms true o s
/-- FNMA (R185). -/
def execFnma (o : FpOps) (s : State) : Host.Outcome State Fault Refusal := fpIssue .fnma true o s
/-- FDIV, variable-latency (R186). -/
def execFdiv (o : FpOps) (s : State) : Host.Outcome State Fault Refusal :=
  let f := fmtOf o.fmt
  let n := narF o.fmt
  issue s o.pre { rg := [(o.x, n), (o.y, n)], lg := [o.rd], lat := 1, unit := some .divide } (fun s k =>
    outU s k .divide o.rd (fpOut (fpDiv f (RSelMode o.rm k.t.regs.fpc) (lowBits f (k.val 0)) (lowBits f (k.val 1)))))
/-- FSQRT (R186). -/
def execFsqrt (o : Fp1ROps) (s : State) : Host.Outcome State Fault Refusal := fp1rIssue .divide fpSqrt o s
/-- FMIN (R187). -/
def execFmin (o : Fp2Ops) (s : State) : Host.Outcome State Fault Refusal := fminIssue false o s
/-- FMAX (R187). -/
def execFmax (o : Fp2Ops) (s : State) : Host.Outcome State Fault Refusal := fminIssue true o s
/-- FABS (R187). -/
def execFabs (o : Fp1Ops) (s : State) : Host.Outcome State Fault Refusal := fp1Issue fpAbs o s
/-- FNEG (R187). -/
def execFneg (o : Fp1Ops) (s : State) : Host.Outcome State Fault Refusal := fp1Issue fpNeg o s
/-- FCLASS (R188). -/
def execFclass (o : Fp1Ops) (s : State) : Host.Outcome State Fault Refusal := fp1Issue fpClass o s
/-- FCEQ (R188). -/
def execFceq (o : FcmpOps) (s : State) : Host.Outcome State Fault Refusal := fcmpIssue .eq o s
/-- FCLT (R188). -/
def execFclt (o : FcmpOps) (s : State) : Host.Outcome State Fault Refusal := fcmpIssue .lt o s
/-- FCLE (R188). -/
def execFcle (o : FcmpOps) (s : State) : Host.Outcome State Fault Refusal := fcmpIssue .le o s
/-- FCUN (R188). -/
def execFcun (o : FcmpOps) (s : State) : Host.Outcome State Fault Refusal := fcmpIssue .un o s
/-- FCVT (R189). -/
def execFcvt (o : FcvtOps) (s : State) : Host.Outcome State Fault Refusal :=
  let f := fmtOf o.src
  issue s o.pre { rg := [(o.x, narF o.src)], wg := [(o.rd, narF o.dst)] } (fun s k =>
    setG s k o.rd (fpOut (fpConvert f (fmtOf o.dst) (RSelMode o.rm k.t.regs.fpc) false (lowBits f (k.val 0)))))
/-- FTOI (R190). -/
def execFtoi (o : FintOps) (s : State) : Host.Outcome State Fault Refusal := ftoiIssue true o s
/-- FTOIU (R190). -/
def execFtoiu (o : FintOps) (s : State) : Host.Outcome State Fault Refusal := ftoiIssue false o s
/-- ITOF (R190). -/
def execItof (o : FintOps) (s : State) : Host.Outcome State Fault Refusal := itofIssue true o s
/-- IUTOF (R190). -/
def execIutof (o : FintOps) (s : State) : Host.Outcome State Fault Refusal := itofIssue false o s
/-- FTON, with RoundFPSat for `.sat` (R191). -/
def execFton (o : FnarOps) (s : State) : Host.Outcome State Fault Refusal :=
  issue s o.pre { rg := [(o.x, true)], wg := [(o.rd, true)] } (fun s k =>
    match nfOf k.t o.nf with
    | none => Res.illegal s 3
    | some f => setG s k o.rd (fpOut (fpConvert fp32 f (RSelMode o.rm k.t.regs.fpc) o.sat (lowBits fp32 (k.val 0)))))
/-- NTOF, exact (R191). -/
def execNtof (o : FnarOps) (s : State) : Host.Outcome State Fault Refusal :=
  issue s o.pre { rg := [(o.x, true)], wg := [(o.rd, true)] } (fun s k =>
    match nfOf k.t o.nf with
    | none => Res.illegal s 3
    | some f => setG s k o.rd (fpOut (fpConvert f fp32 .rne false (lowBits f (k.val 0)))))
/-- FEXP2 (R192). -/
def execFexp2 (o : Fp1ROps) (s : State) : Host.Outcome State Fault Refusal := fp1rIssue .transcendental (fpTrans .exp2) o s
/-- FLOG2 (R192). -/
def execFlog2 (o : Fp1ROps) (s : State) : Host.Outcome State Fault Refusal := fp1rIssue .transcendental (fpTrans .log2) o s
/-- FRCP (R192). -/
def execFrcp (o : Fp1ROps) (s : State) : Host.Outcome State Fault Refusal := fp1rIssue .transcendental (fpTrans .rcp) o s
/-- FRSQRT (R192). -/
def execFrsqrt (o : Fp1ROps) (s : State) : Host.Outcome State Fault Refusal := fp1rIssue .transcendental (fpTrans .rsqrt) o s
/-- FSINPI (R192). -/
def execFsinpi (o : Fp1ROps) (s : State) : Host.Outcome State Fault Refusal := fp1rIssue .transcendental (fpTrans .sinpi) o s
/-- FCOSPI (R192). -/
def execFcospi (o : Fp1ROps) (s : State) : Host.Outcome State Fault Refusal := fp1rIssue .transcendental (fpTrans .cospi) o s

end Sys2Proof.Machine
end

