-- ==== Sys2Proof/Machine/Vector.lean ====
section
/-!
DEFINITION. The vector and lane-group instructions of pages 0 and 5 (spec/09, R264 to R290).
-/
namespace Sys2Proof.Machine

/-! ## Operands and results -/

/-- Some element of width w is active (R265). -/
def onW (w : Nat) : Word → Bool := fun m => anyOn m w

/-- Element i of the destination takes part. -/
def onE (k : Ctx) (p : Pre) (w : Nat) : Nat → Bool := elemOn (lanesOf k.t p) w

def vRegs : VSrc → List VReg
  | .v r => [r]
  | .g _ => []

/-- A broadcast general register is read at 32 bits or fewer for such elements; a shift's amount is always 64 bits (R62, R267). -/
def vRg (nar : Bool) : VSrc → List (GReg × Bool)
  | .v _ => []
  | .g r => [(r, nar)]

/-- The second source as read: broadcasts are the first general register used. -/
def vVal (s : State) (k : Ctx) : VSrc → VVal
  | .v r => .v (readV s.tick k.t r)
  | .g _ => .g (k.val 0)

/-- A fixed-latency vector result with its flags. -/
def setV (s : State) (k : Ctx) (vd : VReg) (r : Vec × Flags) : Res := .ok (k.upd s (fun t => addFlags (writeV t vd r.1) r.2))

/-- A fixed-latency predicate result with its flags. -/
def setP (s : State) (k : Ctx) (pd : PReg) (r : Word × Flags) : Res := .ok (k.upd s (fun t => addFlags (writeP t pd r.1) r.2))

/-- A variable-latency vector result of a unit: its active elements of width w (R147, R268, R269). -/
def outV (s : State) (k : Ctx) (pre : Pre) (u : LatUnit) (w : Nat) (vd : VReg) (r : Vec × Flags) : Res :=
  let parts := ((List.range (1024 / w)).filter (onE k pre w)).map (fun i => (w * i, w, elem w r.1 i))
  .ok (k.upd s (fun t => onUnit u (pushOut (keepV s.tick t (.v vd)) (.v vd) (.vec parts) r.2 true)))

/-- The format of a narrow-format register; an invalid descriptor traps (R121). -/
def withNf (s : State) (k : Ctx) (n : NfReg) (body : Fmt → Res) : Res :=
  match nfFmt k.t.regs.nf[n] with
  | some f => body f
  | none => Res.illegal s 3

/-! ## Floating point -/

/-- R270, R271. -/
def vfpIssue (op : FpOp) (o : VFpOps) (s : State) : Host.Outcome State Fault Refusal :=
  let f := fmtOf o.fmt
  issue s o.pre { rg := vRg (narF o.fmt) o.y, v := [o.vd, o.x] ++ vRegs o.y, on := onW f.width } (fun s k =>
    setV s k o.vd (vfp op f (RSelMode o.rm k.t.regs.fpc) (onE k o.pre f.width) (readV s.tick k.t o.vd) (readV s.tick k.t o.x) (vVal s k o.y)))

/-- R273: minimum and maximum. -/
def vfminIssue (mx : Bool) (o : VFp2Ops) (s : State) : Host.Outcome State Fault Refusal :=
  let f := fmtOf o.fmt
  issue s o.pre { v := [o.vd, o.x, o.y], on := onW f.width } (fun s k =>
    let x := readV s.tick k.t o.x
    let y := readV s.tick k.t o.y
    setV s k o.vd (vMap f.width (onE k o.pre f.width) (readV s.tick k.t o.vd) (fun i => fpMinMax mx f (elem f.width x i) (elem f.width y i))))

/-- R273: sign operations. -/
def vfp1Issue (g : Fmt → Nat → Nat) (o : VFp1Ops) (s : State) : Host.Outcome State Fault Refusal :=
  let f := fmtOf o.fmt
  issue s o.pre { v := [o.vd, o.x], on := onW f.width } (fun s k =>
    let x := readV s.tick k.t o.x
    setV s k o.vd (vMap0 f.width (onE k o.pre f.width) (readV s.tick k.t o.vd) (fun i => g f (elem f.width x i)), {}))

/-- R272, R283: variable-latency results of one operand. -/
def vfp1rIssue (u : LatUnit) (g : Fmt → Rm → Nat → Nat × Flags) (o : VFp1ROps) (s : State) : Host.Outcome State Fault Refusal :=
  let f := fmtOf o.fmt
  issue s o.pre { v := [o.vd, o.x], lat := 1, unit := some u, on := onW f.width } (fun s k =>
    let x := readV s.tick k.t o.x
    outV s k o.pre u f.width o.vd (vMap f.width (onE k o.pre f.width) (readV s.tick k.t o.vd)
      (fun i => g f (RSelMode o.rm k.t.regs.fpc) (elem f.width x i))))

/-- R274: floating compares. -/
def vfcmpIssue (op : FCmp) (o : VFcmpOps) (s : State) : Host.Outcome State Fault Refusal :=
  let f := fmtOf o.fmt
  issue s o.pre { rg := vRg (narF o.fmt) o.y, v := o.x :: vRegs o.y, on := onW f.width } (fun s k =>
    let x := readV s.tick k.t o.x
    let y := vVal s k o.y
    setP s k o.pd (vcmp f.width o.sel (lanesOf k.t o.pre) (readP k.t o.pd) (fun i => fpCompare op f (elem f.width x i) (y.elem f.width i))))

/-- R289: floating reductions. -/
def vfredIssue (op : FRed) (o : VFredOps) (s : State) : Host.Outcome State Fault Refusal :=
  let f := fmtOf o.fmt
  issue s o.pre { v := [o.vd, o.x], on := onW f.width } (fun s k =>
    setV s k o.vd (vred (fredComb op f (RSelMode o.rm k.t.regs.fpc)) f.width o.gs (onE k o.pre f.width) (readV s.tick k.t o.vd)
      (readV s.tick k.t o.x)))

/-- R290: floating scans. -/
def vfscanIssue (op : FRed) (o : VFscanOps) (s : State) : Host.Outcome State Fault Refusal :=
  let f := fmtOf o.fmt
  issue s o.pre { v := [o.vd, o.x], on := onW f.width } (fun s k =>
    setV s k o.vd (vscan (fredComb op f (RSelMode o.rm k.t.regs.fpc)) (fredIdent op f) o.ex f.width o.gs (onE k o.pre f.width)
      (readV s.tick k.t o.vd) (readV s.tick k.t o.x)))

/-! ## Integers -/

/-- R275, R277; a shift takes the whole 64-bit gC as its amount. -/
def vintIssue (op : VIntOp) (shift : Bool) (o : VIntOps) (s : State) : Host.Outcome State Fault Refusal :=
  let w := iBits o.iw
  issue s o.pre { rg := vRg (narI o.iw && !shift) o.y, v := [o.vd, o.x] ++ vRegs o.y, on := onW w } (fun s k =>
    setV s k o.vd (vint op w (onE k o.pre w) (readV s.tick k.t o.vd) (readV s.tick k.t o.x) (vVal s k o.y), {}))

/-- R276: saturating forms. -/
def vsatIssue (op : VIntOp) (o : VVVOps) (s : State) : Host.Outcome State Fault Refusal :=
  let w := iBits o.iw
  issue s o.pre { v := [o.vd, o.x, o.y], on := onW w } (fun s k =>
    setV s k o.vd (vint op w (onE k o.pre w) (readV s.tick k.t o.vd) (readV s.tick k.t o.x) (.v (readV s.tick k.t o.y)), {}))

/-- R276: width changes; the wider element governs. -/
def vnarIssue (op : VNarOp) (widen : Bool) (o : VNarOps) (s : State) : Host.Outcome State Fault Refusal :=
  let w := iBits o.iw
  issue s o.pre { v := [o.vd, o.x], on := onW (if widen then w else 2 * w) } (fun s k =>
    setV s k o.vd (vnar op w o.q (lanesOf k.t o.pre) (readV s.tick k.t o.vd) (readV s.tick k.t o.x), {}))

/-- R277, R278: one operand, without flags. -/
def vunIssue (g : Nat → Nat → Nat) (o : VUnOps) (s : State) : Host.Outcome State Fault Refusal :=
  let w := iBits o.iw
  issue s o.pre { v := [o.vd, o.x], on := onW w } (fun s k =>
    let x := readV s.tick k.t o.x
    setV s k o.vd (vMap0 w (onE k o.pre w) (readV s.tick k.t o.vd) (fun i => g w (elem w x i)), {}))

/-- R274: integer compares. -/
def vicmpIssue (test : Nat → Nat → Nat → Bool) (o : VIcmpOps) (s : State) : Host.Outcome State Fault Refusal :=
  let w := iBits o.iw
  issue s o.pre { rg := vRg (narI o.iw) o.y, v := o.x :: vRegs o.y, on := onW w } (fun s k =>
    let x := readV s.tick k.t o.x
    let y := vVal s k o.y
    setP s k o.pd (vcmp w o.sel (lanesOf k.t o.pre) (readP k.t o.pd) (fun i => (test w (elem w x i) (y.elem w i), {}))))

/-- R289: integer reductions. -/
def viredIssue (op : VIntOp) (o : VIredOps) (s : State) : Host.Outcome State Fault Refusal :=
  let w := iBits o.iw
  issue s o.pre { v := [o.vd, o.x], on := onW w } (fun s k =>
    setV s k o.vd (vred (iredComb op w) w o.gs (onE k o.pre w) (readV s.tick k.t o.vd) (readV s.tick k.t o.x)))

/-- R290: integer scans. -/
def viscanIssue (op : VIntOp) (o : VIscanOps) (s : State) : Host.Outcome State Fault Refusal :=
  let w := iBits o.iw
  issue s o.pre { v := [o.vd, o.x], on := onW w } (fun s k =>
    setV s k o.vd (vscan (iredComb op w) (iredIdent op w) o.ex w o.gs (onE k o.pre w) (readV s.tick k.t o.vd) (readV s.tick k.t o.x)))

/-! ## Conversions -/

/-- R280: floating point to integers of the same width. -/
def vftoiIssue (signed : Bool) (o : VFintOps) (s : State) : Host.Outcome State Fault Refusal :=
  let f := fmtOf o.fmt
  issue s o.pre { v := [o.vd, o.x], on := onW f.width } (fun s k =>
    let x := readV s.tick k.t o.x
    setV s k o.vd (vMap f.width (onE k o.pre f.width) (readV s.tick k.t o.vd) (fun i =>
      let r := convToInt (decodeFp f (elem f.width x i)) f.width signed (RSelMode o.rm k.t.regs.fpc)
      (wrapTo f.width r.1, r.2))))

/-- R280: integers to floating point of the same width. -/
def vitofIssue (signed : Bool) (o : VFintOps) (s : State) : Host.Outcome State Fault Refusal :=
  let f := fmtOf o.fmt
  issue s o.pre { v := [o.vd, o.x], on := onW f.width } (fun s k =>
    let x := readV s.tick k.t o.x
    setV s k o.vd (vMap f.width (onE k o.pre f.width) (readV s.tick k.t o.vd) (fun i =>
      let e := elem f.width x i
      roundFP f (RSelMode o.rm k.t.regs.fpc) false (FVal.ofInt (if signed then toSigned f.width e else (e : Int))))))

/-- R282: `vmxpk` and `vmxunpk`, with the group checked against the descriptor (R281). -/
def vmxIssue (pack : Bool) (o : VmxOps) (s : State) : Host.Outcome State Fault Refusal :=
  issue s o.pre { rg := [(o.g, true)], v := [o.vd, o.x], on := onW 32 } (fun s k =>
    withNf s k o.nf (fun f =>
      if groupMax f.width < o.q.val then Res.illegal s 3
      else
        let x := readV s.tick k.t o.x
        let old := readV s.tick k.t o.vd
        let rm := RSelMode o.rm k.t.regs.fpc
        let sc := (k.val 0).toNat % 256
        if pack then setV s k o.vd (putGroup f.width o.q.val (onE k o.pre 32) old (fun j => mxpkElem f rm sc (elem 32 x j)))
        else setV s k o.vd (vMap 32 (onE k o.pre 32) old (fun j => mxunpkElem f rm sc (narrowOf f.width x o.q.val j)))))

/-- R287: the votes over groups of lanes. -/
def vvoteIssue (all : Bool) (o : VvoteOps) (s : State) : Host.Outcome State Fault Refusal :=
  issue s o.pre { v := [0], on := onW 32 } (fun s k =>
    setP s k o.pd (vvote all o.gs (lanesOf k.t o.pre) (readP k.t o.pd) (readP k.t o.x), {}))

/-! ## The instructions -/

/-- VADD (R270). -/
def execVadd (o : VFpOps) (s : State) : Host.Outcome State Fault Refusal := vfpIssue .add o s
/-- VMUL (R270). -/
def execVmul (o : VFpOps) (s : State) : Host.Outcome State Fault Refusal := vfpIssue .mul o s
/-- VFMA (R270). -/
def execVfma (o : VFpOps) (s : State) : Host.Outcome State Fault Refusal := vfpIssue .fma o s
/-- VADDROUNDED (R271). -/
def execVaddRounded (o : VFpOps) (s : State) : Host.Outcome State Fault Refusal := vfpIssue .add o s
/-- VSUB (R271). -/
def execVsub (o : VFpOps) (s : State) : Host.Outcome State Fault Refusal := vfpIssue .sub o s
/-- VMULROUNDED (R271). -/
def execVmulRounded (o : VFpOps) (s : State) : Host.Outcome State Fault Refusal := vfpIssue .mul o s
/-- VFMAROUNDED (R271). -/
def execVfmaRounded (o : VFpOps) (s : State) : Host.Outcome State Fault Refusal := vfpIssue .fma o s
/-- VFMS (R271). -/
def execVfms (o : VFpOps) (s : State) : Host.Outcome State Fault Refusal := vfpIssue .fms o s
/-- VFNMA (R271). -/
def execVfnma (o : VFpOps) (s : State) : Host.Outcome State Fault Refusal := vfpIssue .fnma o s
/-- VDIV (R272). -/
def execVdiv (o : VFpOps) (s : State) : Host.Outcome State Fault Refusal :=
  let f := fmtOf o.fmt
  issue s o.pre { rg := vRg (narF o.fmt) o.y, v := [o.vd, o.x] ++ vRegs o.y, lat := 1, unit := some .vectorDivide, on := onW f.width } (fun s k =>
    let x := readV s.tick k.t o.x
    let y := vVal s k o.y
    outV s k o.pre .vectorDivide f.width o.vd (vMap f.width (onE k o.pre f.width) (readV s.tick k.t o.vd)
      (fun i => fpDiv f (RSelMode o.rm k.t.regs.fpc) (elem f.width x i) (y.elem f.width i))))
/-- VSQRT (R272). -/
def execVsqrt (o : VFp1ROps) (s : State) : Host.Outcome State Fault Refusal := vfp1rIssue .vectorDivide fpSqrt o s
/-- VFMIN (R273). -/
def execVfmin (o : VFp2Ops) (s : State) : Host.Outcome State Fault Refusal := vfminIssue false o s
/-- VFMAX (R273). -/
def execVfmax (o : VFp2Ops) (s : State) : Host.Outcome State Fault Refusal := vfminIssue true o s
/-- VFABS (R273). -/
def execVfabs (o : VFp1Ops) (s : State) : Host.Outcome State Fault Refusal := vfp1Issue fpAbs o s
/-- VFNEG (R273). -/
def execVfneg (o : VFp1Ops) (s : State) : Host.Outcome State Fault Refusal := vfp1Issue fpNeg o s
/-- VFCEQ (R274). -/
def execVfceq (o : VFcmpOps) (s : State) : Host.Outcome State Fault Refusal := vfcmpIssue .eq o s
/-- VFCLT (R274). -/
def execVfclt (o : VFcmpOps) (s : State) : Host.Outcome State Fault Refusal := vfcmpIssue .lt o s
/-- VFCLE (R274). -/
def execVfcle (o : VFcmpOps) (s : State) : Host.Outcome State Fault Refusal := vfcmpIssue .le o s
/-- VFCUN (R274). -/
def execVfcun (o : VFcmpOps) (s : State) : Host.Outcome State Fault Refusal := vfcmpIssue .un o s
/-- VCEQ (R274). -/
def execVceq (o : VIcmpOps) (s : State) : Host.Outcome State Fault Refusal := vicmpIssue (fun _ x y => decide (x = y)) o s
/-- VCLT (R274). -/
def execVclt (o : VIcmpOps) (s : State) : Host.Outcome State Fault Refusal := vicmpIssue (fun w x y => decide (toSigned w x < toSigned w y)) o s
/-- VCLTU (R274). -/
def execVcltu (o : VIcmpOps) (s : State) : Host.Outcome State Fault Refusal := vicmpIssue (fun _ x y => decide (x < y)) o s
/-- VIADD (R275). -/
def execViadd (o : VIntOps) (s : State) : Host.Outcome State Fault Refusal := vintIssue .add false o s
/-- VISUB (R275). -/
def execVisub (o : VIntOps) (s : State) : Host.Outcome State Fault Refusal := vintIssue .sub false o s
/-- VIMUL (R275). -/
def execVimul (o : VIntOps) (s : State) : Host.Outcome State Fault Refusal := vintIssue .mul false o s
/-- VIMIN (R275). -/
def execVimin (o : VIntOps) (s : State) : Host.Outcome State Fault Refusal := vintIssue .min false o s
/-- VIMAX (R275). -/
def execVimax (o : VIntOps) (s : State) : Host.Outcome State Fault Refusal := vintIssue .max false o s
/-- VIMINU (R275). -/
def execViminu (o : VIntOps) (s : State) : Host.Outcome State Fault Refusal := vintIssue .minu false o s
/-- VIMAXU (R275). -/
def execVimaxu (o : VIntOps) (s : State) : Host.Outcome State Fault Refusal := vintIssue .maxu false o s
/-- VIADDSAT (R276). -/
def execViaddsat (o : VVVOps) (s : State) : Host.Outcome State Fault Refusal := vsatIssue .addsat o s
/-- VISUBSAT (R276). -/
def execVisubsat (o : VVVOps) (s : State) : Host.Outcome State Fault Refusal := vsatIssue .subsat o s
/-- VIADDSATU (R276). -/
def execViaddsatu (o : VVVOps) (s : State) : Host.Outcome State Fault Refusal := vsatIssue .addsatu o s
/-- VISUBSATU (R276). -/
def execVisubsatu (o : VVVOps) (s : State) : Host.Outcome State Fault Refusal := vsatIssue .subsatu o s
/-- VINARROW (R276). -/
def execVinarrow (o : VNarOps) (s : State) : Host.Outcome State Fault Refusal := vnarIssue .narrow false o s
/-- VINARROWU (R276). -/
def execVinarrowu (o : VNarOps) (s : State) : Host.Outcome State Fault Refusal := vnarIssue .narrowu false o s
/-- VINARROWSU (R276). -/
def execVinarrowsu (o : VNarOps) (s : State) : Host.Outcome State Fault Refusal := vnarIssue .narrowsu false o s
/-- VIWIDEN (R276). -/
def execViwiden (o : VNarOps) (s : State) : Host.Outcome State Fault Refusal := vnarIssue .widen true o s
/-- VIWIDENU (R276). -/
def execViwidenu (o : VNarOps) (s : State) : Host.Outcome State Fault Refusal := vnarIssue .widenu true o s
/-- VAND (R277). -/
def execVand (o : VIntOps) (s : State) : Host.Outcome State Fault Refusal := vintIssue .and false o s
/-- VOR (R277). -/
def execVor (o : VIntOps) (s : State) : Host.Outcome State Fault Refusal := vintIssue .or false o s
/-- VXOR (R277). -/
def execVxor (o : VIntOps) (s : State) : Host.Outcome State Fault Refusal := vintIssue .xor false o s
/-- VANDN (R277). -/
def execVandn (o : VIntOps) (s : State) : Host.Outcome State Fault Refusal := vintIssue .andn false o s
/-- VSHL (R277). -/
def execVshl (o : VIntOps) (s : State) : Host.Outcome State Fault Refusal := vintIssue .shl true o s
/-- VSHR (R277). -/
def execVshr (o : VIntOps) (s : State) : Host.Outcome State Fault Refusal := vintIssue .shr true o s
/-- VSAR (R277). -/
def execVsar (o : VIntOps) (s : State) : Host.Outcome State Fault Refusal := vintIssue .sar true o s
/-- VPOPC (R277). -/
def execVpopc (o : VUnOps) (s : State) : Host.Outcome State Fault Refusal := vunIssue popN o s
/-- VCLZ (R277). -/
def execVclz (o : VUnOps) (s : State) : Host.Outcome State Fault Refusal := vunIssue clzN o s
/-- VSEL (R278): pk chooses for every element, whatever the governing predicate says. -/
def execVsel (o : VselOps) (s : State) : Host.Outcome State Fault Refusal :=
  let w := iBits o.iw
  issue s o.pre { v := [o.vd, o.x, o.y], on := onW w } (fun s k =>
    let x := readV s.tick k.t o.x
    let y := readV s.tick k.t o.y
    let p := readP k.t o.k
    setV s k o.vd (vMap0 w (onE k o.pre w) (readV s.tick k.t o.vd) (fun i => if elemOn p w i then elem w x i else elem w y i), {}))
/-- VMOV (R278). -/
def execVmov (o : VUnOps) (s : State) : Host.Outcome State Fault Refusal := vunIssue (fun _ x => x) o s
/-- VBCAST (R278). -/
def execVbcast (o : VbcastOps) (s : State) : Host.Outcome State Fault Refusal :=
  let w := iBits o.iw
  issue s o.pre { rg := [(o.g, narI o.iw)], v := [o.vd], on := onW w } (fun s k =>
    setV s k o.vd (vMap0 w (onE k o.pre w) (readV s.tick k.t o.vd) (fun _ => (k.val 0).toNat % 2 ^ w), {}))
/-- VEXT (R278). -/
def execVext (o : VextOps) (s : State) : Host.Outcome State Fault Refusal :=
  let w := iBits o.iw
  issue s o.pre { wg := [(o.rd, narI o.iw)], v := [o.x], on := fun m => elemOn m w o.i } (fun s k =>
    setG s k o.rd (dw (elem w (readV s.tick k.t o.x) o.i), {}))
/-- VINS (R278). -/
def execVins (o : VinsOps) (s : State) : Host.Outcome State Fault Refusal :=
  let w := iBits o.iw
  issue s o.pre { rg := [(o.g, narI o.iw)], v := [o.vd], on := fun m => elemOn m w o.i } (fun s k =>
    setV s k o.vd (vMap0 w (fun i => decide (i = o.i)) (readV s.tick k.t o.vd) (fun _ => (k.val 0).toNat % 2 ^ w), {}))
/-- VFCVT (R279). -/
def execVfcvt (o : VFcvtOps) (s : State) : Host.Outcome State Fault Refusal :=
  let a := fmtOf o.src
  let b := fmtOf o.dst
  issue s o.pre { v := [o.vd, o.x], on := onW (Nat.max a.width b.width) } (fun s k =>
    setV s k o.vd (vfcvt a b (RSelMode o.rm k.t.regs.fpc) o.q.val (lanesOf k.t o.pre) (readV s.tick k.t o.vd) (readV s.tick k.t o.x)))
/-- VFTOI (R280). -/
def execVftoi (o : VFintOps) (s : State) : Host.Outcome State Fault Refusal := vftoiIssue true o s
/-- VFTOIU (R280). -/
def execVftoiu (o : VFintOps) (s : State) : Host.Outcome State Fault Refusal := vftoiIssue false o s
/-- VITOF (R280). -/
def execVitof (o : VFintOps) (s : State) : Host.Outcome State Fault Refusal := vitofIssue true o s
/-- VIUTOF (R280). -/
def execViutof (o : VFintOps) (s : State) : Host.Outcome State Fault Refusal := vitofIssue false o s
/-- VFTON (R281). -/
def execVfton (o : VFnarOps) (s : State) : Host.Outcome State Fault Refusal :=
  issue s o.pre { v := [o.vd, o.x], on := onW 32 } (fun s k =>
    withNf s k o.nf (fun f =>
      if groupMax f.width < o.q.val then Res.illegal s 3
      else
        let x := readV s.tick k.t o.x
        setV s k o.vd (putGroup f.width o.q.val (onE k o.pre 32) (readV s.tick k.t o.vd)
          (fun j => fpConvert fp32 f (RSelMode o.rm k.t.regs.fpc) o.sat (elem 32 x j)))))
/-- VNTOF (R281). -/
def execVntof (o : VFnarOps) (s : State) : Host.Outcome State Fault Refusal :=
  issue s o.pre { v := [o.vd, o.x], on := onW 32 } (fun s k =>
    withNf s k o.nf (fun f =>
      if groupMax f.width < o.q.val then Res.illegal s 3
      else
        let x := readV s.tick k.t o.x
        setV s k o.vd (vMap 32 (onE k o.pre 32) (readV s.tick k.t o.vd) (fun j => fpConvert f fp32 .rne false (narrowOf f.width x o.q.val j)))))
/-- VMXSC (R282). -/
def execVmxsc (o : VmxscOps) (s : State) : Host.Outcome State Fault Refusal :=
  issue s o.pre { wg := [(o.rd, true)], v := [o.x], on := onW 32 } (fun s k =>
    withNf s k o.nf (fun f => let r := vmxscOf f (lanesOf k.t o.pre) (readV s.tick k.t o.x); setG s k o.rd (dw r.1, r.2)))
/-- VMXPK (R282). -/
def execVmxpk (o : VmxOps) (s : State) : Host.Outcome State Fault Refusal := vmxIssue true o s
/-- VMXUNPK (R282). -/
def execVmxunpk (o : VmxOps) (s : State) : Host.Outcome State Fault Refusal := vmxIssue false o s
/-- VEXP2 (R283). -/
def execVexp2 (o : VFp1ROps) (s : State) : Host.Outcome State Fault Refusal := vfp1rIssue .transcendental (fpTrans .exp2) o s
/-- VLOG2 (R283). -/
def execVlog2 (o : VFp1ROps) (s : State) : Host.Outcome State Fault Refusal := vfp1rIssue .transcendental (fpTrans .log2) o s
/-- VRCP (R283). -/
def execVrcp (o : VFp1ROps) (s : State) : Host.Outcome State Fault Refusal := vfp1rIssue .transcendental (fpTrans .rcp) o s
/-- VRSQRT (R283). -/
def execVrsqrt (o : VFp1ROps) (s : State) : Host.Outcome State Fault Refusal := vfp1rIssue .transcendental (fpTrans .rsqrt) o s
/-- VSINPI (R283). -/
def execVsinpi (o : VFp1ROps) (s : State) : Host.Outcome State Fault Refusal := vfp1rIssue .transcendental (fpTrans .sinpi) o s
/-- VCOSPI (R283). -/
def execVcospi (o : VFp1ROps) (s : State) : Host.Outcome State Fault Refusal := vfp1rIssue .transcendental (fpTrans .cospi) o s
/-- VSHUF (R284). -/
def execVshuf (o : VVVOps) (s : State) : Host.Outcome State Fault Refusal :=
  let w := iBits o.iw
  issue s o.pre { v := [o.vd, o.x, o.y], on := onW w } (fun s k =>
    setV s k o.vd (vshuf w (onE k o.pre w) (readV s.tick k.t o.vd) (readV s.tick k.t o.x) (readV s.tick k.t o.y), {}))
/-- VPERM (R285). -/
def execVperm (o : VpermOps) (s : State) : Host.Outcome State Fault Refusal :=
  let w := iBits o.iw
  issue s o.pre { v := [o.vd, o.x], on := onW w } (fun s k =>
    let x := readV s.tick k.t o.x
    setV s k o.vd (vMap0 w (onE k o.pre w) (readV s.tick k.t o.vd) (fun i => elem w x (vpermSrc (1024 / w) o.mode.val o.k i)), {}))
/-- VROT (R286). -/
def execVrot (o : VrotOps) (s : State) : Host.Outcome State Fault Refusal :=
  let w := iBits o.iw
  issue s o.pre { rg := srcUses false o.y, v := [o.vd, o.x], on := onW w } (fun s k =>
    setV s k o.vd (vrot w o.gs (srcVal k 0 o.y).toNat (onE k o.pre w) (readV s.tick k.t o.vd) (readV s.tick k.t o.x), {}))
/-- VVOTEANY (R287). -/
def execVvoteAny (o : VvoteOps) (s : State) : Host.Outcome State Fault Refusal := vvoteIssue false o s
/-- VVOTEALL (R287). -/
def execVvoteAll (o : VvoteOps) (s : State) : Host.Outcome State Fault Refusal := vvoteIssue true o s
/-- VVOTE_BALLOT (R287). -/
def execVvoteBallot (o : VballotOps) (s : State) : Host.Outcome State Fault Refusal :=
  issue s o.pre { wg := [(o.rd, true)], v := [0], on := onW 32 } (fun s k =>
    setG s k o.rd ((readP k.t o.x &&& lanesOf k.t o.pre).setWidth 64, {}))
/-- VMATCH (R288). -/
def execVmatch (o : VUnOps) (s : State) : Host.Outcome State Fault Refusal :=
  let w := iBits o.iw
  issue s o.pre { v := [o.vd, o.x], on := onW w } (fun s k =>
    setV s k o.vd (vmatch w (onE k o.pre w) (readV s.tick k.t o.vd) (readV s.tick k.t o.x), {}))
/-- VREDADD (R289). -/
def execVredAdd (o : VFredOps) (s : State) : Host.Outcome State Fault Refusal := vfredIssue .add o s
/-- VREDMIN (R289). -/
def execVredMin (o : VFredOps) (s : State) : Host.Outcome State Fault Refusal := vfredIssue .min o s
/-- VREDMAX (R289). -/
def execVredMax (o : VFredOps) (s : State) : Host.Outcome State Fault Refusal := vfredIssue .max o s
/-- VREDIADD (R289). -/
def execVredIadd (o : VIredOps) (s : State) : Host.Outcome State Fault Refusal := viredIssue .add o s
/-- VREDIMIN (R289). -/
def execVredImin (o : VIredOps) (s : State) : Host.Outcome State Fault Refusal := viredIssue .min o s
/-- VREDIMAX (R289). -/
def execVredImax (o : VIredOps) (s : State) : Host.Outcome State Fault Refusal := viredIssue .max o s
/-- VREDIMINU (R289). -/
def execVredIminu (o : VIredOps) (s : State) : Host.Outcome State Fault Refusal := viredIssue .minu o s
/-- VREDIMAXU (R289). -/
def execVredImaxu (o : VIredOps) (s : State) : Host.Outcome State Fault Refusal := viredIssue .maxu o s
/-- VREDAND (R289). -/
def execVredAnd (o : VIredOps) (s : State) : Host.Outcome State Fault Refusal := viredIssue .and o s
/-- VREDOR (R289). -/
def execVredOr (o : VIredOps) (s : State) : Host.Outcome State Fault Refusal := viredIssue .or o s
/-- VREDXOR (R289). -/
def execVredXor (o : VIredOps) (s : State) : Host.Outcome State Fault Refusal := viredIssue .xor o s
/-- VSCANADD (R290). -/
def execVscanAdd (o : VFscanOps) (s : State) : Host.Outcome State Fault Refusal := vfscanIssue .add o s
/-- VSCANMIN (R290). -/
def execVscanMin (o : VFscanOps) (s : State) : Host.Outcome State Fault Refusal := vfscanIssue .min o s
/-- VSCANMAX (R290). -/
def execVscanMax (o : VFscanOps) (s : State) : Host.Outcome State Fault Refusal := vfscanIssue .max o s
/-- VSCANIADD (R290). -/
def execVscanIadd (o : VIscanOps) (s : State) : Host.Outcome State Fault Refusal := viscanIssue .add o s
/-- VSCANIMIN (R290). -/
def execVscanImin (o : VIscanOps) (s : State) : Host.Outcome State Fault Refusal := viscanIssue .min o s
/-- VSCANIMAX (R290). -/
def execVscanImax (o : VIscanOps) (s : State) : Host.Outcome State Fault Refusal := viscanIssue .max o s
/-- VSCANIMINU (R290). -/
def execVscanIminu (o : VIscanOps) (s : State) : Host.Outcome State Fault Refusal := viscanIssue .minu o s
/-- VSCANIMAXU (R290). -/
def execVscanImaxu (o : VIscanOps) (s : State) : Host.Outcome State Fault Refusal := viscanIssue .maxu o s

end Sys2Proof.Machine
end

