-- ==== Sys2Proof/Machine/Matrix.lean ====
section
/-!
DEFINITION. The matrix instructions of page 6 at issue (spec/10, R291 to R314). MatrixUnit.lean has what the unit does with a command.
-/
namespace Sys2Proof.Machine

/-! ## Panels and descriptors (R295, R296) -/

/-- The shape of a product's panels (R295): K, bytes of a row, bits of an element, scale bytes of a row. -/
structure Geo where
  k : Nat
  row : Nat
  bits : Nat
  scales : Nat
deriving DecidableEq, Repr, Inhabited

/-- R295, by major and MOD of R298 and, for `mma.mx`, the width of the elements. -/
def geoOf (major mod width : Nat) : Geo :=
  match major with
  | 0 => { k := 32, row := 64, bits := 16, scales := 0 }
  | 1 => match width with
    | 8 => { k := 64, row := 64, bits := 8, scales := 2 }
    | 6 => { k := 128, row := 96, bits := 6, scales := 4 }
    | _ => { k := 128, row := 64, bits := 4, scales := 4 }
  | 2 => if mod = 0 then { k := 64, row := 64, bits := 8, scales := 0 } else { k := 128, row := 64, bits := 4, scales := 0 }
  | _ => if mod = 2 then { k := 64, row := 64, bits := 8, scales := 0 } else { k := 32, row := 64, bits := 16, scales := 0 }

def Geo.bytes (g : Geo) : Nat := 16 * g.row + 16 * g.scales

/-- LINE, NF and R of a descriptor (R296). -/
def panelLine (d : Dword) : Dword := d &&& 0xFFFFFFFFFFFFFF80#64
def panelNf (d : Dword) : Nat := fld d 6 4
def panelRows (d : Dword) : Nat := fld d 3 0 + 1

/-- The fields of a product's descriptors that must be zero, and R (R296). -/
def panelsBad (mx ring : Bool) (maxRows : Nat) (da db : Dword) : Bool :=
  (!mx && (decide (panelNf da ≠ 0) || decide (panelNf db ≠ 0))) || decide (maxRows < panelRows da) || decide (fld db 3 0 ≠ 0) ||
    (ring && decide (db ≠ 0))

/-- A grid whose threads are co-resident (R45). -/
def coResident (s : State) (c : CoreId) (t : Thread) : Bool :=
  match gridOf s c t with
  | some g => g.coloc || g.hdr.net
  | none => false

def nfAt (r : Regs) (i : Nat) : Half := r.nf.toList.getD i 0

/-! ## The queue at issue (R291) -/

/-- A result to a tile is outstanding (R147); earlier ones to the same tile are not stale, since every tile write happens (R292). -/
def pushTile (t : Thread) (m : MReg) : Thread :=
  { t with out := t.out ++ [{ seq := t.seq, dst := .t m, val := .none, flags := {}, ready := false, staleBy := none }] }

/-- A command of the issuing thread; its operands are those of the instruction. -/
def localCmd (k : Ctx) (tile seq : Nat) (op : MOp) (da db : Dword) (nfA nfB : Half) : MCmd :=
  { who := k.who, slot := k.slot, seq := seq, remote := none, tile := tile, op := op, da := da, db := db, nfA := nfA, nfB := nfB,
    started := false, res := none }

/-- There is no room in the queue, or another thread of the core has waited longer for it (R291). -/
def queueFull (s : State) (k : Ctx) : Bool :=
  decide (8 ≤ (getCore s k.c).mq.length) || lineTaken (getCore s k.c) k.slot k.t .mqueue

/-- A command enters the queue, or the thread is HELD while there is no room (R291). -/
def enqueue (s : State) (k : Ctx) (f : Thread → Thread) (m : MCmd) : Res :=
  if queueFull s k then .hold s .mqueue
  else .ok (modCore (k.upd s f) k.c (fun x => { x with mq := x.mq ++ [m] }))

/-- A command that writes a tile. -/
def enqueueTile (s : State) (k : Ctx) (t : MReg) (op : MOp) (da db : Dword) (nfA nfB : Half) : Res :=
  enqueue s k (fun x => pushTile x t) (localCmd k t.val k.t.seq op da db nfA nfB)

/-! ## Products (R300, R301) -/

/-- The FUNC bits of R298. -/
def prodFunc (z ring sat sa sb : Bool) : Nat := bit z 0 + bit ring 1 + bit sat 2 + bit sa 3 + bit sb 4

/-- The frame of a product: descriptors, their addresses in the own scratchpad, then their fields, then the queue. DESIGN CHOICE: log entry 19. -/
def productIssue (major func mod : Nat) (pre : Pre) (t : MReg) (a : GReg) (b : Option GReg) (s : State) :
    Host.Outcome State Fault Refusal :=
  issue s pre { rg := (a, false) :: flagUses b, m := [t], lat := 1, eff := true, noFp := true } (fun s k =>
    let da := k.val 0
    let db := flagVal k 1 b
    let nfA := if major = 1 then nfAt k.t.regs (panelNf da) else 0
    let nfB := if major = 1 ∧ b.isSome then nfAt k.t.regs (panelNf db) else 0
    let bad := decide (major = 1) && (match nfFmt nfA, nfFmt nfB with
      | some fa, some fb => b.isSome && decide (fa.width ≠ fb.width)
      | some _, none => b.isSome
      | none, _ => true)
    let g := geoOf major mod (match nfFmt nfA with | some f => f.width | none => 8)
    if b.isNone && !coResident s k.c k.t then Res.illegal s 3
    else if bad then Res.illegal s 3
    else if (ownSpad k.c (panelLine da) g.bytes).isNone then Res.access s 1 (panelLine da)
    else if b.isSome && (ownSpad k.c (panelLine db) g.bytes).isNone then Res.access s 1 (panelLine db)
    else if panelsBad (decide (major = 1)) b.isNone (getCore s k.c).maxRows da db then Res.illegal s 3
    else enqueueTile s k t (.product major func mod) da db nfA nfB)

/-- MMA (R300). -/
def execMma (o : MmaOps) (s : State) : Host.Outcome State Fault Refusal :=
  productIssue 0 (prodFunc o.z o.b.isNone false false false) (if o.half then 1 else 0) o.pre o.t o.a o.b s
/-- MMA_MX (R300, R301). -/
def execMmaMx (o : MmaOps) (s : State) : Host.Outcome State Fault Refusal :=
  productIssue 1 (prodFunc o.z o.b.isNone false false false) 0 o.pre o.t o.a o.b s
/-- MMA_I8 (R300). -/
def execMmaI8 (o : MmaIOps) (s : State) : Host.Outcome State Fault Refusal :=
  productIssue 2 (prodFunc o.z o.b.isNone o.sat o.sa o.sb) 0 o.pre o.t o.a o.b s
/-- MMA_I4 (R300). -/
def execMmaI4 (o : MmaIOps) (s : State) : Host.Outcome State Fault Refusal :=
  productIssue 2 (prodFunc o.z o.b.isNone o.sat o.sa o.sb) 1 o.pre o.t o.a o.b s
/-- MMSR_MINPLUS (R300). -/
def execMmsrMinplus (o : MmaOps) (s : State) : Host.Outcome State Fault Refusal :=
  productIssue 3 (prodFunc o.z o.b.isNone false false false) 0 o.pre o.t o.a o.b s
/-- MMSR_MAXTIMES (R300). -/
def execMmsrMaxtimes (o : MmaOps) (s : State) : Host.Outcome State Fault Refusal :=
  productIssue 3 (prodFunc o.z o.b.isNone false false false) 1 o.pre o.t o.a o.b s
/-- MMSR_ORAND (R300). -/
def execMmsrOrand (o : MmaOps) (s : State) : Host.Outcome State Fault Refusal :=
  productIssue 3 (prodFunc o.z o.b.isNone false false false) 2 o.pre o.t o.a o.b s

/-! ## Tiles in and out (R302, R303) -/

/-- MZERO (R302). -/
def execMzero (o : TileOps) (s : State) : Host.Outcome State Fault Refusal :=
  issue s o.pre { m := [o.t], lat := 1, eff := true, noFp := true } (fun s k => enqueueTile s k o.t .zero 0 0 0 0)

/-- A line-aligned range of the own scratchpad, or the access fault (R302, R304). -/
def ownLines (s : State) (k : Ctx) (a : Dword) (n : Nat) : Option Res :=
  if a.toNat % 128 ≠ 0 then some (Res.access s 4 a)
  else if (ownSpad k.c a n).isNone then some (Res.access s 1 a) else none

/-- MLOAD (R302). -/
def execMload (o : MloadOps) (s : State) : Host.Outcome State Fault Refusal :=
  issue s o.pre { rg := [(o.b, false)], m := [o.t], lat := 1, eff := true, noFp := true } (fun s k =>
    match ownLines s k (k.val 0) 1024 with
    | some r => r
    | none => enqueueTile s k o.t .load (k.val 0) 0 0 0)

/-- A drain in the queue: it takes its number among the core's items here (R224, R303). -/
def enqueueDrain (s : State) (k : Ctx) (t : MReg) (kind : Nat) (note u : Bool) (mod : Nat) (target arg : Dword) : Res :=
  if queueFull s k then .hold s .mqueue
  else enqueue { s with itemSeq := s.itemSeq + 1 } k id (localCmd k t.val s.itemSeq (.drain kind note u mod target arg) target arg 0 0)

/-- R303, KIND 0 and 1. -/
def drainIssue (kind mod : Nat) (o : MdrainOps) (s : State) : Host.Outcome State Fault Refusal :=
  issue s o.pre { rg := (o.b, false) :: flagUses o.flag, m := [o.t], eff := true, noFp := true } (fun s k =>
    posted s k (k.val 0) (flagVal k 1 o.flag) 1024 32 (fun _ => true) (fun a f => enqueueDrain s k o.t kind o.note false mod a f))

/-- MDRAIN (R303). -/
def execMdrain (o : MdrainOps) (s : State) : Host.Outcome State Fault Refusal := drainIssue 0 0 o s
/-- MDRAIN_ADD (R303). -/
def execMdrainAdd (o : MdrainOps) (s : State) : Host.Outcome State Fault Refusal := drainIssue 1 (if o.i32 then 1 else 0) o s

/-- MDRAIN_Q (R303, R304): gC addresses the parameter block, which names the flag. -/
def execMdrainQ (o : MdrainQOps) (s : State) : Host.Outcome State Fault Refusal :=
  issue s o.pre { rg := [(o.b, false), (o.param, false)], m := [o.t], eff := true, noFp := true } (fun s k =>
    if (k.val 0).toNat % 32 ≠ 0 then Res.access s 4 (k.val 0)
    else match ownLines s k (k.val 1) 128 with
    | some r => r
    | none => posted s k (k.val 0) 0 256 32 (fun _ => true) (fun a _ => enqueueDrain s k o.t 2 o.note o.u 0 a (k.val 1)))

/-! ## Waiting and reading (R306, R307) -/

/-- MWAIT (R306). -/
def execMwait (o : TileOps) (s : State) : Host.Outcome State Fault Refusal :=
  issue s o.pre { m := [o.t], noFp := true } (fun s k =>
    if cmdsOn (getCore s k.c) k.slot (some o.t) then .hold s (.tiles (some o.t)) else .ok s)

/-- MWAIT_ALL (R306). -/
def execMwaitAll (o : BareOps) (s : State) : Host.Outcome State Fault Refusal :=
  issue s o.pre { noFp := true } (fun s k => if cmdsOn (getCore s k.c) k.slot none then .hold s (.tiles none) else .ok s)

/-- Rows 2h and 2h + 1 of a tile. -/
def tileRows (t : Tile) (h : Nat) : Vec := BitVec.ofNat 1024 (t.toNat / 2 ^ (1024 * h))

/-- The rows as `mrd` reads them: each sector before or after each command on the tile that has started (R148, R307). -/
def readRows (tick tile h : Nat) (old : Vec) : List MCmd → Vec
  | [] => old
  | m :: l => readRows tick (tile + 8) h (match m.res with
    | some x => mixSectors tick (96 + tile) old (tileRows x h)
    | none => old) l

/-- MRD (R307). -/
def execMrd (o : MrdOps) (s : State) : Host.Outcome State Fault Refusal :=
  issue s o.pre { v := [o.v], m := [o.t], noFp := true, on := onW 32 } (fun s k =>
    let mine := (getCore s k.c).mq.filter (fun m => decide (m.slot = k.slot ∧ m.tile = o.t.val))
    let x := readRows s.tick o.t.val o.h.val (tileRows k.t.regs.t[o.t] o.h.val) mine
    setV s k o.v (vMap0 32 (onE k o.pre 32) (readV s.tick k.t o.v) (elem 32 x), {}))

/-! ## Remote commands and grants (R308, R309) -/

/-- MCMD (R309): the command block is read at issue. DESIGN CHOICE: log entry 40. -/
def execMcmd (o : BcOps) (s : State) : Host.Outcome State Fault Refusal :=
  issue s o.pre { rg := [(o.b, false), (o.c, false)], eff := true, noFp := true } (fun s k =>
    let b := k.val 0
    let a := k.val 1
    if 8192 ≤ b.toNat then Res.access s 9 b
    else if !coreIn s k.c.pkg k.t.pid b.toNat then Res.access s 2 b
    else if (getCore s { k.c with n := b.toNat }).tenancy ≠ k.t.gslot ∧ crewOff s k.c.pkg b.toNat k.t.gslot = false then Res.access s 9 b
    else if a.toNat % 32 ≠ 0 then Res.access s 4 a
    else match ownSpad k.c a 32 with
      | none => Res.access s 1 a
      | some r => reach s k r 32 .read (fun s ph =>
          let x := readNat s k.t.gslot ph 32
          let byte := fun (i : Nat) => x / 2 ^ (8 * i) % 256
          let flag := dw (dword x 3)
          match issueFlag s k.c flag with
          | .inl c => Res.access s c flag
          | .inr f =>
            if !itemRoom s k.c then .hold s .items
            else
              let m : RemoteCmd := {
                who := k.who, target := { k.c with n := b.toNat }, key := x % 2 ^ 32, major := byte 4, func := byte 5, mod := byte 6,
                tile := byte 7 % 8, da := dw (dword x 1), db := dw (dword x 2), block := r, flag := f,
                no := s.itemSeq,
                malformed := decide (128 ≤ byte 5) || decide (4 ≤ byte 6) || decide (8 ≤ byte 7) }
              .ok { numbered s with remotes := s.remotes ++ [m] }))

/-- MGRANT (R308). A grant whose holder has been saved is held by no slot: another thread in the slot finds it taken, and it stays when the image is
discarded; R308 speaks of `quit`, `susp` and a tenancy change alone. DESIGN CHOICE: log entry 40. -/
def execMgrant (o : RrrOps) (s : State) : Host.Outcome State Fault Refusal :=
  issue s o.pre { rg := [(o.b, false), (o.c, false)], wg := [(o.rd, false)], noFp := true } (fun s k =>
    let b := k.val 0
    let m := k.val 1
    let core := getCore s k.c
    if fld b 63 32 ≠ 0 then Res.illegal s 3
    else if fld m 63 8 ≠ 0 ∨ 2 ^ k.t.allot.a ≤ fld m 7 0 then Res.illegal s 3
    else
      let ours := match core.grant with
        | some x => decide (x.slot = k.slot ∧ x.away = none)
        | none => true
      if ours then
        let gr : Option Grant := if m = 0 then none else some { slot := k.slot, key := fld b 31 0, mask := fld m 7 0, away := none }
        setG (setCore s k.c { core with grant := gr }) k o.rd (0, {})
      else setG s k o.rd (1, {}))

/-! ## The ring (R312) -/

/-- Bytes of an `mring` size class. -/
def ringBytes (cls : Nat) : Nat := match cls with | 0 => 1024 | 1 => 1056 | 2 => 1088 | _ => 1600

/-- Width of the elements of size classes 1 to 3. -/
def ringWidth (cls : Nat) : Nat := match cls with | 1 => 8 | 2 => 4 | _ => 6

/-- MRING (R312). -/
def execMring (o : MringOps) (s : State) : Host.Outcome State Fault Refusal :=
  issue s o.pre { rg := [(o.b, false)], eff := true, noFp := true } (fun s k =>
    let d := k.val 0
    let cls := o.cls.val
    let nf := nfAt k.t.regs (panelNf d)
    let ok := match nfFmt nf with
      | some f => decide (f.width = ringWidth cls)
      | none => false
    if !coResident s k.c k.t then Res.illegal s 3
    else if (ownSpad k.c (panelLine d) (ringBytes cls)).isNone then Res.access s 1 (panelLine d)
    else if fld d 3 0 ≠ 0 ∨ (cls = 0 ∧ panelNf d ≠ 0) ∨ (cls ≠ 0 ∧ ok = false) then Res.illegal s 3
    else enqueue s k id (localCmd k 8 0 (.ring cls) d 0 (if cls = 0 then 0 else nf) 0))

/-- MRING_RECV (R312). -/
def execMringRecv (o : BareOps) (s : State) : Host.Outcome State Fault Refusal :=
  issue s o.pre { eff := true, noFp := true } (fun s k =>
    if !coResident s k.c k.t then Res.illegal s 3 else enqueue s k id (localCmd k 8 0 .ringRecv 0 0 0 0))

/-- MPASS (R312). -/
def execMpass (o : BareOps) (s : State) : Host.Outcome State Fault Refusal :=
  issue s o.pre { eff := true, noFp := true } (fun s k =>
    let d := downstream k.c.n
    if !coResident s k.c k.t then Res.illegal s 3
    else if (getCore s { k.c with n := d }).tenancy ≠ k.t.gslot ∧ crewOff s k.c.pkg d k.t.gslot = false then Res.access s 9 (dw d)
    else enqueue s k id (localCmd k 8 0 .pass 0 0 0 0))

/-! ## Capability and narrow formats (R313, R314) -/

/-- MCAP (R313): VERSION 1, LATCH 13, QDEPTH 8, MAXROWS. -/
def execMcap (o : RdOps) (s : State) : Host.Outcome State Fault Refusal :=
  issue s o.pre { wg := [(o.rd, false)], noFp := true } (fun s k =>
    setG s k o.rd (dw (2 ^ 16 + 13 * 2 ^ 12 + 8 * 2 ^ 8 + (getCore s k.c).maxRows), {}))

/-- MFMT (R314). -/
def execMfmt (o : MfmtOps) (s : State) : Host.Outcome State Fault Refusal :=
  issue s o.pre { rg := [(o.x, true)], noFp := true } (fun s k =>
    let d : Half := (k.val 0).setWidth 16 &&& 0xFFFC#16
    .ok (k.upd s (fun t => { t with regs := { t.regs with nf := t.regs.nf.set o.nf d } })))

/-- MFMTR (R314). -/
def execMfmtr (o : MfmtrOps) (s : State) : Host.Outcome State Fault Refusal :=
  issue s o.pre { wg := [(o.rd, false)], noFp := true } (fun s k => setG s k o.rd (k.t.regs.nf[o.nf].setWidth 64, {}))

end Sys2Proof.Machine
end

