-- ==== Sys2Proof/Machine/Crew.lean ====
section
/-!
DEFINITION. Crews that leave their cores and come back: the tenancy change (R32, R33), crew images (R373), and restore (R375).
-/
namespace Sys2Proof.Machine

/-! ## Tenancy (R32, R33) -/

/-- A core's tenancy changes: every line of its scratchpad zero and full, and every other state of the old grid cleared. The weir's loads for it end; those
of `cfetch` still make their arrivals, and store nothing (R329). -/
def changeTenancy (s : State) (c : CoreId) (g : Option Nat) : State :=
  let lo := c.pkg * 2 ^ 48 + spadBase c.n
  let hi := lo + 2 ^ 19
  let out := fun (a : Nat) => decide (a < lo) || decide (hi ≤ a)
  let s1 := { s with
    mem := memForget s.mem lo hi, empty := s.empty.filter out, poison := s.poison.filter out, arms := s.arms.filter (fun m => decide (m.who.core ≠ c)) }
  modCore s1 c (fun k => { k with
    tenancy := g, era := k.era + 1, nq := Vector.replicate 4 [], reel := k.reel.map (fun r => { Reel.reset with era := r.era + 1 }), latCur := none, latInc := none,
    grant := none, inbox := [], heldRecs := [], resident := [], loads := k.loads.filter (fun l => l.who.isSome) })

/-! ## Saving (R371, R373) -/

/-- A thread of a crew saved: at the instruction that has not issued, or, where its trap waits for delivery, TRAPPED (R365, R378). -/
def saveMember (s : State) (c : CoreId) (slot a : Nat) : State × Nat :=
  let plain := fun (s : State) => saveThread s c slot { trapped := false, ecall := false, mchk := false } a
  match getT s c slot with
  | none => (s, 0)
  | some t => match t.trap with
    | some i => if userHandled s c t i then plain (setT s c slot (some { t with trap := none })) else saveTrapped s c slot t i a none
    | none => plain s

/-- A crew saved at a physical address (R373): the bytes before its thread images, the records (those that the hub holds for it among them, R259), queues, latches and reel units
that leave the core with it, then the images of its threads; the redirect entry of R48 is kept. `home` are the slots of the crew's stacks. -/
def saveCrew (s : State) (c : CoreId) (g crew level : Nat) (h : Header) (home : List Nat) (a : Nat) : State × Nat :=
  let k := getCore s c
  let slots := crewSlots k g crew
  let recs := (k.inbox ++ k.heldRecs).filter (fun r => decide (r.crew = crew))
  let netq := h.net && decide (crew = 0)
  let latch := decide (crew = 0) && (k.latCur.isSome || k.latInc.isSome)
  let parts := crewParts c h crew home
  let hd := crewHead h home.length recs.length netq latch
  let bits := packBits (parts.flatMap (fun p => (List.range (p.2 / 128)).map (fun i => !lineEmpty s none (p.1 + 128 * i))))
  let own := fun (r : Reel) => decide (r.owner = some crew)
  let reels := k.reel.toList
  let body := (if netq then netqBytes k else []) ++
    (if latch then latchData k.latCur ++ latchData k.latInc ++ latchState k.latCur ++ latchState k.latInc else []) ++
    recs.flatMap recBytes ++ bits ++ List.replicate (hd.2 - hd.1 - bits.length) 0 ++ parts.flatMap (fun p => readBytes s none p.1 p.2)
  let start := roundUp (64 + body.length) 64
  let saved := slots.foldl (fun (x : State × Nat) sl => let r := saveMember x.1 c sl (a + x.2); (r.1, x.2 + r.2)) (s, start)
  let header := leBytes 8 (saved.2 + slots.length * 2 ^ 32 + g * 2 ^ 40 + bit latch 48 + bit netq 49) ++
    leBytes 8 (c.n + crew * 2 ^ 16 + level * 2 ^ 32) ++ reels.flatMap (fun r => leBytes 8 (if own r then r.reg.toNat else 0)) ++
    reels.flatMap (fun r => leBytes 1 (if own r then r.now else 0) ++ leBytes 1 (if own r then r.next else 0)) ++ leBytes 8 recs.length
  let s1 := writeBytes saved.1 none a (header ++ body)
  let s2 := modCore s1 c (fun k => { k with
    inbox := k.inbox.filter (fun r => decide (r.crew ≠ crew))
    heldRecs := k.heldRecs.filter (fun r => decide (r.crew ≠ crew))
    reel := k.reel.map (fun r => if own r then { Reel.reset with era := r.era } else r)
    nq := if netq then Vector.replicate 4 [] else k.nq
    latCur := if latch then none else k.latCur
    latInc := if latch then none else k.latInc })
  let red : Redirect := {
    pkg := c.pkg, core := c.n, gslot := g, crew := crew, base := (parts.headD (0, 0)).1, size := h.spad, image := a,
    bitsAt := a + hd.1, dataAt := a + hd.2, recs := [], home := home, eras := reels.map (fun r => r.era) }
  ({ s2 with redirects := s2.redirects ++ [red] }, saved.2)

/-! ## Reading an image (R371, R373) -/

/-- The threads of a crew image: their addresses. -/
def memberAddrs (s : State) : Nat → Nat → List Nat
  | 0, _ => []
  | n + 1, a => a :: memberAddrs s n (a + readNat s none a 4)

/-- Where the thread images of a crew image begin. -/
def membersStart (r : Redirect) (h : Header) : Nat := r.image + roundUp (r.dataAt - r.image + h.spad + r.home.length * h.stack) 64

/-- The thread images of a crew. -/
def membersOf (s : State) (r : Redirect) (h : Header) : List Nat :=
  memberAddrs s (readNat s none (r.image + 4) 1) (membersStart r h)

def imgTrapped (s : State) (a : Nat) : Bool := decide (readNat s none (a + 7) 1 % 2 = 1)

/-- The withdrawn commands of a thread image: how many. -/
def imgCmds (s : State) (a : Nat) : Nat := readNat s none (a + 0x18) 8 / 2 ^ 40 % 2 ^ 8

/-- A core's matrix queue has room for the withdrawn commands of the images that go back to it (R291, R293). -/
def cmdRoom (s : State) (c : CoreId) (l : List Nat) : Bool :=
  decide ((getCore s c).mq.length + ((l.filter (fun a => !imgTrapped s a)).map (imgCmds s)).foldl (· + ·) 0 ≤ 8)

def imgSlot (s : State) (a : Nat) : Nat := readNat s none (a + 8) 8 / 2 ^ 48 % 16

/-- Every result of an image has landed, and every access of its thread has been accepted (R375). -/
def imgSettled (s : State) (a : Nat) : Bool :=
  decide (readNat s none (a + 0x39) 1 = 0) && !s.lates.any (fun l => decide (l.img = a)) && !s.lateAccs.any (fun l => decide (l.img = a))

/-! ## Restore (R375) -/

/-- A withdrawn command re-enters the queue (R293): a local one that writes a tile as a result of its thread, a drain as the item that it was. -/
def reenter (s : State) (c : CoreId) (slot : Nat) (m : MCmd) : State :=
  match getT s c slot with
  | none => s
  | some t =>
    let seq := if m.remote.isSome then m.seq else match m.op with | .drain _ _ _ _ _ _ => if m.seq = 0 then s.itemSeq else m.seq | _ => t.seq
    let t1 := if m.remote.isSome then t else match m.op with
      | .drain _ _ _ _ _ _ => t
      | _ => if m.tile < 8 then pushTile t (Fin.ofNat 8 m.tile) else t
    let s1 := setT s c slot (some { t1 with seq := t1.seq + 1 })
    let s2 := modCore s1 c (fun k => { k with mq := k.mq ++ [{ m with seq := seq }] })
    match m.op with
    | .drain _ _ _ _ _ _ => { s2 with itemSeq := s2.itemSeq + 1 }
    | _ => s2

/-- A thread's image has been placed: a RESTORE of it that was busy is done, whatever put it on its core (R376). -/
def imgPlaced (s : State) (p pid a : Nat) : State :=
  modBlock s p pid (fun b => if b.imgreq.any (fun x => decide (x.1 = 1 ∧ devPhys p x.2 = a)) then { b with istat := 0, imgreq := none } else b)

/-- A thread placed from its image (R375 steps 4 and 5), READY or PARKED as it was saved (R39); a grant that it holds is its own again. DEDUCED: log entry 29. -/
def restoreThread (s : State) (c : CoreId) (g : Grid) (crew a : Nat) : State :=
  let h := g.hdr
  let x := readThread s c { g := h.g, v := h.v, a := h.a } h.net g.pid g.asid crew a
  let s1 := setT s c x.2.1 (some x.1)
  let s2 := modCore s1 c (fun k => { k with grant := k.grant.map (fun y => if y.away = some a then { y with slot := x.2.1, away := none } else y) })
  imgPlaced (x.2.2.foldl (fun s m => reenter s c x.2.1 m) (dropCmds s2 { g := h.g, v := h.v, a := h.a } a)) c.pkg g.pid a

/-- The base segment of a kernel in a core's instruction memory (R391): its bytes follow the header. -/
def loadBase (s : State) (c : CoreId) (khdr size : Nat) (bs : List Byte) : State :=
  modCore s c (fun k => { k with imem := bs.mapIdx (fun i b => (i, b)), base := some (khdr, size), resident := [] })

/-- An inbox record that comes back with its crew: into the inbox, or held where it is full (R227, R261). -/
def takeRec (k : Core) (r : Rec) : Core :=
  if k.inbox.length < inboxSize ∧ k.heldRecs = [] then { k with inbox := k.inbox ++ [r] } else { k with heldRecs := k.heldRecs ++ [r] }

/-- The record at an address. -/
def readRec (s : State) (crew a : Nat) : Rec :=
  let d := fun (i : Nat) => dw (readNat s none (a + 8 * i) 8)
  { crew := crew, d0 := d 0, d1 := d 1, d2 := d 2, d3 := d 3 }

/-- A latch buffer of an image. -/
def readLatch (s : State) (a st : Nat) : Option Latch :=
  if readNat s none st 8 = 0 then none
  else
    let d := readNat s none (st + 16) 8
    let size := readNat s none (st + 8) 8
    some { size := size, bytes := readBytes s none a size, desc := if d / 2 ^ 16 % 2 = 1 then some (BitVec.ofNat 16 d) else none }

/-- A crew's image put back on a core that can take it (R375): the region with its line bits and stacks, the redirect entry gone, then queues,
latches, reel units and records, then the threads; an image with TRAPPED is passed over. -/
def restoreCrew (s : State) (c : CoreId) (g : Grid) (r : Redirect) : State :=
  let h := g.hdr
  let img := r.image
  let sect := readNat s none (img + 6) 1
  let ninbox := readNat s none (img + 0x38) 8
  let members := membersOf s r h
  let parts := crewParts c h r.crew r.home
  let offs := (parts.foldl (fun (x : List (Nat × Nat × Nat) × Nat) p => (x.1 ++ [(p.1, p.2, x.2)], x.2 + p.2)) ([], 0)).1
  let s1 := { s with redirects := s.redirects.filter (fun y => decide (y ≠ r)) }
  let s2 := offs.foldl (fun s p =>
    let s1 := writeBytes s none p.1 (readBytes s none (r.dataAt + p.2.2) p.2.1)
    (List.range (p.2.1 / 128)).foldl (fun s i =>
      let b := p.2.2 / 128 + i
      setLine s none (p.1 + 128 * i) (decide ((readNat s none (r.bitsAt + b / 8) 1) / 2 ^ (b % 8) % 2 = 1))) s1) s1
  let netAt := img + 64
  let latAt := netAt + (if sect / 2 % 2 = 1 then 192 else 0)
  let recAt := latAt + (if sect % 2 = 1 then 3392 else 0)
  let s3 := modCore s2 c (fun k =>
    let k1 := if sect / 2 % 2 = 1 then { k with nq := Vector.ofFn (fun (i : Fin 4) =>
      (List.range (readNat s none (netAt + 128 + 8 * i.val) 8)).map (fun j => BitVec.ofNat 32 (readNat s none (netAt + 32 * i.val + 4 * j) 4))) } else k
    let k2 := if sect % 2 = 1 then { k1 with latCur := readLatch s latAt (latAt + 3328), latInc := readLatch s (latAt + 1664) (latAt + 3360) } else k1
    let owns := h.reel && decide (2 ≤ g.level)
    let k3 := if owns then { k2 with reel := Vector.ofFn (fun (i : Fin 4) =>
      { reg := dw (readNat s none (img + 0x10 + 8 * i.val) 8), owner := some r.crew, now := readNat s none (img + 0x30 + 2 * i.val) 1,
        next := readNat s none (img + 0x31 + 2 * i.val) 1, era := r.eras.getD i.val 0 }) } else k2
    let recs := (List.range ninbox).map (fun i => readRec s r.crew (recAt + 32 * i)) ++ r.recs
    recs.foldl takeRec k3)
  members.foldl (fun s a => if imgTrapped s a then s else restoreThread s c g r.crew a) s3

end Sys2Proof.Machine
end

