-- ==== Sys2Proof/Machine/Tasks.lean ====
section
/-!
DEFINITION. The task, future, barrier and confluence instructions of page 4 (spec/08, R234 to R262).
-/
namespace Sys2Proof.Machine

/-- A variable-latency status (R234). DEDUCED: log entry 14. -/
def statusG (s : State) (k : Ctx) (rd : GReg) (x : Nat) : Res := outG s k rd (dw x, {})

/-! ## Creating and ending threads (R237 to R241) -/

/-- Where a `spawn` is placed. -/
inductive Place where
  | slot (n slot : Nat)
  | ring (cluster : Nat)
  | refused
deriving DecidableEq, Repr, Inhabited

/-- The reservation of R238 on the candidate cores, then on the cluster's run queue. -/
def reserveOn (s : State) (p gslot : Nat) (h : Header) (seg cluster : Nat) (cands : List Nat) : Place :=
  match cands.findSome? (fun n => (takesThread s p n gslot h seg).map (fun sl => Place.slot n sl)) with
  | some r => r
  | none => if (ringFree (getHub s p cluster)).isSome then .ring cluster else .refused

/-- The thread or record of a `spawn` that was granted (R50, R238). DESIGN CHOICE: log entry 28. -/
def spawnInto (s : State) (k : Ctx) (g : Grid) (gslot seg pc share : Nat) (pl : Place) : State × Nat :=
  let t := k.t
  let args := [readG s.tick t 4, readG s.tick t 5, readG s.tick t 6, readG s.tick t 7]
  let g3 := dataBase g.hdr t.crew
  match pl with
  | .slot n sl =>
    let nt := newThread g gslot sl seg pc args g3 share t.domain 0xFFFFFFFF 0 t.crew t.prio
    (incLive (setT s { k.c with n := n } sl (some nt)) k.c.pkg t.gslot, 0)
  | .ring cl =>
    let r : CRec := { seg := seg, pc := pc, args := args, weight := share, frame := g3, state := 1, gslot := gslot, again := false, tid := 0,
                      prio := g.prio, kernel := t.kernel, domain := t.domain }
    (incLive (appendRing s k.c.pkg cl r).1 k.c.pkg t.gslot, 1)
  | .refused => (s, 2)

/-- SPAWN (R237, R238). -/
def execSpawn (o : SpawnOps) (s : State) : Host.Outcome State Fault Refusal :=
  issueMarked s o.pre { rg := (o.b, false) :: srcUses false o.start, lg := [o.rd], lat := 1, eff := true, noFp := true } (fun s k =>
    let t := k.t
    let b := k.val 0
    let own := clusterOf k.c.n
    let anyCore := decide (b = 0xFFFFFFFFFFFFFFFF#64)
    let st := srcVal k 1 o.start
    let isReg := match o.start with | .reg _ => true | .imm _ => false
    let seg : Nat := if isReg then fld st 47 32 else t.seg
    let pc : Nat := if isReg then fld st 16 0 else st.toNat
    match t.gslot, gridOf s k.c t with
    | some gs, some g =>
      if !anyCore && decide (8192 ≤ b.toNat) then Res.access s 9 b
      else if isReg && (decide (fld st 63 48 ≠ 0) || decide (fld st 31 17 ≠ 0)) then Res.illegal s 3
      else if !validTarget pc then Res.illegal s 3
      else if seg ≠ 0 ∧ !g.hdr.segs.any (fun x => decide (x.1 = seg)) then Res.illegal s 3
      else if !anyCore && !coreIn s k.c.pkg t.pid b.toNat then Res.access s 2 b
      else if !anyCore && decide ((getCore s { k.c with n := b.toNat }).tenancy ≠ t.gslot) then Res.access s 9 b
      else if t.domain ≠ 0 ∧ t.weight = 0 then takeShare s k (fun s _ => .ok s)
      else
        let hub := getHub s k.c.pkg own
        let cands := if anyCore then (rotation hub.pickLast).map (fun i => 16 * own + i) else [b.toNat]
        match reserveOn s k.c.pkg gs g.hdr seg (if anyCore then own else clusterOf b.toNat) cands with
        | .refused => statusG s k o.rd 2
        | pl => takeShare s k (fun s share =>
          let s0 := match pl with
            | .slot n _ => if anyCore then modHub s k.c.pkg own (fun h => { h with pickLast := posOf n }) else s
            | _ => s
          let r := spawnInto s0 k g gs seg pc share pl
          statusG r.1 k o.rd r.2)
    | _, _ => Res.access s 9 b)

/-- QUIT (R240). DESIGN CHOICE: log entry 31. -/
def execQuit (o : BareOps) (s : State) : Host.Outcome State Fault Refusal := issue s o.pre { eff := true } (fun s k => quitRes s k)

/-- SUSP (R241). DESIGN CHOICE: log entry 31. -/
def execSusp (o : BareOps) (s : State) : Host.Outcome State Fault Refusal :=
  issue s o.pre { eff := true, noFp := true } (fun s k => suspRes s k)

/-! ## Futures (R244 to R247) -/

/-- A future read of n bytes of one line of a scratchpad of the issuer's cluster (R60, R244). A thread that its image has PARKED stays PARKED while
the line is empty (R39); one that a full record heap has PARKED is written as a record when a slot frees. -/
def futureRead (deferred : Bool) (o : MemOps) (s : State) : Host.Outcome State Fault Refusal :=
  issue s o.pre { rg := (o.base, false) :: offUses o.off, lg := [o.data], lat := 1, eff := true, noFp := deferred } (fun s k =>
    let a := offAddr (k.val 0) o.off (k.val 1)
    let n := sizeBytes o.size
    match issueAddr k.c a n 1 with
    | .inl c => Res.access s c a
    | .inr r =>
      let here := match windowOf (locOf r) with
        | .spad m => decide (clusterOf m = clusterOf k.c.n) && decide (pkgOf k.c r = k.c.pkg) && decide (locOf r / 128 = (locOf r + n - 1) / 128)
        | _ => false
      if !here then Res.access s 1 a
      else reach s k r n .read (fun s ph =>
        if lineEmpty s k.t.gslot ph = false then outG s k o.data (dw (readNat s k.t.gslot ph n), {})
        else if !deferred && k.t.woken.isNone && (takesEntry s k.who (.line (lineOf ph)) || decide (k.t.run ≠ .ready)) then .park s (.line (lineOf ph))
        else deferRes s k (lineOf ph)))

/-- FLD (R244). -/
def execFld (o : MemOps) (s : State) : Host.Outcome State Fault Refusal := futureRead false o s
/-- FLD_S (R244). -/
def execFldS (o : MemOps) (s : State) : Host.Outcome State Fault Refusal := futureRead true o s

/-- FFILL (R246). -/
def execFfill (o : MemOps) (s : State) : Host.Outcome State Fault Refusal :=
  issue s o.pre { rg := (o.base, false) :: (offUses o.off ++ [(o.data, narS o.size)]) } (fun s k =>
    let a := offAddr (k.val 0) o.off (k.val 1)
    let n := sizeBytes o.size
    let x := k.val (1 + (offUses o.off).length)
    match issueAddr k.c a n 1 with
    | .inl c => Res.access s c a
    | .inr r => if !fillOk true n r then Res.access s 1 a
      else .ok (startAccess s k (.fill r (leBytes n x.toNat)) true o.os none))

/-- FCLR (R247): the line that holds the byte at gB. -/
def execFclr (o : FclrOps) (s : State) : Host.Outcome State Fault Refusal :=
  issue s o.pre { rg := [(o.b, false)] } (fun s k =>
    let a := k.val 0 &&& 0xFFFFFFFFFFFFFF80#64
    match issueAddr k.c a 128 1 with
    | .inl c => Res.access s c a
    | .inr r => if !fillOk true 128 r then Res.access s 1 a else .ok (startAccess s k (.clear r) true o.os none))

/-! ## Waiting on flags and domains (R248, R249, R257) -/

/-- WAITC (R248): on a flag not reached the thread parks. It completes with the word that satisfied the condition, which has come from the flag's home by
then: gA holds it from its completion on (R354). DEDUCED: log entry 80. -/
def execWaitc (o : WaitcOps) (s : State) : Host.Outcome State Fault Refusal :=
  issue s o.pre { rg := (o.b, false) :: srcUses true o.n, lg := [o.rd], lat := 1, eff := true } (fun s k =>
    let f := k.val 0
    let n := (srcVal k 1 o.n).toNat % 2 ^ 32
    match k.t.woken with
    | some v => setG s k o.rd (v, {})
    | none => match issueAddr k.c f 8 8 with
      | .inl c => Res.access s c f
      | .inr r => reach s k r 8 .read (fun s ph =>
          let v := leNat (readJudged s k.who r ph 8)
          if reached v n then setG s k o.rd (dw v, {}) else .park s (.flag r n)))

/-- WQUIET (R257): the thread's own weight returns first; it parks until the root reads 2^63, an acquire at the domain's scope (R73). -/
def execWquiet (o : RbOps) (s : State) : Host.Outcome State Fault Refusal :=
  issue s o.pre { rg := [(o.b, false)], eff := true } (fun s k =>
    let b := k.val 0
    let id := b.toNat
    if 2 ^ 16 ≤ id then Res.access s 11 b
    else if id = 0 then Res.illegal s 3
    else match rootOf s k.c.pkg k.t.pid id with
      | none => Res.access s 11 b
      | some (a, _) =>
        let wait := fun (s : State) => reach s k a 8 .read (fun s ph =>
          if leNat (readJudged s k.who a ph 8) = fullWeight then Res.ok s else .park s (.root a))
        if k.t.woken.isSome then .ok s
        else if id = k.t.domain ∧ k.t.weight ≠ 0 then
          giveBack s k id k.t.weight (fun s => wait (k.upd s (fun t => { t with weight := 0 })))
        else wait s)

/-! ## Arms (R250 to R253) -/

/-- The arms that the home of a flag holds, and how many it can (R250). DESIGN CHOICE: log entry 32. -/
def armRoom (s : State) (ph : Nat) : Bool :=
  let at_ := fun (m : Arm) => match (xlate s m.who m.flag false).2 with | .at_ x _ _ _ => some x | _ => none
  let home := fun (a : Nat) => if isSram a then a / (if a % 2 ^ 48 < poolLoc then 2 ^ 19 else 2 ^ 22) else a / 2 ^ 36
  let cap := if isSram ph then 128 else 1024
  decide ((s.arms.filter (fun m => match at_ m with | some x => decide (isSram x = isSram ph) && decide (home x = home ph) | none => false)).length < cap)

/-- R250: an arm that is reached performs its operation at once; else it takes an entry of its core and of its flag's home. Host memory takes none (R432). -/
def setArm (s : State) (k : Ctx) (rd : GReg) (f : Dword) (n : Nat) (op : ArmOp) : Res :=
  match issueAddr k.c f 8 8 with
  | .inl c => Res.access s c f
  | .inr r =>
    if onHost s k.who r && (portBehind s k.who r k.req).isNone then statusG s k rd 2
    else reach s k r 8 .read (fun s ph =>
      let m : Arm := { who := k.who, flag := r, n := n, op := op }
      if reached (leNat (readJudged s k.who r ph 8)) n then statusG (fireArm s m) k rd 1
      else if eddyUsed s k.c < 64 ∧ armRoom s ph = true then statusG { s with arms := s.arms ++ [m] } k rd 0
      else statusG s k rd 2)

/-- R253: the oldest arm of the core on the flag with the operation is removed. -/
def unsetArm (s : State) (k : Ctx) (rd : GReg) (f : Dword) (op : ArmOp) : Res :=
  match issueAddr k.c f 8 8 with
  | .inl c => Res.access s c f
  | .inr r => reach s k r 8 .read (fun s ph =>
      match s.arms.find? (fun m => decide (m.who.core = k.c ∧ m.op = op ∧ homeNow s m.who m.flag = some (homeOf s k.t.gslot ph))) with
      | some m => statusG { s with arms := s.arms.erase m } k rd 0
      | none => statusG s k rd 1)

/-- The second flag of `arm.inc` and `disarm.inc` checked at issue (R235): R91, R74, R76 and R77; its page is met where the arrival is made. DESIGN
CHOICE: log entry 32. -/
def issueSecond (s : State) (k : Ctx) (g : Dword) : Nat ⊕ Dword :=
  match issueAddr k.c g 8 8 with
  | .inl c => .inl c
  | .inr r => match (xlate s k.who r false).2 with
    | .fail c => if c ≤ 6 then .inl c else .inr r
    | _ => .inr r

/-- ARM_MSG (R250). -/
def execArmMsg (o : RrrOps) (s : State) : Host.Outcome State Fault Refusal :=
  issue s o.pre { rg := [(o.b, false), (o.rd, false), (o.c, true)], lg := [o.rd], lat := 1, eff := true } (fun s k =>
    if k.val 0 &&& 7#64 ≠ 0 then Res.access s 4 (k.val 0)
    else if 2 ^ 32 ≤ (k.val 1).toNat then Res.illegal s 3
    else setArm s k o.rd (k.val 0) ((k.val 2).toNat % 2 ^ 32) (.msg (k.val 1).toNat))

/-- ARM_INC (R250). DESIGN CHOICE: log entry 32. -/
def execArmInc (o : RrrOps) (s : State) : Host.Outcome State Fault Refusal :=
  issue s o.pre { rg := [(o.b, false), (o.rd, false), (o.c, true)], lg := [o.rd], lat := 1, eff := true } (fun s k =>
    match issueAddr k.c (k.val 0) 8 8, issueSecond s k (k.val 1) with
    | .inl c, _ => Res.access s c (k.val 0)
    | _, .inl c => Res.access s c (k.val 1)
    | _, .inr g => setArm s k o.rd (k.val 0) ((k.val 2).toNat % 2 ^ 32) (.inc g))

/-- DISARM_MSG (R253). -/
def execDisarmMsg (o : RrrOps) (s : State) : Host.Outcome State Fault Refusal :=
  issue s o.pre { rg := [(o.b, false), (o.c, false)], lg := [o.rd], lat := 1, eff := true } (fun s k =>
    unsetArm s k o.rd (k.val 0) (.msg (k.val 1).toNat))

/-- DISARM_INC (R253). -/
def execDisarmInc (o : RrrOps) (s : State) : Host.Outcome State Fault Refusal :=
  issue s o.pre { rg := [(o.b, false), (o.c, false)], lg := [o.rd], lat := 1, eff := true } (fun s k =>
    match issueSecond s k (k.val 1) with
    | .inl c => Res.access s c (k.val 1)
    | .inr g => unsetArm s k o.rd (k.val 0) (.inc g))

/-! ## Reel barriers (R254, R255) -/

/-- Arrivals expected from this core (R64). -/
def perCore (r : Reel) : Nat := fld r.reg 29 26 + 1

/-- A unit that is enabled and owned by the issuer's crew. -/
def reelUsable (s : State) (k : Ctx) (u : Nat) : Option Reel :=
  match (getCore s k.c).reel[u]? with
  | some r => if fld r.reg 63 63 = 1 ∧ r.owner = some k.t.crew then some r else none
  | none => none

/-- A core's arrivals towards a phase are complete: they set out for the corner (R65). -/
def sendReel (s : State) (c : CoreId) (u : Nat) (r : Reel) (phase : Nat) : State :=
  { s with reelArr := s.reelArr ++ [{ pkg := c.pkg, at_ := c.n, src := c.n, unit := u, era := r.era, phase := phase % 65536, reg := r.reg, gslot := (getCore s c).tenancy }] }

/-- BAR_ARRIVE (R254). -/
def execBarArrive (o : BarOps) (s : State) : Host.Outcome State Fault Refusal :=
  issue s o.pre { wg := [(o.g, true)], eff := true } (fun s k =>
    match reelUsable s k o.k.val with
    | none => Res.illegal s 3
    | some r =>
      let ph := reelPhase r
      let per := perCore r
      let put := fun (r : Reel) => modCore s k.c (fun x => { x with reel := x.reel.setIfInBounds o.k.val r })
      if r.now < per then
        let s1 := put { r with now := r.now + 1 }
        setG (if r.now + 1 = per then sendReel s1 k.c o.k.val r ph else s1) k o.g (dw ph, {})
      else if r.next < per then
        let s1 := put { r with next := r.next + 1 }
        setG (if r.next + 1 = per then sendReel s1 k.c o.k.val r (ph + 1) else s1) k o.g (dw ((ph + 1) % 65536), {})
      else .park s (.barArrive o.k.val ph))

/-- BAR_WAIT (R255). -/
def execBarWait (o : BarOps) (s : State) : Host.Outcome State Fault Refusal :=
  issue s o.pre { rg := [(o.g, true)], eff := true } (fun s k =>
    match reelUsable s k o.k.val with
    | none => Res.illegal s 3
    | some _ =>
      let w : ParkOn := .barWait o.k.val ((k.val 0).toNat % 65536)
      if parkMet s k.c k.t w then .ok s else .park s w)

/-- BAR_TEST (R255). -/
def execBarTest (o : BarTestOps) (s : State) : Host.Outcome State Fault Refusal :=
  issue s o.pre { rg := [(o.x, true)], wg := [(o.rd, true)] } (fun s k =>
    match reelUsable s k o.k.val with
    | none => Res.illegal s 3
    | some r => setG s k o.rd (dw ((reelPhase r + 65536 - (k.val 0).toNat % 65536) % 65536), {}))

/-! ## Grids, weight, inbox (R242, R256, R259) -/

/-- GROW (R256). An amount of 0 on a co-resident or a cancelled grid fails too: the spec has an amount of 0 succeed and growth of such a grid fail,
and does not say which of the two comes first. DESIGN CHOICE: log entry 74. -/
def execGrow (o : GrowOps) (s : State) : Host.Outcome State Fault Refusal :=
  issue s o.pre { rg := srcUses false o.y, lg := [o.rd], lat := 1, eff := true, noFp := true } (fun s k =>
    let n := (srcVal k 0 o.y).toNat
    match k.t.gslot, gridOf s k.c k.t with
    | some gs, some g =>
      let fail := fun (why : Nat) => statusG s k o.rd (2 ^ 63 + why * 2 ^ 32 + g.gcount)
      if g.st = .faulted then fail 3
      else if g.coloc || g.hdr.net then fail 2
      else if 2 ^ 32 ≤ g.gcount + n then fail 1
      else statusG (modGrid s k.c.pkg gs (fun g => { g with gcount := g.gcount + n, st := if g.st = .draining ∧ 0 < n then .running else g.st,
                                                               pendSince := if g.next = g.gcount then s.clock else g.pendSince })) k o.rd g.gcount
    | _, _ => statusG s k o.rd (2 ^ 63 + 3 * 2 ^ 32))

/-- WSPLIT (R242). DEDUCED: log entry 14. -/
def execWsplit (o : WsplitOps) (s : State) : Host.Outcome State Fault Refusal :=
  issue s o.pre { rg := [(o.b, false)], wg := [(o.rd, false)], eff := true } (fun s k =>
    let b := (k.val 0).toNat
    if 16 ≤ b then Res.illegal s 3
    else match getT s k.c b with
      | some t =>
        if k.t.domain = 0 ∨ b = k.slot ∨ t.domain ≠ k.t.domain then setG s k o.rd (1, {})
        else takeShare s k (fun s share => setG (modT s k.c b (fun t => { t with weight := t.weight + share })) k o.rd (0, {}))
      | none => setG s k o.rd (1, {}))

/-- The register n after r. -/
def gPlus (r : GReg) (n : Nat) : GReg := Fin.ofNat 64 (r.val + n)

/-- R259: the oldest record into four registers, or what an empty inbox gives. DESIGN CHOICE: log entry 18. -/
def inboxIssue (test : Bool) (o : RdOps) (s : State) : Host.Outcome State Fault Refusal :=
  if o.rd = 0 ∨ o.rd.val % 4 ≠ 0 then encodingTrap s 3
  else
    let rs := [o.rd, gPlus o.rd 1, gPlus o.rd 2, gPlus o.rd 3]
    issue s o.pre { lg := rs, lat := 4, eff := true } (fun s k =>
      let give := fun (s : State) (r : Rec) => Res.ok (k.upd s (fun t =>
        (rs.zip [r.d0, r.d1, r.d2, r.d3]).foldl (fun t x => pushOut t (.g x.1) (.dword x.2) {} true) t))
      match (getCore s k.c).inbox with
      | r :: l => give (modCore s k.c (fun x => { x with inbox := l })) r
      | [] => if test then give s { crew := 0, d0 := 0, d1 := 0, d2 := 0, d3 := 0 } else .park s .inbox)

/-- IBX (R259). -/
def execIbx (o : RdOps) (s : State) : Host.Outcome State Fault Refusal := inboxIssue false o s
/-- IBX_T (R259). -/
def execIbxT (o : RdOps) (s : State) : Host.Outcome State Fault Refusal := inboxIssue true o s

end Sys2Proof.Machine
end

