-- ==== Sys2Proof/Machine/Engines.lean ====
section
/-!
DEFINITION. The instructions of page 7 at issue (spec/11, R316 to R340): layout records and copies, sharded accesses, shoot-downs, overlay
fetches, amplitude and collective operations, and the registers of ford cores. EngineRun.lean has what the engines do.
-/
namespace Sys2Proof.Machine

/-- An issue check that failed: the class, CAUSE and ADDR of its trap. -/
inductive Bad where
  | illegal
  | access (cause : Nat) (a : Dword)
deriving DecidableEq, Repr, Inhabited

def Bad.res (s : State) : Bad → Res
  | .illegal => Res.illegal s 3
  | .access c a => Res.access s c a

/-! ## Layout records (R318, R319) -/

/-- XOR of halves 0 to n − 1. -/
def xorHalves (x : Nat) : Nat → Nat
  | 0 => 0
  | n + 1 => Nat.xor (x / 2 ^ (16 * n) % 2 ^ 16) (xorHalves x n)

/-- SEAL of a record's first 62 bytes (R319). -/
def sealOf (x : Nat) : Nat := Nat.xor 0xA5C3 (xorHalves x 31)

def layoutEsize (x : Nat) : Nat := x % 256
def layoutNdim (x : Nat) : Nat := x / 2 ^ 8 % 256
def layoutFlags (x : Nat) : Nat := x / 2 ^ 16 % 2 ^ 16
def layoutTag (x : Nat) : Nat := x / 2 ^ 32 % 2 ^ 32

/-- The requirements of R319 on bytes 0x00 to 0x3D. -/
def layoutOk (x : Nat) : Bool :=
  let e := layoutEsize x
  let n := layoutNdim x
  let dims := fun (side : Nat) => (layoutDims x side).zip (List.range 4)
  let dimOk := fun (d : (Nat × Int) × Nat) =>
    decide (1 ≤ d.1.1) && decide (d.1.1 ≤ 2 ^ 24) && decide (d.1.2 % 2 ^ e = 0) && (decide (d.2 < n) || (decide (d.1.1 = 1) && decide (d.1.2 = 0)))
  decide (e ≤ 3) && decide (1 ≤ n) && decide (n ≤ 4) && decide (layoutFlags x < 8) && decide (x / 2 ^ 448 % 2 ^ 48 = 0) &&
    (dims 0).all dimOk && (dims 1).all dimOk &&
    decide (((layoutDims x 0).map (fun d => d.1)).foldl (· * ·) (2 ^ e) ≤ 2 ^ 32)

/-- SHAPE (R319). -/
def execShape (o : ShapeOps) (s : State) : Host.Outcome State Fault Refusal :=
  issue s o.pre { v := [o.vd, o.x], noFp := true } (fun s k =>
    let x := (readV s.tick k.t o.x).toNat % 2 ^ 496
    if layoutOk x then setV s k o.vd (BitVec.ofNat 1024 (x + sealOf x * 2 ^ 496), {}) else Res.illegal s 3)

/-! ## Addresses of engine operations -/

/-- The checks of R74, R76 and R77 on a base that can be made at issue: the resolved address. -/
def baseCheck (s : State) (c : CoreId) (pid : Nat) (a : Dword) : Bad ⊕ Dword :=
  if 2 ^ 60 ≤ a.toNat then .inl (.access 1 a)
  else match resolve c a with
    | none => .inl (.access 3 a)
    | some r =>
      let p := pkgOf c r
      let part := fun (k : Nat) => if inReach s p pid (reachOfCluster k) then .inr r else .inl (.access 2 a)
      if p ≠ c.pkg ∧ inJob s p = false then .inl (.access 3 a)
      else match windowOf (locOf r) with
        | .hbm => .inr r
        | .spad n => part (clusterOf n)
        | .pool k => part k
        | _ => .inl (.access 1 a)

/-- A flag's checks (R212), as a check of an engine's issue. -/
def flagCheck (s : State) (c : CoreId) (f : Dword) : Bad ⊕ Dword :=
  match issueFlag s c f with
  | .inl e => .inl (.access e f)
  | .inr r => .inr r

/-- Checks one after the other. -/
def andThen {α β : Type} (x : Bad ⊕ α) (f : α → Bad ⊕ β) : Bad ⊕ β :=
  match x with
  | .inl b => .inl b
  | .inr a => f a

def require (ok : Bool) (b : Bad) : Bad ⊕ Unit := if ok then .inr () else .inl b

/-- The window of an address with its package field. -/
def rangeIn (a : Dword) (span : Int × Int) : Bool :=
  let lo : Int := a.toNat + span.1
  let hi : Int := a.toNat + span.2
  decide (0 ≤ lo) && decide (lo.toNat / 2 ^ 48 = hi.toNat / 2 ^ 48) &&
    decide (windowOf (lo.toNat % 2 ^ 48) = windowOf (hi.toNat % 2 ^ 48))

/-- Two ranges of resolved addresses intersect (R320). -/
def rangesMeet (c : CoreId) (src dst : Dword) (ss ds : Int × Int) : Bool :=
  let a : Int := physOf c src
  let b : Int := physOf c dst
  decide (a + ss.1 ≤ b + ds.2) && decide (b + ds.1 ≤ a + ss.2)

/-- The issue checks of a copy (R320): the resolved destination, source and flag. DESIGN CHOICE: log entry 19. -/
def copyCheck (s : State) (c : CoreId) (pid : Nat) (x : Nat) (dst src flag : Dword) : Bad ⊕ Dword × Dword × Dword :=
  let e := layoutEsize x
  let ok := layoutOk (x % 2 ^ 496)
  let ss := strideSpan e (layoutDims x 0)
  let ds := strideSpan e (layoutDims x 1)
  let isSpadWin := match windowOf (locOf dst) with | .spad _ | .ownSpad => true | _ => false
  let whole := fun (a : Dword) => (resolve c a).getD a
  andThen (require (decide (x / 2 ^ 496 % 2 ^ 16 = sealOf x)) .illegal) fun _ =>
  andThen (require (!ok || decide (dst.toNat % 2 ^ e = 0)) (.access 4 dst)) fun _ =>
  andThen (require (!ok || decide (src.toNat % 2 ^ e = 0)) (.access 4 src)) fun _ =>
  andThen (require (decide (flag.toNat % 8 = 0)) (.access 4 flag)) fun _ =>
  andThen (require (!ok || rangeIn src ss) (.access 1 src)) fun _ =>
  andThen (require (!ok || rangeIn dst ds) (.access 1 dst)) fun _ =>
  andThen (require (!ok || !rangesMeet c (whole src) (whole dst) ss ds) (.access 1 dst)) fun _ =>
  andThen (require (decide (layoutFlags x % 2 = 0) || isSpadWin) (.access 1 dst)) fun _ =>
  andThen (baseCheck s c pid dst) fun d =>
  andThen (baseCheck s c pid src) fun r =>
  andThen (flagCheck s c flag) fun f => .inr (d, r, f)

/-- A job of the issuing thread. -/
def threadJob (k : Ctx) (flag : Dword) (tag : Nat) (note : Bool) : Job :=
  { who := k.who, flag := flag, tag := tag, note := note, packet := none, failed := false, firstRec := none }

/-- COPY (R320). DESIGN CHOICE: log entries 18, 34. -/
def execCopy (o : CopyOps) (s : State) : Host.Outcome State Fault Refusal :=
  if o.b = 0 ∨ o.b.val % 4 ≠ 0 then encodingTrap s 3
  else
    let u : Uses := {
      rg := [(o.b, false), (gPlus o.b 1, false), (gPlus o.b 2, false)], v := [o.v], eff := true, ill := netHere s && decide (60 ≤ o.b.val) }
    issue s o.pre u (fun s k =>
        let x := (readV s.tick k.t o.v).toNat % 2 ^ 512
        match copyCheck s k.c k.t.pid x (k.val 0) (k.val 1) (k.val 2) with
        | .inl b => b.res s
        | .inr (d, r, f) =>
          if !itemRoom s k.c then .hold s .items
          else shareIf (decide (layoutFlags x / 2 % 2 = 1)) s k (fun s share =>
            let j : CopyJob := {
              id := s.itemSeq, job := threadJob k f (layoutTag x) (decide (layoutFlags x / 4 % 2 = 1)), core := k.c, rcd := BitVec.ofNat 512 x,
              dst := d, src := r, share := share, domain := k.t.domain }
            .ok { s with copies := s.copies ++ [j], itemSeq := s.itemSeq + 1 }))

/-! ## Shard tables (R325 to R328) -/

/-- A shard entry obeys R325. -/
def shardOk (e : Nat) : Bool :=
  let n := e / 2 ^ 59 % 4 + 1
  let es := e / 2 ^ 61 % 4
  decide (e / 2 ^ 54 % 2 ^ 5 = 0) && decide (1 ≤ e / 2 ^ 42 % 2 ^ 12) && decide (e % 2 ^ 42 * 64 < 0x800200000000) &&
    (List.range 4).all (fun k =>
      let d := e / 2 ^ (64 + 112 * k)
      let ext := d % 2 ^ 32
      let b := d / 2 ^ 32 % 2 ^ 32
      let l := d / 2 ^ 64 % 2 ^ 32
      let p := d / 2 ^ 96 % 2 ^ 16
      decide (1 ≤ ext) && decide (1 ≤ b) && decide (l % 2 ^ es = 0) && decide (p < 4096) &&
        (decide (k < n) || (decide (ext = 1) && decide (b = 1) && decide (l = 0) && decide (p = 0))))

/-- The translation of R326 under an entry: the address and the element's bytes, or the cause of class shard. -/
def shardAddr (e : Nat) (cs : List Nat) : Nat ⊕ Dword × Nat :=
  let n := e / 2 ^ 59 % 4 + 1
  let dim := fun (k : Nat) => e / 2 ^ (64 + 112 * k)
  let co := fun (k : Nat) => cs.getD k 0
  if e / 2 ^ 63 % 2 = 0 then .inl 2
  else if !shardOk e then .inl 3
  else if (List.range 4).any (fun k => if k < n then decide (dim k % 2 ^ 32 ≤ co k) else decide (co k ≠ 0)) then .inl 1
  else
    let b := fun (k : Nat) => dim k / 2 ^ 32 % 2 ^ 32
    let pkg := ((List.range 4).map (fun k => co k / b k * (dim k / 2 ^ 96 % 2 ^ 16))).foldl (· + ·) (e / 2 ^ 42 % 2 ^ 12)
    let addr := ((List.range 4).map (fun k => co k % b k * (dim k / 2 ^ 64 % 2 ^ 32))).foldl (· + ·) (e % 2 ^ 42 * 64)
    let n := 2 ^ (e / 2 ^ 61 % 4)
    if 4095 < pkg then .inl 4
    else if 0x800200000000 < addr + n then .inl 5
    else .inr (dw (pkg * 2 ^ 48 + addr), n)

/-- The base of a package's shard table (R359, R419), as a device address. DESIGN CHOICE: log entry 38. -/
def shardBase (s : State) (p pid : Nat) : Nat := fld (block s p pid).shardtab 47 6 * 64

/-- A hub's copy of an entry, fetched on a miss, among the 256 that its cache holds (R20): a new one takes the place of the oldest. None where the
table's bytes hold an uncorrectable error. After a store to an entry that no shoot-down follows, R105 has each request take either the old or the
new one; here a hub's copy serves until a shoot-down, an error or its replacement. DESIGN CHOICE: log entry 78. -/
def shardEntry (s : State) (p cluster pid h : Nat) : Option (State × Nat) :=
  match aGet (getHub s p cluster).shard h with
  | some e => some (s, e.toNat)
  | none =>
    let a := devPhys p (shardBase s p pid + 64 * h)
    if poisoned s none a 64 then none
    else
      let e := readNat s none a 64
      some (modHub s p cluster (fun x => { x with shard := ((h, BitVec.ofNat 512 e) :: x.shard).take 256 }), e)

/-- R326, R327: a sharded access of the issuing thread. DESIGN CHOICE: log entry 18. -/
def shardIssue (load strong : Bool) (o : ShardOps) (s : State) : Host.Outcome State Fault Refusal :=
  if o.c.val % 2 = 1 then encodingTrap s 3
  else
    let u : Uses := {
      rg := (o.b, false) :: (o.c, false) :: (gPlus o.c 1, false) :: (if load then [] else [(o.rd, false)])
      lg := if load then [o.rd] else [], lat := if load then 1 else 0, noFp := true }
    issue s o.pre u (fun s k =>
      let h := k.val 0
      let cl := clusterOf k.c.n
      let fault := fun (s : State) (cause : Nat) => Res.trap s clsShard cause h (k.val 1)
      if fld h 63 16 ≠ 0 then Res.illegal s 3
      else if shardBase s k.c.pkg k.t.pid = 0 then fault s 2
      else if devOk s k.c.pkg k.t.pid (shardBase s k.c.pkg k.t.pid + 64 * h.toNat) = false then
        Res.access s 2 (dw (shardBase s k.c.pkg k.t.pid + 64 * h.toNat))
      else match shardEntry s k.c.pkg cl k.t.pid h.toNat with
        | none => Res.access s 7 (dw (shardBase s k.c.pkg k.t.pid + 64 * h.toNat))
        | some (s1, e) =>
          match shardAddr e [fld (k.val 1) 31 0, fld (k.val 1) 63 32, fld (k.val 2) 31 0, fld (k.val 2) 63 32] with
          | .inl cause => fault s1 cause
          | .inr (a, n) => match issueAddr k.c a n n with
            | .inl c => Res.access s1 c a
            | .inr r =>
              if load then .ok (startAccess s1 k (.read [(r, n)] n (.scalar o.sx)) strong o.os (some (.g o.rd)) (some h.toNat))
              else .ok (startAccess s1 k (.write [(r, leBytes n (k.val 3).toNat)] n) strong o.os none (some h.toNat)))

/-- LDS (R327). -/
def execLds (o : ShardOps) (s : State) : Host.Outcome State Fault Refusal := shardIssue true false o s
/-- LDSO (R327). -/
def execLdso (o : ShardOps) (s : State) : Host.Outcome State Fault Refusal := shardIssue true true o s
/-- STS (R327). -/
def execSts (o : ShardOps) (s : State) : Host.Outcome State Fault Refusal := shardIssue false false o s
/-- STSO (R327). -/
def execStso (o : ShardOps) (s : State) : Host.Outcome State Fault Refusal := shardIssue false true o s

/-- A block of n bytes of the own scratchpad, aligned to n, read at issue as a strong load reads it (R309, R328, R331, R336). -/
def readBlock (s : State) (k : Ctx) (a : Dword) (n : Nat) (body : State → Nat → Res) : Res :=
  if a.toNat % n ≠ 0 then Res.access s 4 a
  else match ownSpad k.c a n with
    | none => Res.access s 1 a
    | some r => reach s k r n .read (fun s ph => body s (readNat s k.t.gslot ph n))

/-- SHINV (R328): the request goes to the root, and the thread is HELD until its status lands. -/
def execShinv (o : RrrOps) (s : State) : Host.Outcome State Fault Refusal :=
  issue s o.pre { rg := [(o.b, false), (o.c, false)], lg := [o.rd], lat := 1, eff := true, noFp := true } (fun s k =>
    let h := k.val 0
    if fld h 63 16 ≠ 0 then Res.illegal s 3
    else readBlock s k (k.val 1) 64 (fun s e =>
      if e / 2 ^ 63 % 2 = 1 ∧ shardOk e = false then Res.illegal s 3
      else
        let x : Shoot := {
          id := s.itemSeq, who := k.who, slot := k.slot, seq := k.t.seq, handle := h.toNat, entry := BitVec.ofNat 512 e, atRoot := false,
          nodes := [], hubs := [], passed := false }
        let s1 := k.upd s (fun t => pushOut t (.g o.rd) .none {} false)
        .stall { s1 with shoots := s1.shoots ++ [x], itemSeq := s1.itemSeq + 1 } (.shinv x.id)))

/-! ## Overlay segments (R329) -/

/-- Two ranges of instruction memory overlap. -/
def segsMeet (a b : Nat × Nat) : Bool := decide (a.1 < b.1 + b.2) && decide (b.1 < a.1 + a.2)

/-- The ranges that a fetch must not overlap: the base segment, and the current segments of the threads of the core. -/
def busyRanges (k : Core) : List (Nat × Nat) :=
  segBounds k 0 :: (List.range 16).filterMap (fun i => ((k.slots[i]?).join).map (fun t => segBounds k t.seg))

/-- A fetch that has become resident: its arrival, and with NOTE its record (KIND 0x24). -/
def fetchDone (s : State) (w : Who) (seg : Nat) (flag : Dword) (note : Bool) (no : Nat) : State :=
  let s1 := if note then postRec s w (mkRec w 0x24 0 (dw seg) flag 0 0) else s
  if flag = 0 then s1
  else sendArrival s1 { id := 0, who := w, kind := 0x25, flag := flag, inc := false, share := 0, domain := 0, addr := dw seg, tag := 0, stage := .sent, no := some no }

/-- R329. No row of R454 names the overlap with the base or a current segment: CAUSE 1, with gB in ADDR. DESIGN CHOICE: log entries 19, 43. -/
def cfetchIssue (note : Bool) (o : CfetchOps) (s : State) : Host.Outcome State Fault Refusal :=
  issue s o.pre { rg := (o.b, false) :: flagUses o.flag, eff := true, noFp := true } (fun s k =>
    let b := k.val 0
    let fv := flagVal k 1 o.flag
    let seg := fld b 15 0
    let core := getCore s k.c
    match (gridOf s k.c k.t).bind (fun g => (g.hdr.segs.find? (fun x => decide (x.1 = seg))).map (fun x => (g, x))) with
    | none => Res.illegal s 3
    | some (g, _, load, size, image) =>
      if fld b 63 16 ≠ 0 ∨ seg = 0 then Res.illegal s 3
      else match flagCheck s k.c fv with
        | .inl e => e.res s
        | .inr f =>
          if !itemRoom s k.c then .hold s .items
          else if isResident core seg then .ok (fetchDone (numbered s) k.who seg f note s.itemSeq)
          else if (busyRanges core).any (segsMeet (load, size)) then Res.access s 1 b
          else
            let l : SegLoad := {
              era := core.era, who := some k.who, seg := { id := seg, load := load, size := size }, image := dw (g.khdr + image), pid := k.t.pid,
              asid := k.t.asid, flag := f, note := note, no := s.itemSeq }
            .ok (modCore (numbered s) k.c (fun x => { x with
              resident := x.resident.filter (fun y => !segsMeet (load, size) (y.load, y.size)), loads := x.loads ++ [l] })))

/-- CFETCH (R329). -/
def execCfetch (o : CfetchOps) (s : State) : Host.Outcome State Fault Refusal := cfetchIssue false o s
/-- CFETCH_NOTE (R329). -/
def execCfetchNote (o : CfetchOps) (s : State) : Host.Outcome State Fault Refusal := cfetchIssue true o s

/-! ## Amplitudes (R330, R331) -/

/-- Byte i of a block. -/
def byteOf (x i : Nat) : Nat := x / 2 ^ (8 * i) % 256

/-- The MAP bytes of the qubits below NQ. -/
def qlrMap (x : Nat) : List Nat := (List.range (byteOf x 0)).map (fun q => byteOf x (16 + q))
def qlrPkgBits (x : Nat) : List Nat := ((qlrMap x).filter (fun b => decide (128 ≤ b))).map (fun b => b - 128)
def qlrLocBits (x : Nat) : List Nat := (qlrMap x).filter (fun b => decide (b < 128))
def qlrPkg (x : Nat) : Nat := x / 2 ^ 16 % 2 ^ 16
def qlrBase (x : Nat) : Nat := dword x 1

/-- A layout of fields that R330 allows, with its reserved bytes zero. -/
def qlrOk (x : Nat) : Bool :=
  let nq := byteOf x 0
  let pk := qlrPkgBits x
  let lo := qlrLocBits x
  decide (1 ≤ nq) && decide (nq ≤ 48) && decide (byteOf x 1 = 0) && decide (x / 2 ^ 32 % 2 ^ 32 = 0) && decide (1 ≤ qlrPkg x) &&
    decide (qlrBase x % 8 = 0) && decide (qlrBase x < 2 ^ 48) &&
    (List.range 48).all (fun q => decide (q < nq) || decide (byteOf x (16 + q) = 0)) &&
    lo.all (fun b => decide (3 ≤ b) && decide (b ≤ 47) && decide (qlrBase x / 2 ^ b % 2 = 0)) && decide lo.Nodup &&
    decide pk.Nodup && pk.all (fun b => decide (b < pk.length)) && decide (qlrPkg x + 2 ^ pk.length - 1 ≤ 4095)

/-- Where amplitude i stands (R330). -/
def ampAt (x i : Nat) : Dword :=
  let part := fun (pb : Bool) => ((List.range (byteOf x 0)).map (fun q =>
    let b := byteOf x (16 + q)
    if decide (128 ≤ b) == pb then i / 2 ^ q % 2 * 2 ^ (b % 128) else 0)).foldl (· + ·) 0
  dw ((qlrPkg x + part true) * 2 ^ 48 + (qlrBase x + part false))

/-- The used entries of a list that ends in unused ones; none where a used one follows an unused one (R331). -/
def usedOf (l : List Nat) : Option (List Nat) :=
  let u := l.takeWhile (fun b => decide (b ≠ 255))
  if (l.drop u.length).all (fun b => decide (b = 255)) then some u else none

def ampTargets (b : Nat) : List Nat := ((List.range 4).map (fun i => byteOf b (0x28 + i))).takeWhile (fun b => decide (b ≠ 255))
def ampControls (b : Nat) : List Nat := ((List.range 8).map (fun i => byteOf b (0x2C + i))).takeWhile (fun b => decide (b ≠ 255))

/-- The addresses of a command block (R331): the resolved QLR, UNI and FLAG. DESIGN CHOICE: log entry 19. -/
def ampAddrs (s : State) (c : CoreId) (pid : Nat) (perm : Bool) (b : Nat) : Bad ⊕ Dword × Dword × Dword :=
  let q := dw (dword b 0)
  let u := dw (dword b 1)
  andThen (require (decide (q.toNat % 64 = 0)) (.access 4 q)) fun _ =>
  andThen (require (decide (u.toNat % (if perm then 64 else 8) = 0)) (.access 4 u)) fun _ =>
  andThen (baseCheck s c pid q) fun qr =>
  andThen (baseCheck s c pid u) fun ur =>
  andThen (flagCheck s c (dw (dword b 2))) fun f => .inr (qr, ur, f)

/-- The illegal-instruction checks of R331 on a block, the record at QLR and, for `amp.perm`, the new record. -/
def ampOk (perm : Bool) (b q u : Nat) : Bool :=
  let ts := usedOf ((List.range 4).map (fun i => byteOf b (0x28 + i)))
  let cs := usedOf ((List.range 8).map (fun i => byteOf b (0x2C + i)))
  decide (byteOf b 0x35 < 2) && decide (b / 2 ^ (8 * 0x36) % 2 ^ 16 = 0) && decide (b / 2 ^ (8 * 0x3C) % 2 ^ 32 = 0) && qlrOk q &&
    (match ts, cs with
     | some t, some n =>
       if perm then
         decide (t = []) && decide (n = []) && decide (dword b 3 = 0) && decide (dword b 4 = 0) && qlrOk u &&
           decide (byteOf u 0 = byteOf q 0) && decide (qlrPkg u = qlrPkg q) && decide ((qlrPkgBits u).length = (qlrPkgBits q).length)
       else
         decide (1 ≤ t.length) && (t ++ n).all (fun x => decide (x < byteOf q 0)) && decide (t ++ n).Nodup &&
           decide (dword b 3 ≤ dword b 4) && decide (t.length + n.length ≤ byteOf q 0) &&
           decide (dword b 4 ≤ 2 ^ (byteOf q 0 - t.length - n.length))
     | _, _ => false)

/-- The block with its addresses resolved. -/
def ampBlock (b : Nat) (q u f : Dword) : BitVec 512 :=
  BitVec.ofNat 512 (b - b % 2 ^ 192 + q.toNat + u.toNat * 2 ^ 64 + f.toNat * 2 ^ 128)

/-- The operation handed to the amplitude engine of a cluster. -/
def startAmp (s : State) (p cluster : Nat) (job : Job) (perm : Bool) (blk : BitVec 512) (q u : Nat) : State :=
  modHub (numbered s) p cluster (fun h => { h with
    amps := h.amps ++ [{ job := job, no := s.itemSeq, perm := perm, blk := blk, qlr := BitVec.ofNat 512 q, uniRec := BitVec.ofNat 512 u, doneGroups := [],
                         failGroups := [] }] })

/-- R331. DESIGN CHOICE: log entry 34. -/
def ampIssue (perm : Bool) (o : AmpOps) (s : State) : Host.Outcome State Fault Refusal :=
  issue s o.pre { rg := [(o.b, false)], eff := true, noFp := true } (fun s k =>
    readBlock s k (k.val 0) 64 (fun s b =>
      match ampAddrs s k.c k.t.pid perm b with
      | .inl e => e.res s
      | .inr (q, u, f) =>
        let go := fun (s : State) (qr ur : Nat) =>
          if !ampOk perm b qr ur then Res.illegal s 3
          else if !itemRoom s k.c then .hold s .items
          else .ok (startAmp s k.c.pkg (clusterOf k.c.n) (threadJob k f (b / 2 ^ (8 * 0x38) % 2 ^ 32) (decide (byteOf b 0x35 % 2 = 1))) perm
            (ampBlock b q u f) qr ur)
        reach s k q 64 .read (fun s ph =>
          let qr := leNat (readJudged s k.who q ph 64)
          if perm then reach s k u 64 .read (fun s pu => go s qr (leNat (readJudged s k.who u pu 64))) else go s qr 0)))

/-- AMP_APPLY (R331, R332). -/
def execAmpApply (o : AmpOps) (s : State) : Host.Outcome State Fault Refusal := ampIssue false o s
/-- AMP_PERM (R331, R333). -/
def execAmpPerm (o : AmpOps) (s : State) : Host.Outcome State Fault Refusal := ampIssue true o s

/-! ## Collectives (R336) -/

/-- The checks on a base line (R336): the resolved flag. -/
def baseLineCheck (s : State) (c : CoreId) (b : Nat) : Bad ⊕ Dword :=
  andThen (require (decide (b / 2 ^ (8 * 0x4C) % 2 ^ 32 < 2) && decide (b / 2 ^ (8 * 0x50) = 0)) .illegal) fun _ =>
  flagCheck s c (dw (dword b 8))

/-- A run handed to the collective engine of a cluster. -/
def startRun (s : State) (p cluster : Nat) (job : Job) (addr : Dword) (bases : List Dword) (reload : Bool) : State :=
  modHub { s with itemSeq := s.itemSeq + 1 } p cluster (fun h => { h with
    runs := h.runs ++ [{ id := s.itemSeq, job := job, addr := addr, base := bases, reload := reload, started := false, steps := [], st := [] }] })

/-- R336. DESIGN CHOICE: log entry 34. -/
def collIssue (reload : Bool) (o : CollOps) (s : State) : Host.Outcome State Fault Refusal :=
  issue s o.pre { rg := [(o.b, false), (o.c, false)], eff := true, noFp := true } (fun s k =>
    let a := k.val 0
    if a.toNat % 32 ≠ 0 then Res.access s 4 a
    else match baseCheck s k.c k.t.pid a with
      | .inl e => e.res s
      | .inr r => readBlock s k (k.val 1) 128 (fun s b =>
          match baseLineCheck s k.c b with
          | .inl e => e.res s
          | .inr f =>
            if !itemRoom s k.c then .hold s .items
            else .ok (startRun s k.c.pkg (clusterOf k.c.n)
              (threadJob k f (b / 2 ^ (8 * 0x48) % 2 ^ 32) (decide (b / 2 ^ (8 * 0x4C) % 2 = 1))) r
              ((List.range 8).map (fun i => dw (dword b i))) reload)))

/-- COLL_RUN (R336). -/
def execCollRun (o : CollOps) (s : State) : Host.Outcome State Fault Refusal := collIssue false o s
/-- COLL_RUN_RELOAD (R336). -/
def execCollRunReload (o : CollOps) (s : State) : Host.Outcome State Fault Refusal := collIssue true o s

/-! ## Ford cores (R338 to R340) -/

/-- FORDMAP names a core position of a cluster (R442). -/
def isFord (s : State) (c : CoreId) (pid : Nat) : Bool :=
  (List.range 8).any (fun n => decide (portCluster n = clusterOf c.n) &&
    decide (((block s c.pkg pid).fordmap.toList.getD n 0).toNat / 2 ^ posOf c.n % 2 = 1))

/-- The first dword of a block as `blkq` gives it (R338). -/
def blockWord (b : Block) : Dword := dw (2 ^ 63 + b.ticket % 2 ^ 16 * 2 ^ 32 + b.k)

/-- BLKQ (R338). DESIGN CHOICE: log entry 18. -/
def execBlkq (o : RdOps) (s : State) : Host.Outcome State Fault Refusal :=
  if o.rd = 0 ∨ o.rd.val % 4 ≠ 0 then encodingTrap s 3
  else
    let rs := [o.rd, gPlus o.rd 1, gPlus o.rd 2, gPlus o.rd 3]
    issue s o.pre { lg := rs, lat := 4, eff := true, noFp := true } (fun s k =>
      let cl := clusterOf k.c.n
      let give := fun (s : State) (l : List Dword) => Res.ok (k.upd s (fun t =>
        (rs.zip l).foldl (fun t x => pushOut t (.g x.1) (.dword x.2) {} true) t))
      if !isFord s k.c k.t.pid then Res.illegal s 1
      else match (getHub s k.c.pkg cl).blocks with
        | [] => give s [0, 0, 0, 0]
        | b :: l => give (modHub s k.c.pkg cl (fun h => { h with blocks := l, popped := h.popped ++ [b] }))
            [blockWord b, b.src, b.dst, dw b.tag])

/-- One more block of a QUEUE step is done (R339). -/
def markBlock (s : State) (p : Nat) (b : Block) : State :=
  modHub s p b.home (fun h => { h with runs := h.runs.map (fun r => if r.id = b.runId then
    { r with st := r.st.mapIdx (fun i x => if i = b.step then { x with marked := x.marked + 1 } else x) } else r) })

/-- BLKQ_DONE (R339). -/
def execBlkqDone (o : RbOps) (s : State) : Host.Outcome State Fault Refusal :=
  issue s o.pre { rg := [(o.b, false)], eff := true, noFp := true } (fun s k =>
    let cl := clusterOf k.c.n
    if !isFord s k.c k.t.pid then Res.illegal s 1
    else match (getHub s k.c.pkg cl).popped.find? (fun b => decide (blockWord b = k.val 0)) with
      | none => Res.illegal s 3
      | some b => .ok (markBlock (modHub s k.c.pkg cl (fun h => { h with popped := h.popped.erase b })) k.c.pkg b))

/-- Blocks in a register of MX blocks of a width (R340). DESIGN CHOICE: log entry 43. -/
def baddqBlocks (w : Nat) : Nat := match w with | 8 => 3 | 6 => 4 | _ => 7

/-- The sum of two blocks requantised (R340): scale, elements, flags. -/
def baddqBlock (f : Fmt) (rm : Rm) (x y b : Nat) : Nat × List Nat × Flags :=
  let w := f.width
  let el := fun (r j : Nat) => mxVal f (byteOf r (120 + b)) (r / 2 ^ (8 * 4 * w * b + w * j) % 2 ^ w)
  let sums := (List.range 32).map (fun j => addVal rm (el x j) (el y j))
  let r := mxPack f rm (sums.map (fun v => v.1))
  (r.1, r.2.1, r.2.2)

/-- BADDQ (R340). -/
def execBaddq (o : BaddqOps) (s : State) : Host.Outcome State Fault Refusal :=
  issue s o.pre { v := [o.vd, o.x, o.y], noFp := true, on := fun m => decide (m.toNat % 128 ≠ 0) } (fun s k =>
    withNf s k o.nf (fun f =>
      let w := f.width
      let rm := RSelMode o.rm k.t.regs.fpc
      let x := (readV s.tick k.t o.x).toNat
      let y := (readV s.tick k.t o.y).toNat
      let old := (readV s.tick k.t o.vd).toNat
      let m := lanesOf k.t o.pre
      let rs := (List.range (baddqBlocks w)).map (fun b => (b, bitOf m b, baddqBlock f rm x y b))
      let parts := rs.flatMap (fun r =>
        let data := if r.2.1 then packNat w r.2.2.2.1 else old / 2 ^ (32 * w * r.1) % 2 ^ (32 * w)
        let scale := if r.2.1 then r.2.2.1 else byteOf old (120 + r.1)
        [(32 * w * r.1, 32 * w, data), (8 * (120 + r.1), 8, scale)])
      let fl := (rs.filter (fun r => r.2.1)).foldl (fun a r => a.or r.2.2.2.2) {}
      if rs.any (fun r => r.2.1) then setV s k o.vd (BitVec.ofNat 1024 (putParts 0 parts), fl) else .ok s))

end Sys2Proof.Machine
end

