-- ==== Sys2Proof/Machine/Queues.lean ====
section
/-!
DEFINITION. Work queues in the lead weir (R379, R383, R384, R389): descriptors, the packets taken, refusal and completion.
-/
namespace Sys2Proof.Machine

/-! ## Descriptors (R379) -/

/-- The physical address of a queue's descriptor. -/
def descAt (s : State) (p q : Nat) : Nat := devPhys p (fld (getPkg s p).qtab 47 6 * 64 + 64 * q)

/-- A descriptor's fields. -/
structure Desc where
  ring : Nat
  headf : Dword
  hidx : Nat
  pid : Nat
  prio : Nat
  asid : Nat
  len : Nat
deriving DecidableEq, Repr, Inhabited

/-- A descriptor's 64 bytes; before level M has set QTAB there are none, nor on the stack of a die that has stayed in reset (R445). -/
def descBits (s : State) (p q : Nat) : Nat :=
  if fld (getPkg s p).qtab 47 6 = 0 ∨ dieOk s p (descAt s p q % 2 ^ 48 / 2 ^ 38) = false then 0 else readNat s none (descAt s p q) 64

def descValid (x : Nat) : Bool := decide (dword x 7 / 2 ^ 63 = 1)

/-- The fields of R379; none where they break it. -/
def descOf (x : Nat) : Option Desc :=
  let t := dword x 7
  let l := t % 2 ^ 5
  let ok := decide (4 ≤ l) && decide (l ≤ 16) && decide (dword x 0 < 2 ^ 48) && decide (dword x 0 % (64 * 2 ^ l) = 0) && decide (dword x 1 % 8 = 0) &&
    decide (dword x 2 < 2 ^ 32) && decide (x / 2 ^ 192 % 2 ^ 256 = 0) && decide (t / 2 ^ 60 % 8 = 0) && decide (t / 2 ^ 50 % 2 ^ 6 = 0) &&
    decide (t / 2 ^ 5 % 2 ^ 27 = 0)
  if ok then
    some {
      ring := dword x 0, headf := dw (dword x 1), hidx := dword x 2, pid := t / 2 ^ 56 % 16, prio := t / 2 ^ 48 % 4,
      asid := t / 2 ^ 32 % 2 ^ 16, len := l }
  else none

/-! ## Packets taken (R383, R384) -/

def getQueue (s : State) (p q : Nat) : Queue :=
  ((getPkg s p).queues.find? (fun k => decide (k.q = q))).getD { q := q, pkts := [], failed := false, served := false, closing := false, desc := 0 }

def setQueue (s : State) (p : Nat) (k : Queue) : State :=
  modPkg s p (fun x => { x with queues := x.queues.filter (fun y => decide (y.q ≠ k.q)) ++ [k] })

/-- The descriptor of a queue that is served (R379, R380): VALID, or, with one packet still to be taken, as the weir last read it (R398). -/
def servedDesc (s : State) (p q : Nat) : Option Desc :=
  let x := descBits s p q
  if descValid x then descOf x else if (getQueue s p q).closing then descOf (getQueue s p q).desc.toNat else none

/-- A queue is served under the descriptor that the weir has read. -/
def openQueue (s : State) (p q x : Nat) : State :=
  setQueue s p { getQueue s p q with served := true, closing := false, desc := BitVec.ofNat 512 x }

def modPacket (s : State) (p q no : Nat) (f : Packet → Packet) : State :=
  let k := getQueue s p q
  setQueue s p { k with pkts := k.pkts.map (fun x => if x.no = no then f x else x) }

/-- TYPE, BARRIER and DONE of a packet (R384). -/
def Packet.type (k : Packet) : Nat := dword k.bits.toNat 7 / 2 ^ 48 % 2 ^ 8
def Packet.barrier (k : Packet) : Bool := decide (dword k.bits.toNat 7 / 2 ^ 40 % 2 = 1)
def Packet.done (k : Packet) : Nat := dword k.bits.toNat 6

/-- A counted arrival of the lead weir for a packet (R381, R384, R387): no core's inbox hears of one that its flag cannot take. DESIGN CHOICE: log entry 56. -/
def packetArrival (s : State) (p q : Nat) (k : Packet) (flag : Nat) (inc : Bool) (tag : Nat) : State :=
  sendArrival s {
    id := 0, who := packetWho p q k, kind := 0, flag := dw flag, inc := inc, share := 0, domain := 0, addr := dw q, tag := tag, stage := .sent }

/-- A packet completes (R384): its DONE arrival, with INC where it failed or was refused, and it leaves the weir's state. A DONE that
is not 8-aligned names no flag. -/
def completePacket (s : State) (p q no : Nat) (failed : Bool) : State :=
  let k := getQueue s p q
  match k.pkts.find? (fun x => decide (x.no = no)) with
  | none => s
  | some x =>
    let s1 := setQueue s p { k with pkts := k.pkts.filter (fun y => decide (y.no ≠ no)), failed := k.failed || failed }
    if x.type = 6 ∨ x.done = 0 ∨ x.done % 8 ≠ 0 then s1 else packetArrival s1 p q x x.done failed 0

/-- The message of R389 to NOTIFY. -/
def refusalMessage (s : State) (p q pid reason type index : Nat) : State :=
  notifyPart s p pid (weirSender (q % 4)) 5 pid (reason * 2 ^ 40 + type * 2 ^ 32 + q * 2 ^ 16 + index % 2 ^ 16)

/-- A packet is refused (R389): the message, and its completion with INC. While the notification queue is full it waits (R361). -/
def refusePacket (s : State) (p q : Nat) (k : Packet) (reason : Nat) : State :=
  if noteRoom s p k.pid (weirSender (q % 4)) then
    completePacket (refusalMessage s p q k.pid reason k.type k.index) p q k.no true
  else s

end Sys2Proof.Machine
end

