-- ==== Sys2Proof/Machine/EngineRun.lean ====
section
/-!
DEFINITION. What the engines do (spec/11): copies (R321 to R323), overlay loads (R329), amplitude groups and permutations (R332 to R334), braid
runs (R335 to R338), and the shoot-down of a shard entry (R328).
-/
namespace Sys2Proof.Machine

/-! ## Engine accesses (R100, R412) -/

/-- The entries of a request in a port's lists for the page of an address. -/
def ownReqs (s : State) (w : Who) (a : Dword) (r : Req) : List PortReq :=
  let k := getPkg s (pkgOf w.core a)
  if windowOf (locOf a) = .hbm then (k.held ++ k.faults ++ k.retries).filter (fun q => q.onPage w a && decide (q.req = r)) else []

/-- A request was answered with REFUSE (R413). -/
def refusedAt (s : State) (w : Who) (a : Dword) (r : Req) : Bool := (ownReqs s w a r).any (fun q => q.refused)

/-- A request leaves the lists of a package's ports for the page of an address. -/
def passPort (s : State) (w : Who) (a : Dword) (r : Req) : State :=
  let out := fun (l : List PortReq) => l.filter (fun q => !(q.onPage w a && decide (q.req = r) && !q.refused))
  if ownReqs s w a r = [] then s
  else modPkg s (pkgOf w.core a) (fun k => { k with held := out k.held, faults := out k.faults, retries := out k.retries })

/-- One access of an engine's operation: it must wait (the state in which it does), or may go on (R412, R416, R417, R452). It waits under a ticket that
is not answered, behind another request of its core and page, for a page that is absent or in transit, or for a cluster that sleeps. -/
def engineGo (w : Who) (r : Req) (s : State) (x : Dword × Bool) : State ⊕ State :=
  let mine := ownReqs s w x.1 r
  let leave := fun (s : State) => if (getPkg s (pkgOf w.core x.1)).faults.any (fun q => mine.contains q) then passPort s w x.1 r else s
  if mine.any (fun q => q.refused) then .inr s
  else if mine.any (fun q => q.ticket.isSome) then .inl s
  else match portBehind s w x.1 r with
    | some y => .inl (if mine = [] then (holdBehind s y r).1 else s)
    | none => match xlate s w x.1 x.2 with
      | (s1, .fault p st pg hp hf) => .inl (holdAtPort (leave s1) w x.1 (.fault p st pg hp hf) x.2 r).1
      | (s1, .transit p st pg) =>
        if (getPkg s p).held.any (fun q => q.onPage w x.1 && decide (q.req = r)) then .inl s
        else .inl (holdAtPort (leave s1) w x.1 (.transit p st pg) x.2 r).1
      | (s1, .asleep p q) => .inl (wakeCluster s1 p q)
      | _ => .inr (passPort s w x.1 r)

/-- The accesses of an engine's operation in order: the state in which it waits for the first that must, or the one in which all may go on. -/
def engineWait (s : State) (w : Who) (r : Req) : List (Dword × Bool) → State ⊕ State
  | [] => .inr s
  | x :: l => match engineGo w r s x with
    | .inl s1 => .inl s1
    | .inr s1 => engineWait s1 w r l

/-- The answers of REFUSE that an operation has met are used up with it. -/
def dropRefused (s : State) (c : CoreId) (r : Req) : State :=
  { s with pkgs := s.pkgs.map (fun x => (x.1, { x.2 with faults := x.2.faults.filter (fun q => !(q.refused && decide (q.core = c) && decide (q.req = r))) })) }

/-- The item CAUSE of an access that was not performed (R227, R413). DESIGN CHOICE: log entry 41. -/
def engineCause (j : Judged) : Nat :=
  match j with
  | .fail c => itemCause c
  | .fault _ _ _ _ _ => 2
  | _ => 4

/-- n bytes from an address, sector by sector. -/
def sectorParts : Nat → Dword → Nat → List (Dword × Nat)
  | 0, _, _ => []
  | fuel + 1, a, n => if n = 0 then [] else
    let k := Nat.min n (32 - a.toNat % 32)
    (a, k) :: sectorParts fuel (a + dw k) (n - k)

/-- The first failing byte of a part (R317): its first, or the first that an uncorrectable error covers. -/
def firstBad (s : State) (w : Who) (a : Dword) (n : Nat) (j : Judged) : Dword :=
  match j, (xlate s w a false).2 with
  | .fail 7, .at_ ph _ _ _ => a + dw (((List.range n).find? (fun i => poisoned s w.gslot (ph + i) 1)).getD 0)
  | _, _ => a

/-- The physical addresses of an operation's parts, or the item CAUSE and the first failing byte. DESIGN CHOICE: log entry 41. -/
def engineAt (s : State) (w : Who) (r : Req) (k : AKind) : List (Dword × Nat) → State × (List Nat ⊕ Nat × Dword)
  | [] => (s, .inl [])
  | (a, n) :: l =>
    if refusedAt s w a r then (s, .inr (2, a))
    else match judge s w a n k with
      | (s1, .ok ph _) => match engineAt s1 w r k l with
        | (s2, .inl ps) => (s2, .inl (ph :: ps))
        | x => x
      | (s1, j) => (s1, .inr (engineCause j, firstBad s1 w a n j))

/-- Bytes read by an engine from parts. -/
def engineRead (s : State) (w : Who) (r : Req) (parts : List (Dword × Nat)) : State × (List (List Byte) ⊕ Nat × Dword) :=
  match engineAt s w r .read parts with
  | (s1, .inl phs) => (s1, .inl ((parts.zip phs).map (fun x => readJudged s1 w x.1.1 x.2 x.1.2)))
  | (s1, .inr e) => (s1, .inr e)

/-- What failed writes leave, sector by sector (R95, R107, R322): the pieces that were written. DESIGN CHOICE: log entry 9. -/
def leftPieces (s : State) (w : Who) (l : List (Dword × List Byte)) : List (Nat × List Byte) := (sectorsOf l).flatMap (keptSector w s)

/-! ## The end of an operation (R92, R95, R386) -/

/-- A failure of an operation: its record goes to the inbox, or, for a packet, is kept if it is the first. -/
def jobFail (s : State) (j : Job) (kind cause : Nat) (addr : Dword) (item : Nat) : State × Job :=
  let r := mkRec j.who kind cause addr j.flag item j.tag
  match j.packet with
  | none => (postRec s j.who r, { j with failed := true })
  | some _ => (s, { j with failed := true, firstRec := j.firstRec.or (some { r with d0 := r.d0 &&& 0xFFF0000000000000#64 }) })

/-- Who runs the operation of an engine packet: the engine of its cluster (R386). -/
def packetEngine (p : Nat) (k : Packet) : Who := weirWho { pkg := p, n := 16 * dword k.bits.toNat 4 } k.pid k.asid

/-- Bytes cut into pieces. -/
def cutBytes : List Nat → List Byte → List (List Byte)
  | [], _ => []
  | n :: l, bs => bs.take n :: cutBytes l (bs.drop n)

/-- The failure record of an engine packet written at REPORT, sector by sector, then the packet's completion (R386). It waits as an engine's access
does; a REPORT that cannot be written keeps its bytes. DESIGN CHOICE: log entry 34. -/
def writeReport (s : State) (p q : Nat) (k : Packet) (rc : Rec) : State :=
  let w := packetEngine p k
  let a := dw (dword k.bits.toNat 3)
  let rq : Req := .weir (.packet q k.no)
  let done := fun (s : State) => completePacket (dropRefused s w.core rq) p q k.no true
  match (if a = 0 then none else resolve w.core a) with
  | none => done s
  | some r =>
    let parts := sectorParts 32 r 32
    match engineWait s w rq (parts.map (fun x => (x.1, true))) with
    | .inl s1 => s1
    | .inr s1 => match engineAt s1 w rq .write parts with
      | (s1, .inl phs) => done (sectorWrites s1 w (phs.zip (cutBytes (parts.map (fun x => x.2)) (recBytes rc))))
      | (s1, .inr _) => done s1

/-- A packet's operation is over (R386): its first failure record goes to REPORT, and the packet completes. -/
def packetEnd (s : State) (j : Job) (q no : Nat) : State :=
  let p := j.who.core.pkg
  match j.firstRec with
  | none => completePacket s p q no j.failed
  | some r =>
    let s1 := modPacket s p q no (fun k => { k with report := some r })
    match (getQueue s1 p q).pkts.find? (fun k => decide (k.no = no)) with
    | some k => writeReport s1 p q k r
    | none => s1

/-- The end of an operation: a record for NOTE, the share, the arrival, or the packet's completion. `no` is its number among the core's items (R96). -/
def jobEnd (s : State) (j : Job) (kind : Nat) (addr : Dword) (share domain no : Nat) : State :=
  let s1 := if j.note && !j.failed && j.packet.isNone then postRec s j.who (mkRec j.who kind 0 addr j.flag 0 j.tag) else s
  let s2 := if j.failed && decide (j.flag ≠ 0) then s1 else returnWeight s1 j.who domain share
  let s3 := if j.flag = 0 then s2
    else sendArrival s2 {
      id := 0, who := j.who, kind := if j.packet.isSome then 0 else kind + 1, flag := j.flag, inc := j.failed, share := if j.failed then share else 0, domain := domain,
      addr := addr, tag := j.tag, stage := .sent, no := some no }
  match j.packet with
  | some (q, _, no) => packetEnd s3 j q no
  | none => s3

/-! ## Copies (R321 to R323) -/

/-- Row index and its source and destination addresses, element by element. -/
def rowAddrs (x : Nat) (src dst : Dword) (i1 i2 i3 : Nat) : List (Dword × Dword) :=
  let ss := layoutDims x 0
  let ds := layoutDims x 1
  let at_ := fun (base : Dword) (l : List (Nat × Int)) (i0 : Nat) =>
    base + BitVec.ofInt 64 (((l.zip [i0, i1, i2, i3]).map (fun d => d.1.2 * (d.2 : Int))).foldl (· + ·) 0)
  (List.range (ss.headD (0, 0)).1).map (fun i0 => (at_ src ss i0, at_ dst ds i0))

/-- The rows of a layout record in ascending row index (R318). -/
def copyRows (x : Nat) (src dst : Dword) : List (Nat × List (Dword × Dword)) :=
  let ext := fun (k : Nat) => ((layoutDims x 0).getD k (1, 0)).1
  (List.range (ext 1 * ext 2 * ext 3)).map (fun r => (r, rowAddrs x src dst (r % ext 1) (r / ext 1 % ext 2) (r / ext 1 / ext 2)))

/-- How far a copy is: the state, the bytes to be written, the lines touched, the failed rows. -/
structure CopyAcc where
  s : State
  parts : List (Nat × List Byte)
  lines : List Nat
  fails : List (Nat × Nat × Dword)

/-- The elements of a failed operation that could be read, with where they go and their bytes (R322). -/
def readable (s : State) (w : Who) (r : Req) (n : Nat) (row : List (Dword × Dword)) : List (Dword × List Byte) :=
  row.filterMap (fun p => match engineRead s w r [(p.1, n)] with
    | (_, .inl bs) => some (p.2, bs.flatten)
    | _ => none)

/-- A row that failed (R322, R323): each sector holds its old value or the copy's, and one with an element that could not be read its old value; with FILL, its lines are filled all the same. DESIGN CHOICE: log entry 9. -/
def rowFailed (w : Who) (r : Req) (fill : Bool) (n : Nat) (a : CopyAcc) (s : State) (row : Nat × List (Dword × Dword)) (e : Nat × Dword) : CopyAcc :=
  let at_ := fun (d : Dword) => match judge s w d n .fill with | (_, .ok ph _) => some ph | _ => none
  let fails := a.fails ++ [(row.1, e.1, e.2)]
  let read := readable s w r n row.2
  let lost := (row.2.filter (fun p => !read.any (fun x => decide (x.1 = p.2)))).map (fun p => p.2.toNat / 32)
  let got := read.filter (fun x => !lost.contains (x.1.toNat / 32))
  if fill then
    let ready := got.filterMap (fun p => match at_ p.1 with
      | some ph => if Config.failedSector s.tick (p.1.toNat / 32) then some (ph, p.2) else none
      | none => none)
    { a with s := s, parts := a.parts ++ ready, lines := a.lines ++ row.2.filterMap (fun p => (at_ p.2).map lineOf), fails := fails }
  else { a with s := s, parts := a.parts ++ leftPieces s w got, fails := fails }

/-- One row (R321, R322): every element is read and its destination judged; then its bytes are ready. -/
def copyRow (w : Who) (r : Req) (fill : Bool) (n : Nat) (a : CopyAcc) (row : Nat × List (Dword × Dword)) : CopyAcc :=
  let kind : AKind := if fill then .fill else .write
  let dsts := row.2.map (fun p => (p.2, n))
  match engineRead a.s w r (row.2.map (fun p => (p.1, n))) with
  | (s1, .inr e) => rowFailed w r fill n a s1 row e
  | (s1, .inl bs) => match engineAt s1 w r kind dsts with
    | (s2, .inr e) => rowFailed w r fill n a s2 row e
    | (s2, .inl phs) => { a with s := s2, parts := a.parts ++ phs.zip bs, lines := if fill then a.lines ++ phs.map lineOf else a.lines }

/-- The filling writes of a copy: one for each line that it touches (R323). -/
def copyFill (w : Who) (a : CopyAcc) : State :=
  let s1 := a.lines.eraseDups.foldl (fun s l =>
    fillLine s w.gslot w.pid l ((a.parts.filter (fun p => decide (lineOf p.1 = l))).map (fun p => (p.1 - l, p.2)))) a.s
  a.parts.foldl (fun s p => noteStrong s w.gslot p.1 p.2.length) s1

/-- A copy performed, or the state in which its engine waits. Its rows are read in ascending order, and its sector writes are made in ascending order of
address (R85, R321), an element of a higher linear index after one of a lower. DESIGN CHOICE: log entry 41. -/
def runCopy (s : State) (j : CopyJob) : State :=
  let x := j.rcd.toNat
  let w := j.job.who
  let r : Req := .copy j.id
  let gone := { s with copies := s.copies.filter (fun y => decide (y.id ≠ j.id)) }
  if !layoutOk (x % 2 ^ 496) then
    let y := jobFail gone j.job 0x21 8 j.dst 0
    jobEnd y.1 y.2 0x20 j.dst j.share j.domain j.id
  else
    let rows := copyRows x j.src j.dst
    match engineWait s w r (rows.flatMap (fun x => x.2.flatMap (fun p => [(p.1, false), (p.2, true)]))) with
    | .inl s1 => s1
    | .inr s =>
      let gone := { s with copies := s.copies.filter (fun y => decide (y.id ≠ j.id)) }
      let fill := decide (layoutFlags x % 2 = 1)
      let a := rows.foldl (copyRow w r fill (2 ^ layoutEsize x)) { s := gone, parts := [], lines := [], fails := [] }
      let s1 := dropRefused (if fill then copyFill w a else sectorWrites a.s w a.parts) w.core r
      let y := a.fails.foldl (fun (y : State × Job) f => jobFail y.1 y.2 0x21 f.2.1 f.2.2 f.1) (s1, j.job)
      jobEnd y.1 y.2 0x20 j.dst j.share j.domain j.id

/-- A copy waits for the core's earlier items and drains of the same bytes (R224), and for its earlier requests to the same package (R440) or, where
it writes there, to the host (R432). -/
def copyBlocked (s : State) (j : CopyJob) : Bool :=
  let w := j.job.who
  let mine := s.items.filter (fun i => decide (i.who.core = w.core) && decide (i.id < j.id))
  mine.any (fun i => i.ranges.any (sameBytes s w (copyRange j))) ||
    (getCore s w.core).mq.any (fun m => match drainRange m with
      | some r => decide (m.seq < j.id) && sameBytes s w r (copyRange j)
      | none => false) ||
    farWaits s w.core j.id [j.src, j.dst] || (onHost s w j.dst && mine.any (fun i => onHost s i.who i.addr))

/-- The oldest copy of a core's engine (R324). -/
def copyStep (s : State) (c : CoreId) : State :=
  match s.copies.find? (fun j => decide (j.core = c)) with
  | none => s
  | some j => if copyBlocked s j then s else runCopy (settlePair s j.job.who [j.src, j.dst] [j.dst]) j

/-- COPY_RUN (R321, R324). DESIGN CHOICE: log entry 41. -/
def execCopyRun (c : CoreId) (s : State) : Host.Outcome State Fault Refusal := .next (copyStep s c)

/-! ## Overlay loads (R329) -/

/-- Bytes stored into instruction memory. DESIGN CHOICE: log entry 43. -/
def loadImem (k : Core) (at_ : Nat) (bs : List Byte) : Core :=
  { k with imem := k.imem.filter (fun c => decide (c.1 < at_) || decide (at_ + bs.length ≤ c.1)) ++ bs.mapIdx (fun i b => (at_ + i, b)) }

/-- A segment whose bytes have come becomes resident (R329, R391). -/
def placeSeg (l : SegLoad) (bs : List Byte) (k : Core) : Core :=
  let k1 := loadImem k l.seg.load bs
  if l.seg.id = 0 then { k1 with base := some (l.image.toNat - 64, l.seg.size) }
  else { k1 with resident := k.resident.filter (fun x => decide (x.id ≠ l.seg.id)) ++ [l.seg] }

/-- The oldest load of a core (R329, R391). One of an earlier tenancy stores nothing (R33), and still makes its arrival. -/
def loadStep (s : State) (c : CoreId) : State :=
  match (getCore s c).loads with
  | [] => s
  | l :: rest =>
    let w := l.who.getD (weirWho c l.pid l.asid)
    let r : Req := .load c
    let parts := sectorParts l.seg.size l.image l.seg.size
    let done := fun (s : State) => dropRefused (modCore s c (fun k => { k with loads := rest })) w.core r
    match engineWait s w r (parts.map (fun p => (p.1, false))) with
    | .inl s1 => s1
    | .inr s => match engineRead s w r parts with
      | (s1, .inr e) =>
        let s2 := done s1
        if l.who.isNone then reportErr s2 c.pkg (clusterOf c.n) (errEntry 3 1 (clusterOf c.n) c.n 1 e.2.toNat 0)
        else
          let s3 := postRec s2 w (mkRec w 0x25 e.1 e.2 l.flag 0 0)
          if l.flag = 0 then s3
          else sendArrival s3 {
            id := 0, who := w, kind := 0x25, flag := l.flag, inc := true, share := 0, domain := 0, addr := e.2, tag := 0, stage := .sent, no := some l.no }
      | (s1, .inl bs) =>
        let s2 := if l.era = (getCore s c).era then modCore (done s1) c (placeSeg l bs.flatten) else done s1
        if l.who.isSome then fetchDone s2 w l.seg.id l.flag l.note l.no else s2

/-- CFETCH_LOAD_COMPLETE (R329, R391). -/
def execCfetchLoadComplete (c : CoreId) (s : State) : Host.Outcome State Fault Refusal := .next (loadStep s c)

/-! ## Amplitudes (R332 to R334) -/

/-- The index of member m of group g (R332). -/
def groupIndex (nq : Nat) (ts cs : List Nat) (cval g m : Nat) : Nat :=
  let free := (List.range nq).filter (fun q => !(ts ++ cs).contains q)
  let put := fun (l : List Nat) (x : Nat) => ((l.zip (List.range l.length)).map (fun p => x / 2 ^ p.2 % 2 * 2 ^ p.1)).foldl (· + ·) 0
  put free g + put cs cval + put ts m

/-- Real and imaginary parts of a CF32 value (R118). -/
def reOf (x : Nat) : FVal := decodeFp fp32 (x % 2 ^ 32)
def imOf (x : Nat) : FVal := decodeFp fp32 (x / 2 ^ 32 % 2 ^ 32)

/-- One row of the product (R332). DEDUCED: log entry 42. -/
def ampRow (us xs : List Nat) : Nat :=
  let re := matSum (plusZero :: (us.zip xs).flatMap (fun p => [mulTerm (reOf p.1) (reOf p.2), mulTerm (imOf p.1).flip (imOf p.2)]))
  let im := matSum (plusZero :: (us.zip xs).flatMap (fun p => [mulTerm (reOf p.1) (imOf p.2), mulTerm (imOf p.1) (reOf p.2)]))
  re + im * 2 ^ 32

/-- An address of an operation resolved against the core that issued it (R76); an alias that names another package stays one, and fails. -/
def issuerAddr (w : Who) (a : Dword) : Dword := (resolve w.core a).getD a

/-- The members of a group, and the addresses of U. -/
def groupMembers (j : AmpJob) (g : Nat) : List (Dword × Nat) :=
  let b := j.blk.toNat
  let ts := ampTargets b
  (List.range (2 ^ ts.length)).map (fun m =>
    (issuerAddr j.job.who (ampAt j.qlr.toNat (groupIndex (byteOf j.qlr.toNat 0) ts (ampControls b) (byteOf b 0x34) g m)), 8))

def ampUni (j : AmpJob) : List (Dword × Nat) :=
  let n := 2 ^ (ampTargets j.blk.toNat).length
  (List.range (n * n)).map (fun i => (dw (dword j.blk.toNat 1) + dw (8 * i), 8))

/-- Writes of an amplitude operation that failed: each sector its value before or the operation's (R107). DESIGN CHOICE: log entry 9. -/
def ampLeaves (s : State) (w : Who) (l : List (Dword × List Byte)) : State := sectorWrites s w (leftPieces s w l)

/-- Every one of those writes was made. -/
def ampLeftAll (s : State) (w : Who) (l : List (Dword × List Byte)) : Bool := decide ((leftPieces s w l).length = l.length)

/-- One group performed (R332): the failure, if it failed. DEDUCED: log entry 42. -/
def runGroup (s : State) (j : AmpJob) (r : Req) (g : Nat) : State × Option (Nat × Dword) :=
  let w := j.job.who
  let ms := groupMembers j g
  let n := ms.length
  match engineRead s w r ms with
  | (s1, .inr e) => (s1, some e)
  | (s1, .inl xs) => match engineRead s1 w r (ampUni j) with
    | (s2, .inr e) => (s2, some e)
    | (s2, .inl us) =>
      let x := xs.map leNat
      let u := us.map leNat
      let ys := (List.range n).map (fun k => leBytes 8 (ampRow ((u.drop (n * k)).take n) x))
      match engineAt s2 w r .write ms with
      | (s3, .inr e) => (ampLeaves s3 w ((ms.map (fun p => p.1)).zip ys), some e)
      | (s3, .inl phs) => (sectorWrites s3 w (phs.zip ys), none)

/-- Every group is done (R334): records in ascending group order, then the arrival. -/
def ampEnd (s : State) (p cluster : Nat) (j : AmpJob) (rest : List AmpJob) : State :=
  let s1 := modHub s p cluster (fun h => { h with amps := rest })
  let sorted := sortBy (fun a b => decide (a.1 ≤ b.1)) j.failGroups
  let r := sorted.foldl (fun (y : State × Job) f => jobFail y.1 y.2 0x31 f.2.1 f.2.2 (f.1 % 2 ^ 32)) (s1, j.job)
  jobEnd r.1 r.2 0x30 (dw (dword j.blk.toNat 0)) 0 0 j.no

/-- Groups that are still to be done. -/
def ampLeft (j : AmpJob) : Nat := dword j.blk.toNat 4 - dword j.blk.toNat 3 - j.doneGroups.length

/-- The words that a group needs. -/
def groupNeeds (j : AmpJob) (g : Nat) : List (Dword × Bool) :=
  (groupMembers j g).map (fun p => (p.1, true)) ++ (ampUni j).map (fun p => (p.1, false))

/-- Group g of the operation that a hub's engine runs (R332), in any order. -/
def ampStep (s : State) (pkg cluster g : Nat) : State :=
  match (getHub s pkg cluster).amps with
  | [] => s
  | j :: rest =>
    let r : Req := .amp pkg cluster (some g)
    if j.perm then s
    else if ampLeft j = 0 then ampEnd s pkg cluster j rest
    else if g < dword j.blk.toNat 3 ∨ dword j.blk.toNat 4 ≤ g ∨ j.doneGroups.contains g = true then s
    else match engineWait s j.job.who r (groupNeeds j g) with
      | .inl s1 => s1
      | .inr s =>
        let y := runGroup s j r g
        let s1 := dropRefused y.1 j.job.who.core r
        let j1 := { j with
          doneGroups := g :: j.doneGroups
          failGroups := match y.2 with | some e => j.failGroups ++ [(g, e.1, e.2)] | none => j.failGroups }
        if ampLeft j1 = 0 then ampEnd s1 pkg cluster j1 rest
        else modHub s1 pkg cluster (fun h => { h with amps := j1 :: rest })

/-- AMP_GROUP (R332). DESIGN CHOICE: log entry 41. -/
def execAmpGroup (pkg cluster g : Nat) (s : State) : Host.Outcome State Fault Refusal := .next (ampStep s pkg cluster g)

/-- The places of the amplitudes under the old record and under the new one, and the sectors of the record (R333). -/
def permOld (j : AmpJob) : List (Dword × Nat) :=
  (List.range (2 ^ byteOf j.qlr.toNat 0)).map (fun i => (issuerAddr j.job.who (ampAt j.qlr.toNat i), 8))
def permNew (j : AmpJob) : List (Dword × Nat) :=
  (List.range (2 ^ byteOf j.qlr.toNat 0)).map (fun i => (issuerAddr j.job.who (ampAt j.uniRec.toNat i), 8))
def permRecord (j : AmpJob) : List (Dword × Nat) := sectorParts 64 (dw (dword j.blk.toNat 0)) 64

/-- The new record over the old, as one transfer that ends in its trailing sector (R107, R333). -/
def permWrite (s : State) (w : Who) (j : AmpJob) (prs : List Nat) : State :=
  let bs := leBytes 64 j.uniRec.toNat
  sectorWrites s w (prs.zip [bs.take 32, bs.drop 32])

/-- `amp.perm` at its engine (R333, R107): every amplitude is read, then each is written in its new place, then the new record over the old, also where
the operation failed and every data sector was written. The record is judged before anything is written, so that it is written wherever the data are. DEDUCED: log entry 42. -/
def permStep (s : State) (pkg cluster : Nat) : State :=
  match (getHub s pkg cluster).amps with
  | [] => s
  | j :: rest =>
    let w := j.job.who
    let r : Req := .amp pkg cluster none
    let fail := fun (s : State) (e : Nat × Dword) => ampEnd (dropRefused s w.core r) pkg cluster { j with failGroups := [(0, e.1, e.2)] } rest
    if !j.perm then s
    else match engineWait s w r ((permOld j).map (fun p => (p.1, false)) ++ (permNew j ++ permRecord j).map (fun p => (p.1, true))) with
    | .inl s1 => s1
    | .inr s => match engineRead s w r (permOld j) with
      | (s1, .inr e) => fail s1 e
      | (s1, .inl xs) => match engineAt s1 w r .write (permRecord j) with
        | (s2, .inr e) => fail s2 e
        | (s2, .inl prs) => match engineAt s2 w r .write (permNew j) with
          | (s3, .inr e) =>
            let l := ((permNew j).map (fun p => p.1)).zip xs
            fail (if ampLeftAll s3 w l then permWrite (ampLeaves s3 w l) w j prs else ampLeaves s3 w l) e
          | (s3, .inl phs) => ampEnd (dropRefused (permWrite (sectorWrites s3 w (phs.zip xs)) w j prs) w.core r) pkg cluster j rest

/-- AMP_PERM_RUN (R333, R107). DESIGN CHOICE: log entry 41. -/
def execAmpPermRun (pkg cluster : Nat) (s : State) : Host.Outcome State Fault Refusal := .next (permStep s pkg cluster)

/-! ## Braids (R335 to R337) -/

/-- A step entry. -/
def parseStep (b : Nat) : Step :=
  { kind := byteOf b 0, sb := byteOf b 1, db := byteOf b 2, ndep := byteOf b 3, len := b / 2 ^ 32 % 2 ^ 32, soff := dw (dword b 1),
    doff := dw (dword b 2), succ := ((List.range 4).map (fun i => b / 2 ^ (192 + 16 * i) % 2 ^ 16)).filter (fun x => decide (x ≠ 0xFFFF)) }

/-- Fields of a step within R335. -/
def stepOk (nops : Nat) (x : Step) : Bool :=
  decide (x.kind ≤ 6) && decide (x.sb ≤ 7) && decide (x.db ≤ 7) && x.succ.all (fun i => decide (i < nops)) &&
    (match x.kind with
     | 1 => decide (x.len % 32 = 0)
     | 2 | 3 | 4 => decide (x.len % 128 = 0)
     | 6 => decide (x.len < 2 ^ 25)
     | _ => decide (x.len = 0))

/-- Steps that complete when those of `d` have: n rounds. -/
def braidReach (steps : List Step) : Nat → List Nat → List Nat
  | 0, d => d
  | n + 1, d => braidReach steps n ((List.range steps.length).filter (fun i =>
      (List.range steps.length).all (fun p => d.contains p || !((steps.getD p default).succ.contains i))))

/-- The check of R336. -/
def braidOk (header : Nat) (steps : List Step) : Bool :=
  let nops := header % 2 ^ 16
  decide (1 ≤ nops) && decide (nops ≤ 1024) && decide (header / 2 ^ 16 % 2 ^ 16 = 1) && decide (header / 2 ^ 32 = 0) &&
    steps.all (stepOk nops) &&
    (List.range steps.length).all (fun i => decide ((steps.getD i default).ndep = (steps.filter (fun p => p.succ.contains i)).length)) &&
    decide ((braidReach steps steps.length []).length = steps.length)

/-- The braids that a hub holds after one has been run: the most recently run first, at most four (R336). DESIGN CHOICE: log entry 44. -/
def keepBraid (l : List Braid) (b : Braid) : List Braid :=
  (b :: l.filter (fun x => !(decide (x.pid = b.pid) && decide (x.asid = b.asid) && decide (x.addr = b.addr)))).take 4

/-- The braid of a run: the one that the hub holds, or the one read from memory (R336); the steps are none where the check fails. -/
def readBraid (s : State) (p cluster : Nat) (r : BraidRun) : State × (Option (List Step) ⊕ Option (Nat × Dword)) :=
  let w := r.job.who
  let rq : Req := .braid p cluster r.id none
  match (if r.reload then none else (getHub s p cluster).braids.find? (fun b => decide (b.pid = w.pid ∧ b.asid = w.asid ∧ b.addr = r.addr))) with
  | some b => (s, .inl b.steps)
  | none =>
    match engineWait s w rq [(r.addr, false)] with
    | .inl s1 => (s1, .inr none)
    | .inr s => match engineRead s w rq [(r.addr, 32)] with
      | (s1, .inr e) => (s1, .inr (some e))
      | (s1, .inl hs) =>
        let header := leNat (hs.flatMap id)
        let n := header % 2 ^ 16
        if n < 1 ∨ 1024 < n then (s1, .inl none)
        else
          let parts := (List.range n).map (fun i => (r.addr + dw (32 + 32 * i), 32))
          match engineWait s1 w rq (parts.map (fun p => (p.1, false))) with
          | .inl s2 => (s2, .inr none)
          | .inr s1 => match engineRead s1 w rq parts with
            | (s2, .inr e) => (s2, .inr (some e))
            | (s2, .inl bs) =>
              let steps := bs.map (fun b => parseStep (leNat b))
              (s2, .inl (if braidOk header steps then some steps else none))

def setRuns (s : State) (p cluster : Nat) (f : BraidRun → Option BraidRun) : State :=
  modHub s p cluster (fun h => { h with runs := h.runs.filterMap f })

def dropRun (s : State) (p cluster id : Nat) : State := setRuns s p cluster (fun r => if r.id = id then none else some r)

/-- A run that has started: one counter for each step (R337). -/
def BraidRun.begin_ (r : BraidRun) (steps : List Step) : BraidRun :=
  { r with
    started := true, steps := steps
    st := steps.map (fun x => { cnt := x.ndep, done := false, failed := false, tainted := false, pushed := 0, marked := 0, ticket := none }) }

/-- The oldest run of a hub that waits starts, while fewer than four run (R336). The record of a braid that is malformed or cannot be read has ITEM 0, as
no step has failed: R317 does not say. DESIGN CHOICE: log entry 44. -/
def braidStart (s : State) (pkg cluster : Nat) : State :=
  let h := getHub s pkg cluster
  match h.runs.find? (fun r => !r.started) with
  | none => s
  | some r =>
    let w := r.job.who
    if 4 ≤ (h.runs.filter (fun x => x.started)).length then s
    else
      let met := fun (s : State) => dropRefused s w.core (.braid pkg cluster r.id none)
      let refuse := fun (s : State) (cause : Nat) (a : Dword) =>
        let y := jobFail (dropRun (met s) pkg cluster r.id) r.job 0x39 cause a 0
        jobEnd y.1 y.2 0x38 r.addr 0 0 r.id
      match readBraid s pkg cluster r with
      | (s1, .inr none) => s1
      | (s1, .inr (some e)) => refuse s1 e.1 e.2
      | (s1, .inl none) => refuse s1 9 r.addr
      | (s1, .inl (some steps)) =>
        let s2 := modHub (met s1) pkg cluster (fun h => { h with
          braids := keepBraid h.braids { pkg := pkg, pid := w.pid, asid := w.asid, addr := r.addr, steps := some steps } })
        setRuns s2 pkg cluster (fun x => some (if x.id = r.id then x.begin_ steps else x))

/-- BRAID_RUN_START (R336). DESIGN CHOICE: log entry 44. -/
def execBraidRunStart (pkg cluster : Nat) (s : State) : Host.Outcome State Fault Refusal := .next (braidStart s pkg cluster)

/-- One counted increment of a flag at its home (R91, R92); in host memory INC is set by an access of its own (R432). -/
def countAt (s : State) (w : Who) (ph : Nat) (inc : Bool) : State :=
  let old := readNat s w.gslot ph 8
  if hostBase ≤ ph ∧ inc = true then
    let s1 := writeWord s w ph 8 (countFlag old true false)
    writeWord s1 w ph 8 (countFlag (readNat s1 w.gslot ph 8) false true)
  else writeWord s w ph 8 (countFlag old true inc)

/-- What the work of a step came to. -/
inductive Work where
  | done (s : State)
  | failed (s : State) (cause : Nat) (a : Dword)
  | wait (s : State)

/-- The element operation and size of an ADD kind (R337). -/
def braidAdd (kind : Nat) : RmwOp × Nat := match kind with | 2 => (.faddF32, 4) | 3 => (.faddBf16, 2) | _ => (.add, 4)

/-- The 32-byte parts of a step's source or destination. -/
def stepParts (x : Step) (a : Dword) : List (Dword × Nat) := (List.range (x.len / 32)).map (fun i => (a + dw (32 * i), 32))

/-- The element adds of a step, at the addresses of its parts (R232, R337). -/
def stepAdds {α : Type} (kind : Nat) (at_ : α → Nat → α) (l : List (α × List Byte)) : List (α × AddPart) :=
  let op := braidAdd kind
  l.flatMap (fun p => (List.range (32 / op.2)).map (fun i =>
    (at_ p.1 (op.2 * i), { off := op.2 * i, op := op.1, v := leNat ((p.2.drop (op.2 * i)).take op.2) })))

/-- What a COPY or ADD step leaves that failed on its writes or its reads (R95). DESIGN CHOICE: log entry 9. -/
def stepLeaves (s : State) (w : Who) (x : Step) (l : List (Dword × List Byte)) : State :=
  if x.kind = 1 then sectorWrites s w (leftPieces s w l) else leaveAdds s w (stepAdds x.kind (fun a n => a + dw n) l)

/-- A COPY, ADD or SIGNAL step (R337). -/
def stepWork (s : State) (w : Who) (r : Req) (x : Step) (tainted : Bool) (src dst : Dword) : Work :=
  let srcs := stepParts x src
  let dsts := stepParts x dst
  match x.kind with
  | 0 => .done s
  | 5 =>
    if dst.toNat % 8 ≠ 0 then .failed s 1 dst
    else match engineWait s w r [(dst, true)] with
      | .inl s1 => .wait s1
      | .inr s => match engineAt s w r .rmw [(dst, 8)] with
        | (s1, .inl phs) => .done (countAt s1 w (phs.headD 0) tainted)
        | (s1, .inr e) => .failed s1 e.1 e.2
  | _ =>
    if src.toNat % 32 ≠ 0 then .failed s 1 src
    else if dst.toNat % 32 ≠ 0 then .failed s 1 dst
    else match engineWait s w r (srcs.map (fun p => (p.1, false)) ++ dsts.map (fun p => (p.1, true))) with
      | .inl s1 => .wait s1
      | .inr s => match engineRead s w r srcs with
        | (s1, .inr e) => .failed (stepLeaves s1 w x (readable s1 w r 32 ((srcs.map (fun p => p.1)).zip (dsts.map (fun p => p.1))))) e.1 e.2
        | (s1, .inl bs) =>
          match engineAt s1 w r (if x.kind = 1 then .write else .rmwDev) dsts with
          | (s2, .inr e) => .failed (stepLeaves s2 w x ((dsts.map (fun p => p.1)).zip bs)) e.1 e.2
          | (s2, .inl phs) =>
            if x.kind = 1 then .done (sectorWrites s2 w (phs.zip bs))
            else .done (addSectors s2 w (stepAdds x.kind (fun a n => a + n) (phs.zip bs)))

/-- A cluster's partition has a ford core there (R337, R442). DESIGN CHOICE: log entry 44. -/
def hasFord (s : State) (p pid cluster : Nat) : Bool := (List.range 16).any (fun i => isFord s { pkg := p, n := 16 * cluster + i } pid)

/-- The source and destination of a step: base plus offset, an alias resolved against the issuer's core (R76). -/
def stepSrc (r : BraidRun) (x : Step) : Dword := issuerAddr r.job.who (r.base.getD x.sb 0 + x.soff)
def stepDst (r : BraidRun) (x : Step) : Dword := issuerAddr r.job.who (r.base.getD x.db 0 + x.doff)

/-- A step has completed: its successors' counters go down, and what failed taints them (R337). -/
def stepDone (r : BraidRun) (i : Nat) (failed : Bool) : BraidRun :=
  let succ := (r.steps.getD i default).succ
  let bad := failed || (match r.st[i]? with | some x => x.tainted | none => false)
  { r with st := r.st.mapIdx (fun k x =>
      if k = i then { x with done := true, failed := failed }
      else if succ.contains k then { x with cnt := x.cnt - 1, tainted := x.tainted || bad }
      else x) }

/-- The run after a step: over when every step has completed. -/
def afterStep (s : State) (p cluster : Nat) (r : BraidRun) : State :=
  if r.st.all (fun x => x.done) then jobEnd (dropRun s p cluster r.id) r.job 0x38 r.addr 0 0 r.id
  else setRuns s p cluster (fun x => some (if x.id = r.id then r else x))

/-- A step that can start: its run has started, its counter is 0 and it has not completed. -/
def readyStep (s : State) (p cluster run step : Nat) : Option (BraidRun × Step × StepRun) :=
  match (getHub s p cluster).runs.find? (fun r => decide (r.id = run)) with
  | some r => if !r.started then none else
    (match r.steps[step]?, r.st[step]? with
     | some x, some t => if decide (t.cnt = 0) && !t.done then some (r, x, t) else none
     | _, _ => none)
  | none => none

/-- A step of a run that can start, performed, or the state in which it waits (R337). The record of a step whose cluster has no ford core has the step's
destination in ADDR, where no byte has failed: R317 does not say. DESIGN CHOICE: log entry 44. -/
def braidStep (s : State) (pkg cluster run step : Nat) : State :=
  match readyStep s pkg cluster run step with
  | none => s
  | some (r, x, t) =>
    let w := r.job.who
    let rq : Req := .braid pkg cluster run (some step)
    let fail := fun (s : State) (cause : Nat) (a : Dword) =>
      let y := jobFail s r.job 0x39 cause a step
      afterStep y.1 pkg cluster (stepDone { r with job := y.2 } step true)
    if x.kind = 6 then
      if !hasFord s pkg w.pid (x.len / 2 ^ 16 % 2 ^ 9) then fail s 0xA (stepDst r x)
      else if t.pushed = x.len % 2 ^ 16 ∧ t.marked = t.pushed then afterStep s pkg cluster (stepDone r step false)
      else s
    else match stepWork s w rq x t.tainted (stepSrc r x) (stepDst r x) with
      | .wait s1 => s1
      | .failed s1 cause a => fail (dropRefused s1 w.core rq) cause a
      | .done s1 => afterStep s1 pkg cluster (stepDone r step false)

/-- BRAID_STEP_COMPLETE (R337). DESIGN CHOICE: log entry 41. -/
def execBraidStepComplete (pkg cluster run step : Nat) (s : State) : Host.Outcome State Fault Refusal := .next (braidStep s pkg cluster run step)

/-- QUEUE_STEP_PUSH (R338): one more block into the block queue of the named cluster, of 4,096 entries. DESIGN CHOICE: log entry 44. -/
def execQueueStepPush (pkg cluster run step : Nat) (s : State) : Host.Outcome State Fault Refusal :=
  match readyStep s pkg cluster run step with
  | none => .next s
  | some (r, x, t) =>
    let cl := x.len / 2 ^ 16 % 2 ^ 9
    let h := getHub s pkg cl
    if x.kind ≠ 6 ∨ hasFord s pkg r.job.who.pid cl = false ∨ x.len % 2 ^ 16 ≤ t.pushed ∨ 4096 ≤ h.blocks.length then .next s
    else
      let tk := t.ticket.getD (h.nextTicket % 2 ^ 16)
      let at_ := fun (a : Dword) => issuerAddr r.job.who (a + dw (128 * t.pushed))
      let b : Block := {
        ticket := tk, runId := r.id, step := step, k := t.pushed, src := at_ (r.base.getD x.sb 0 + x.soff),
        dst := at_ (r.base.getD x.db 0 + x.doff), tag := r.job.tag, home := cluster }
      let s1 := setHub s pkg cl { h with blocks := h.blocks ++ [b], nextTicket := if t.ticket.isNone then h.nextTicket + 1 else h.nextTicket }
      .next (setRuns s1 pkg cluster (fun y => some (if y.id = r.id then
        { y with st := y.st.mapIdx (fun i z => if i = step then { z with pushed := z.pushed + 1, ticket := some tk } else z) } else y)))

/-! ## Shoot-downs (R328) -/

/-- The packages of the job (R74, R436). -/
def jobPkgs (s : State) : List Nat := (s.pkgs.map (fun x => x.1)).filter (inJob s)

/-- The parent of a package in the spanning tree: the first package on its route to package 1. DEDUCED: log entry 45. -/
def treeParent (s : State) (p : Nat) : Option Nat :=
  match s.job with
  | none => none
  | some j => match route s p 1 with
    | some (r :: _) => some (pkgAt j r.2)
    | _ => none

def setShoot (s : State) (x : Shoot) : State := { s with shoots := s.shoots.map (fun y => if y.id = x.id then x else y) }

/-- SHOOTDOWN_AT_ROOT (R328): the oldest `shinv` of the job, with every package that can be reached still to be visited. DEDUCED: log entry 45. -/
def execShootdownAtRoot (s : State) : Host.Outcome State Fault Refusal :=
  match s.shoots with
  | [] => .next s
  | x :: _ =>
    if x.atRoot then .next s
    else
      let up := fun (p : Nat) => (route s 1 p).isSome && (route s p 1).isSome
      .next (setShoot s { x with atRoot := true, nodes := (jobPkgs s).filter up, passed := (jobPkgs s).any (fun p => !up p) })

/-- SHOOTDOWN_AT_NODE (R328): the entry into the package's table, then on to its hubs and its children. DEDUCED: log entry 45. -/
def execShootdownAtNode (pkg : Nat) (s : State) : Host.Outcome State Fault Refusal :=
  match s.shoots with
  | [] => .next s
  | x :: _ =>
    let ahead := match treeParent s pkg with
      | some q => x.nodes.contains q
      | none => false
    if x.atRoot = false ∨ x.nodes.contains pkg = false ∨ ahead = true then .next s
    else
      let pid := x.who.pid
      let base := shardBase s pkg pid
      let s1 := if base = 0 ∨ devOk s pkg pid (base + 64 * x.handle) = false then s else writeNat s none (devPhys pkg (base + 64 * x.handle)) 64 x.entry.toNat
      let hubs := ((List.range 512).filter (fun k => inReach s pkg pid (reachOfCluster k))).map (fun k => (pkg, k))
      .next (setShoot s1 { x with nodes := x.nodes.filter (· ≠ pkg), hubs := x.hubs ++ hubs })

/-- Requests of a cluster's cores that the hub translated under a handle and that no home has performed yet (R106). -/
def shardPending (s : State) (p cluster h : Nat) : Bool :=
  s.cores.any (fun ck => decide (ck.1.pkg = p) && decide (clusterOf ck.1.n = cluster) && ck.2.slots.toList.any (fun o => match o with
    | some t => t.acc.any (fun a => decide (a.shard = some h))
    | none => false)) ||
  s.lateAccs.any (fun l => decide (l.who.core.pkg = p) && decide (clusterOf l.who.core.n = cluster) && decide (l.acc.shard = some h))

/-- HUB_SHOOTDOWN_ACK (R328, R452): the cached entry is dropped, in a cluster in retention the whole cache. DESIGN CHOICE: log entry 43. -/
def execHubShootdownAck (pkg cluster : Nat) (s : State) : Host.Outcome State Fault Refusal :=
  match s.shoots with
  | [] => .next s
  | x :: _ =>
    if x.hubs.contains (pkg, cluster) = false then .next s
    else
      let awake := isAwake (getHub s pkg cluster).ret
      if awake && shardPending s pkg cluster x.handle then .next s
      else
        let s1 := modHub s pkg cluster (fun h => { h with shard := if awake then h.shard.filter (fun e => decide (e.1 ≠ x.handle)) else [] })
        .next (setShoot s1 { x with hubs := x.hubs.filter (· ≠ (pkg, cluster)) })

/-- SHINV_COMPLETION (R328): every acknowledgement has come; the status lands in gA, or in the thread's image (R372). -/
def execShinvCompletion (s : State) : Host.Outcome State Fault Refusal :=
  match s.shoots with
  | [] => .next s
  | x :: l =>
    if x.atRoot = false ∨ x.nodes ≠ [] ∨ x.hubs ≠ [] then .next s
    else
      let status : OutVal := .dword (if x.passed then 1 else 0)
      let s1 := { s with shoots := l, lates := s.lates.map (fun y => if y.shoot = some x.id then { y with out := { y.out with val := status, ready := true } } else y) }
      .next (match getT s1 x.who.core x.slot with
        | some t =>
          if t.run = .held (.shinv x.id) then
            let t1 := setOut t x.seq status
            let t2 := match t1.out.find? (fun o => decide (o.seq = x.seq)) with
              | some o => landOut t1 o
              | none => t1
            setT s1 x.who.core x.slot (some { t2 with run := .ready })
          else s1
        | none => s1)

end Sys2Proof.Machine
end

