-- ==== Sys2Proof/Machine/System.lean ====
section
/-!
DEFINITION. The system instructions of page 2 (spec/06 R208, spec/15 R358 to R361): special registers and mailboxes.
-/
namespace Sys2Proof.Machine

/-! ## Special registers (R28, R64, R154, R358) -/

/-- The trap that the number of an `srr` or `srw` raises by itself (R154, R455): its CAUSE. A fault processor has no reel units (R356), so that there
sr.reel0 to sr.reel3 are as unassigned: the spec does not say what the access does. DESIGN CHOICE: log entry 17. -/
def srFault (c : CoreId) (num : Nat) (write : Bool) : Option Nat :=
  if !isFp c && decide (64 ≤ num) then some 4
  else if decide (num = 15) || (decide (20 ≤ num) && decide (num < 64)) || (isFp c && decide (16 ≤ num) && decide (num < 20)) then some 3
  else if write && decide (num < 16) && decide (num ≠ 12) then some 3
  else if decide (68 ≤ num) && decide (num < 256) || decide (768 ≤ num) then some 3
  else if write && (decide (num = 64) || decide (num = 66)) then some 3
  else none

/-- The base of the grid's pool region in the thread's cluster, or 0 (R37). DEDUCED: log entry 33. -/
def poolRegion (s : State) (c : CoreId) (t : Thread) : Dword :=
  match gridOf s c t with
  | some g => match g.pools.find? (fun x => decide (x.1 = clusterOf c.n)) with
    | some x => dw (poolBase x.1 + x.2)
    | none => 0
  | none => 0

/-- A special register at user numbers, as read (R28, R154). DEDUCED: log entry 33. DESIGN CHOICE: log entry 11. -/
def srUser (s : State) (k : Ctx) (num : Nat) : Dword :=
  let t := k.t
  let n := k.c.n
  let place := fun (x : Nat) => if isFp k.c then Config.fpIndex (n - 8192) num else dw x
  match num with
  | 0 => dw k.slot
  | 1 => place t.tid
  | 2 => place (posOf n)
  | 3 => place n
  | 4 => place (clusterOf n % 32)
  | 5 => place (reachOf n)
  | 6 => place t.group
  | 7 => (match gridOf s k.c t with | some g => dw g.gcount | none => place 0)
  | 8 => dw k.c.pkg
  | 9 => dw t.weight
  | 10 => dw t.domain
  | 11 => t.slim
  | 12 => t.regs.fpc
  | 13 => dw (cycleOf s k.c)
  | 14 => poolRegion s k.c t
  | _ => ((getCore s k.c).reel[num - 16]?.getD Reel.reset).reg

/-- The partition block that a number names, where FPMAP names the fault processor (R358). -/
def srBlock (s : State) (c : CoreId) (num : Nat) : Option (Nat × Nat) :=
  let pid := (num - 256) / 32
  if 256 ≤ num ∧ num < 768 ∧ fld (block s c.pkg pid).fpmap 15 0 / 2 ^ (c.n - 8192) % 2 = 1 then some (pid, num % 32) else none

/-- SRR (R208, R126). -/
def execSrr (o : SrOps) (s : State) : Host.Outcome State Fault Refusal :=
  match srFault s.cur.core o.num false with
  | some cause => encodingTrap s cause
  | none => issue s o.pre { wg := [(o.g, false)] } (fun s k =>
      if o.num = 12 ∧ k.t.out ≠ [] then .hold s .results
      else if o.num < 64 then setG s k o.g (srUser s k o.num, {})
      else match o.num with
        | 64 => setG s k o.g (dw (k.c.n - 8192), {})
        | 65 => setG s k o.g ((getCore s k.c).fpas, {})
        | 66 => setG s k o.g (dw (getCore s k.c).mailbox.length, {})
        | 67 => setG s k o.g ((getCore s k.c).timer, {})
        | _ => match (srBlock s k.c o.num).bind (fun b => blockRead s k.c.pkg b.1 b.2) with
          | some v => setG s k o.g (v, {})
          | none => Res.illegal s 3)

/-! ### Reel registers (R64) -/

/-- The fields of a reel register that an `srw` writes: all but PHASE and the reserved ones. -/
def reelMask : Dword := 0x800000003FFFFFFF#64

def reelRect (v : Dword) : Nat × Nat × Nat × Nat := (fld v 6 0, fld v 12 7, fld v 19 13 + 1, fld v 25 20 + 1)

/-- A core lies in the rectangle (row, column, height, width). -/
def inRect (r : Nat × Nat × Nat × Nat) (n : Nat) : Bool :=
  decide (r.1 ≤ meshRow n) && decide (meshRow n < r.1 + r.2.2.1) && decide (r.2.1 ≤ meshCol n) && decide (meshCol n < r.2.1 + r.2.2.2)

/-- The cores of a rectangle, row by row. -/
def rectCores (r : Nat × Nat × Nat × Nat) : List Nat :=
  (List.range r.2.2.1).flatMap (fun i => (List.range r.2.2.2).map (fun j => coreAt (r.1 + i) (r.2.1 + j)))

/-- The cores that a thread's barrier may reach: its group's, or its grid's if that is co-resident. DESIGN CHOICE: log entry 19. -/
def reelBound (s : State) (k : Ctx) (n : Nat) : Bool :=
  match gridOf s k.c k.t with
  | some g =>
    if g.coloc || g.hdr.net then decide ((getCore s { k.c with n := n }).tenancy = k.t.gslot)
    else g.groups.any (fun r => r.crews.any (fun x => decide (x.core = k.c.n ∧ x.crew = k.t.crew)) && r.crews.any (fun x => decide (x.core = n)))
  | none => false

/-- The barrier unit of the `bar.wait` or `bar.arrive` at a thread's PC. -/
def barUnit (k : Core) (t : Thread) : Option Nat :=
  match readChain (fetchWords k.imem t.pc 5) {} with
  | (.ok r, _) =>
    if r.slot = { page := 4, major := 6, func := 0 } ∨ r.slot = { page := 4, major := 6, func := 1 } then (match dBar r with
      | .ok o => some o.k.val
      | .error _ => none)
    else none
  | _ => none

/-- A thread of the core is parked on a barrier of unit u: it parked here, or it is PARKED as its image had it, at the instruction (R39, R262). -/
def parkedOnReel (k : Core) (u : Nat) : Bool :=
  k.slots.toList.any (fun o => match o with
    | some t => (match t.run with
      | .parked (.barWait x _) _ => decide (x = u)
      | .parked (.barArrive x _) _ => decide (x = u)
      | .parked .restored _ => decide (barUnit k t = some u)
      | _ => false)
    | none => false)

/-- An `srw` to reel unit u (R64, R65, R255). DESIGN CHOICE: log entry 27. -/
def writeReel (s : State) (k : Ctx) (u : Nat) (v : Dword) : Res :=
  let core := getCore s k.c
  let r := core.reel[u]?.getD Reel.reset
  let rect := reelRect v
  let en := fld v 63 63
  let was := fld r.reg 63 63
  let field := fun (x : Dword) => x.toNat % 2 ^ 30
  if r.owner ≠ some k.t.crew then Res.illegal s 3
  else if 128 < rect.1 + rect.2.2.1 ∨ 64 < rect.2.1 + rect.2.2.2 then Res.illegal s 3
  else if inRect rect k.c.n = false then Res.illegal s 3
  else if was = 1 ∧ field v ≠ field r.reg then Res.illegal s 3
  else if was = 1 ∧ en = 0 ∧ parkedOnReel core u = true then Res.illegal s 3
  else match (rectCores rect).find? (fun n => !reelBound s k n) with
    | some n => Res.access s 9 (dw n)
    | none =>
      let phase := if was = 0 ∧ en = 1 then 0 else fld r.reg 47 32
      let reg := dw ((v &&& reelMask).toNat + phase * 2 ^ 32)
      let r1 := { r with reg := reg, era := if was = 0 ∧ en = 1 then r.era + 1 else r.era
                         now := if en = 0 then 0 else r.now, next := if en = 0 then 0 else r.next }
      .ok (setCore s k.c { core with reel := core.reel.setIfInBounds u r1 })

/-- SRW (R208, R126, R154, R358). DESIGN CHOICE: log entry 27. -/
def execSrw (o : SrOps) (s : State) : Host.Outcome State Fault Refusal :=
  match srFault s.cur.core o.num true with
  | some cause => encodingTrap s cause
  | none => issue s o.pre { rg := [(o.g, false)], eff := decide (16 ≤ o.num) } (fun s k =>
      let v := k.val 0
      match o.num with
      | 12 => if k.t.out ≠ [] then .hold s .results else .ok (k.upd s (fun t => { t with regs := { t.regs with fpc := fpcWrite v } }))
      | 16 => writeReel s k 0 v
      | 17 => writeReel s k 1 v
      | 18 => writeReel s k 2 v
      | 19 => writeReel s k 3 v
      | 65 =>
        let x := v &&& 0xFFFFF#64
        let s1 := modCore s k.c (fun core => { core with fpas := x })
        .ok (setCore s1 k.c (let core := getCore s1 k.c
          { core with slots := core.slots.map (fun o => o.map (fun t => { t with pid := fld x 19 16, asid := fld x 15 0 })) }))
      | 67 => .ok (modCore s k.c (fun core => { core with timer := v }))
      | _ => match (srBlock s k.c o.num).bind (fun b => blockWrite s k.c.pkg b.1 b.2 v) with
        | some s1 => .ok s1
        | none => Res.illegal s 3)

/-! ## Mailboxes (R361) -/

/-- MBXS. -/
def execMbxs (o : BcOps) (s : State) : Host.Outcome State Fault Refusal :=
  issue s o.pre { rg := [(o.b, false), (o.c, false)], eff := true, priv := true } (fun s k =>
    let b := k.val 0
    let pk := fld b 59 48
    let p := if pk = 0 then k.c.pkg else pk
    let dst : CoreId := { pkg := p, n := 8192 + fld b 3 0 }
    if fld b 63 60 ≠ 0 ∨ fld b 47 4 ≠ 0 then Res.access s 1 b
    else if p ≠ k.c.pkg ∧ inJob s p = false then Res.access s 3 b
    else if (route s k.c.pkg p).isNone then Res.access s 8 b
    else if 64 ≤ (getCore s dst).mailbox.length then .hold s (.mailbox dst)
    else .ok (modCore s dst (fun x => { x with mailbox := x.mailbox ++ [k.val 1] })))

/-- MBXR. DEDUCED: log entry 14. -/
def execMbxr (o : RdOps) (s : State) : Host.Outcome State Fault Refusal :=
  issue s o.pre { lg := [o.rd], lat := 1, eff := true, priv := true } (fun s k =>
    match (getCore s k.c).mailbox with
    | [] => .park s .mailbox
    | x :: l => outG (modCore s k.c (fun core => { core with mailbox := l })) k o.rd (x, {}))

/-- WFI. -/
def execWfi (o : BareOps) (s : State) : Host.Outcome State Fault Refusal :=
  issue s o.pre { priv := true } (fun s k => if heldMet s k.c k.slot k.t .wfi then .ok s else .hold s .wfi)

end Sys2Proof.Machine
end

