-- ==== Sys2Proof/Machine/Tlbsd.lean ====
section
/-!
DEFINITION. The shoot-down instruction and its seven operations (spec/17, R405, R406, R413, R417, R418): one row each, picked by gB's OP.
-/
namespace Sys2Proof.Machine

/-- What gB and gC must be, by the kind of operand that the operation names. -/
inductive TlbArg where
  | page | none | ticket
deriving DecidableEq, Repr, Inhabited

/-- The checks of R405 on gB and gC: COUNT only for INVAL. -/
def tlbBad (s : State) (p pid : Nat) (b c : Dword) (count : Bool) (arg : TlbArg) : Bool :=
  let asid := fld b 15 0
  let cnt := fld b 59 48
  decide (fld b 47 16 ≠ 0) || (!count && decide (cnt ≠ 0)) ||
    (match arg with
     | .ticket => decide (asid ≠ 0) || decide (fld c 63 32 ≠ 0)
     | .page => decide (asid = 0xFFFF) || decide (readDev s p (transBlock s p pid) 8 / 2 ^ 48 < asid) || decide (fld c 15 0 ≠ 0) ||
         decide (fld c 63 47 ≠ 0)
     | .none => decide (asid = 0xFFFF) || decide (readDev s p (transBlock s p pid) 8 / 2 ^ 48 < asid) || decide (c ≠ 0))

/-- The frame of `tlbsd`: the PID of sr.fpas, the checks, then the operation on the package, PID, ASID and gC. -/
def tlbIssue (count : Bool) (arg : TlbArg) (o : BcOps) (s : State) (body : State → Ctx → Nat → Nat → Nat → Nat → Res) :
    Host.Outcome State Fault Refusal :=
  issue s o.pre { rg := [(o.b, false), (o.c, false)], eff := true, priv := true } (fun s k =>
    let pid := fld (getCore s k.c).fpas 19 16
    let b := k.val 0
    if tlbBad s k.c.pkg pid b (k.val 1) count arg then Res.illegal s 3
    else body s k pid (fld b 15 0) (fld b 59 48) (k.val 1).toNat)

/-- A TLB entry maps a byte of [lo, hi). -/
def tlbHits (t : Tlb) (pid asid lo hi : Nat) : Bool :=
  decide (t.pid = pid) && decide (t.asid = asid) && decide (t.va < hi) && decide (lo < t.va + pageSize t.big)

def dropTlb (s : State) (p pid asid lo hi : Nat) : State :=
  modPkg s p (fun k => { k with tlb := k.tlb.filter (fun t => !tlbHits t pid asid lo hi) })

/-- The gateway stack of an address, and the page as its leaf maps it: its VA, its size, and the leaf where there is one (R406). -/
def pageAt (s : State) (p pid asid va : Nat) : Option (Nat × Nat × Bool × Option (Nat × Nat)) :=
  match asEntry s p pid asid with
  | .unused | .bad _ => none
  | .tables root tab n => match searchRange s p pid asid tab va 14 0 n with
    | .hit e => (match walkFrom s p pid va 4 0 root with
      | .leaf at_ big d => some (e.stack, pageOf big va, big, some (at_, d))
      | _ => some (e.stack, pageOf false va, false, none))
    | _ => none

/-- A page is in transit (R416). -/
def transitAt (s : State) (p pid asid va : Nat) : Option Transit :=
  (getPkg s p).transits.find? (fun t => decide (t.pid = pid) && decide (t.asid = asid) && decide (t.va = pageOf t.big va))

/-- DISCARD placed at the port (R418): the leaf's bit by a strong write, in memory and in the TLB. DEDUCED: log entry 54. -/
def placeDiscard (s : State) (p leafAt d : Nat) : State :=
  if d / 2 ^ 59 % 2 = 1 then s
  else
    let s1 := writeNat s none (devPhys p leafAt) 8 (d + 2 ^ 59)
    modPkg (noteStrong s1 none (devPhys p leafAt) 8) p (fun k => { k with tlb := k.tlb.map (fun t =>
      if t.leafAt = leafAt then { t with leaf := dw (d + 2 ^ 59) } else t) })

/-- DISCARD of a page as it is mapped now; of one that is absent it changes nothing. -/
def discardPage (s : State) (p pid asid va : Nat) : State :=
  match pageAt s p pid asid va with
  | some (_, _, _, some (at_, d)) => placeDiscard s p at_ d
  | _ => s

/-- A request that is sent on by the one that made it, in its own turn: the thread whose instruction has not issued, or the weir that still needs the
bytes. The requests behind it wait until that has happened. -/
def awaited (s : State) (q : PortReq) : Bool :=
  match q.req with
  | .issue c slot seq =>
    (match getT s c slot with
     | some t => decide (t.seq = seq) && !t.halted && t.trap.isNone && (match t.run with
       | .held (.ticket _) | .held .trap | .parked _ _ => false
       | _ => true)
     | none => false)
  | .weir (.head n hidx) => (servedDesc s q.core.pkg n).any (fun d => decide (d.hidx = hidx))
  | .weir (.packet n no) => (getQueue s q.core.pkg n).pkts.any (fun k => decide (k.no = no) && !k.started)
  | _ => false

/-- Its thread is READY to issue again. -/
def readyFor (s : State) (q : PortReq) : State :=
  match q.req with
  | .issue c slot _ => modT s c slot (fun t => if t.run = .held .port then { t with run := .ready } else t)
  | _ => s

/-- A request held at a port sent on again (R413, R417): it is translated afresh, and what it writes is performed before the next is sent on. One whose
thread or weir no longer waits for it is gone. -/
def resend (s : State) (q : PortReq) : State :=
  drainAll (match q.req with
    | .access c slot no =>
      let free := fun (a : Access) => if a.no = no then { a with buffered := false } else a
      let s1 := modT { s with lateAccs := s.lateAccs.map (fun l => { l with acc := free l.acc }) } c slot (fun t => { t with acc := t.acc.map free })
      (match s1.lateAccs.find? (fun l => decide (l.acc.no = no)), getT s1 c slot with
       | some l, _ => tryLate s1 l
       | none, some t => tryAccess s1 c slot (t.acc.findIdx (fun a => decide (a.no = no)))
       | none, none => s1)
    | .item id =>
      let s1 := setStage s id .sent
      (match s1.items.find? (fun i => decide (i.id = id)) with
       | some i => tryItem s1 i
       | none => s1)
    | .arrival id =>
      let s1 := { s with arrivals := s.arrivals.map (fun x => if x.id = id then { x with stage := .sent } else x) }
      (match s1.arrivals.find? (fun i => decide (i.id = id)) with
       | some a => tryArrival s1 a
       | none => s1)
    | .copy id =>
      (match s.copies.find? (fun j => decide (j.id = id)) with
       | some j => copyStep s j.core
       | none => s)
    | .load c => loadStep s c
    | .amp p k (some g) => ampStep s p k g
    | .amp p k none => permStep s p k
    | .braid p k _ none => braidStart s p k
    | .braid p k run (some i) => braidStep s p k run i
    | .owed id =>
      (match s.owed.find? (fun o => decide (o.id = id)) with
       | some o => returnWeight { s with owed := s.owed.filter (fun x => decide (x.id ≠ id)) } o.who o.domain o.amount
       | none => s)
    | .weir (.packet n no) =>
      (match (getQueue s q.core.pkg n).pkts.find? (fun k => decide (k.no = no)) with
       | some k => (match k.report with
         | some r => writeReport s q.core.pkg n k r
         | none => s)
       | none => s)
    | .weir _ | .issue _ _ _ => s
    | .discard c slot pid asid va =>
      if (transitAt s c.pkg pid asid va).isSome then (putHeld s c.pkg q).1
      else modT (discardPage s c.pkg pid asid va) c slot (fun t => { t with run := .ready, woken := some 0 }))

/-- Requests sent on in their order, as far as the first that its thread or weir sends on itself: from there on they are put back (R417). -/
def sendOn (back : State → List PortReq → State) : State → List PortReq → State
  | s, [] => back s []
  | s, q :: l => if awaited s q then back (readyFor s q) (q :: l) else sendOn back (resend s q) l

/-- What is done with a page's requests while those that a full list had refused, which came after them, stand aside (R416). -/
def besideRetries (s : State) (p : Nat) (same : PortReq → Bool) (f : State → State) : State :=
  let later := (getPkg s p).retries.filter same
  modPkg (f (modPkg s p (fun k => { k with retries := k.retries.filter (fun q => !same q) }))) p (fun k => { k with retries := k.retries ++ later })

/-- The requests held for a page that has landed go on, one by one in arrival order (R406, R417); while one of them waits for its thread or weir, the page
takes no other. DEDUCED: log entry 54. -/
def landOn (s : State) (p : Nat) (t : Transit) : State :=
  let mine := fun (q : PortReq) => decide (q.stack = t.stack ∧ q.pid = t.pid ∧ q.asid = t.asid ∧ q.page = t.va)
  let held := (getPkg s p).held.filter mine
  besideRetries s p mine (fun s =>
    let s1 := modPkg s p (fun x => { x with transits := x.transits.filter (fun y => decide (y ≠ t)), held := x.held.filter (fun q => !mine q) })
    sendOn (fun s l => match l with
      | [] => s
      | q :: _ => modPkg s p (fun x => { x with transits := x.transits ++ [{ t with landing := some q.core }], held := x.held ++ l })) s1 held)

/-- The requests of a core for a page that has been answered go on, each after those before it (R413). -/
def answeredOn (s : State) (p : Nat) (l : List PortReq) : State := sendOn (fun s l => modPkg s p (fun k => { k with faults := k.faults ++ l })) s l

/-- Two requests of one core for one page. -/
def PortReq.same (q x : PortReq) : Bool := decide (x.core = q.core ∧ x.stack = q.stack ∧ x.pid = q.pid ∧ x.asid = q.asid ∧ x.page = q.page)

/-- One that waits behind another in a fault list, or has been answered and waits for its thread or weir. -/
def PortReq.follows (x : PortReq) : Bool := x.ticket.isNone && !x.refused

/-- The ports of a package go on where a thread or a weir has sent on what they waited for. -/
def portsOn (s : State) (p : Nat) : State :=
  let s1 := ((getPkg s p).transits.filter (fun t => t.landing.isSome)).foldl (fun s t => landOn s p t) s
  let front := fun (q : PortReq) => q.follows && !(((getPkg s1 p).faults.takeWhile (fun x => decide (x ≠ q))).any q.same)
  ((getPkg s1 p).faults.filter front).foldl (fun s q => besideRetries s p q.same (fun s =>
    let l := (getPkg s p).faults.filter (fun x => q.same x && x.follows)
    answeredOn (modPkg s p (fun k => { k with faults := k.faults.filter (fun x => !(q.same x && x.follows)) })) p l)) s1

/-- TLBSD INVAL (R406): what was translated under a dropped entry is performed. The OPs that name no operation trap. -/
def execTlbsdInval (o : BcOps) (s : State) : Host.Outcome State Fault Refusal :=
  tlbIssue true .page o s (fun s k pid asid count va =>
    if 0 < fld (k.val 0) 63 60 then Res.illegal s 3
    else .ok (drainAll (dropTlb s k.c.pkg pid asid va (va + 2 ^ 16 * (count + 1)))))

/-- TLBSD TRANSIT (R406). -/
def execTlbsdTransit (o : BcOps) (s : State) : Host.Outcome State Fault Refusal :=
  tlbIssue false .page o s (fun s k pid asid _ va =>
    let p := k.c.pkg
    if (transitAt s p pid asid va).any (fun t => t.landing.isSome) then .hold s (.land pid asid (((transitAt s p pid asid va).map (fun t => t.va)).getD 0))
    else if (transitAt s p pid asid va).isSome then .ok s
    else match pageAt s p pid asid va with
      | none => .ok s
      | some (st, base, big, _) =>
        let s1 := dropTlb s p pid asid base (base + pageSize big)
        .ok (drainAll (modPkg s1 p (fun x => { x with transits := x.transits ++ [{ stack := st, pid := pid, asid := asid, va := base, big := big }] }))))

/-- TLBSD LAND (R406, R417): it completes when every request that was held has been translated afresh. DEDUCED: log entry 54. -/
def execTlbsdLand (o : BcOps) (s : State) : Host.Outcome State Fault Refusal :=
  tlbIssue false .page o s (fun s k pid asid _ va =>
    let p := k.c.pkg
    if k.t.woken.isSome then .ok s
    else match transitAt s p pid asid va with
    | none => .ok (dropTlb s p pid asid va (va + 2 ^ 16))
    | some t =>
      let w : HeldOn := .land pid asid t.va
      if t.landing.isSome then .hold s w
      else
        let s1 := landOn (dropTlb s p pid asid t.va (t.va + pageSize t.big)) p t
        if heldMet s1 k.c k.slot k.t w then .ok s1 else .hold (k.upd s1 (fun x => { x with woken := some 0 })) w)

/-- TLBSD DISCARD (R406, R418): of a page in transit it is held as a request is, and placed in its turn. DEDUCED: log entry 54. -/
def execTlbsdDiscard (o : BcOps) (s : State) : Host.Outcome State Fault Refusal :=
  tlbIssue false .page o s (fun s k pid asid _ va =>
    let p := k.c.pkg
    if k.t.woken.isSome then .ok s
    else match transitAt s p pid asid va with
      | some t =>
        .hold (putHeld s p {
          core := k.c, stack := t.stack, pid := pid, asid := asid, page := t.va, big := t.big, req := .discard k.c k.slot pid asid va, ticket := none, refused := false,
          since := s.tick }).1 .port
      | none => .ok (discardPage s p pid asid va))

/-- TLBSD RANGES (R406): it completes when the requests of the ASID that stood at the ports have been performed or have failed. -/
def execTlbsdRanges (o : BcOps) (s : State) : Host.Outcome State Fault Refusal :=
  tlbIssue false .none o s (fun s k pid asid _ _ =>
    if k.t.woken.isSome then .ok s
    else
      let s1 := drainAll { s with hubs := s.hubs.map (fun x =>
        if x.1.1 = k.c.pkg then (x.1, { x.2 with ranges := x.2.ranges.filter (fun e => !(decide (e.pid = pid) && decide (e.asid = asid))) }) else x) }
      let w : HeldOn := .ranges pid asid (s.tick + 1)
      if heldMet s1 k.c k.slot k.t w then .ok s1 else .hold (k.upd s1 (fun t => { t with woken := some 0 })) w)

/-! ## Answers to tickets (R413) -/

/-- The package whose thread or port waits under a ticket: the answering one first. DESIGN CHOICE: log entry 51. -/
def ticketPkg (s : State) (p tk : Nat) : Option Nat :=
  (p :: (s.pkgs.map (fun x => x.1)).filter (· ≠ p)).find? (fun q =>
    let k := getPkg s q
    k.waits.any (fun w => decide (w.ticket = tk) && w.sent) || k.faults.any (fun r => decide (r.ticket = some tk)))

/-- A thread's wait ended: it issues the access again, or takes the access fault of a refused page (R413). -/
def answerThread (s : State) (w : FaultWait) (refuse : Bool) : State :=
  match getT s w.core w.slot with
  | none => s
  | some t =>
    if t.run = .held (.ticket w.ticket) then
      if refuse then
        takeTrap s w.core w.slot { cls := clsAccess, cause := 6, addr := w.addr, aux := 0, pc := t.pc, seg := t.seg, words := w.words }
      else setT s w.core w.slot (some { t with run := .ready })
    else s

/-- A port's request answered: translated again with those behind it, or failed with CAUSE 0x2 (R412, R413). -/
def answerPort (s : State) (p : Nat) (q : PortReq) (refuse : Bool) : State :=
  let behind := fun (x : PortReq) => q.same x && x.follows
  let later := (getPkg s p).faults.filter behind
  let q1 := { q with ticket := none }
  besideRetries s p q.same (fun s =>
    let s1 := modPkg s p (fun k => { k with faults := k.faults.filter (fun x => decide (x ≠ q) && !behind x) })
    if refuse then
      answeredOn (match q.req with
        | .access _ _ _ | .issue _ _ _ | .discard _ _ _ _ _ => resend s1 q1
        | .item id => (match s1.items.find? (fun i => decide (i.id = id)) with
          | some i => itemFail s1 i 2
          | none => s1)
        | .arrival id => (match s1.arrivals.find? (fun a => decide (a.id = id)) with
          | some a =>
            let s2 := { s1 with arrivals := s1.arrivals.filter (fun x => decide (x.id ≠ id)) }
            let s3 := lostArrival s2 a
            if a.share = 0 then s3 else returnWeight s3 a.who a.domain a.share
          | none => s1)
        | .owed id => { s1 with owed := s1.owed.filter (fun x => decide (x.id ≠ id)) }
        | _ => resend (modPkg s1 p (fun k => { k with faults := k.faults ++ [{ q1 with refused := true }] })) q1) p later
    else answeredOn s1 p (q1 :: later))

/-- RESUME or REFUSE for a ticket, from the fault processor's home. -/
def answer (s : State) (home : CoreId) (tk : Nat) (refuse : Bool) : State :=
  match ticketPkg s home.pkg tk with
  | none => s
  | some p =>
    let k := getPkg s p
    match k.waits.find? (fun w => decide (w.ticket = tk) && w.sent) with
    | some w =>
      let s1 := setPkg s p { k with waits := k.waits.filter (fun x => decide (x.ticket ≠ tk)) }
      answerThread s1 w (refuse && decide (w.homePkg = home.pkg) && decide (w.homeFp + 8192 = home.n))
    | none => match k.faults.find? (fun r => decide (r.ticket = some tk)) with
      | some q => answerPort s p q refuse
      | none => s

/-- TLBSD RESUME (R413). -/
def execTlbsdResume (o : BcOps) (s : State) : Host.Outcome State Fault Refusal :=
  tlbIssue false .ticket o s (fun s k _ _ _ tk => .ok (answer s k.c tk false))

/-- TLBSD REFUSE (R413). -/
def execTlbsdRefuse (o : BcOps) (s : State) : Host.Outcome State Fault Refusal :=
  tlbIssue false .ticket o s (fun s k _ _ _ tk => .ok (answer s k.c tk true))

end Sys2Proof.Machine
end

