-- ==== Sys2Proof/Machine/Packets.lean ====
section
/-!
DEFINITION. The packets of the work queues (spec/16, R380 to R387): taking them in order, refusing the malformed, the engine packets,
WAITFLAG and SIGNAL. Admission.lean has what a KERNEL packet does next.
-/
namespace Sys2Proof.Machine

/-! ## Taking a packet (R382, R383) -/

/-- The packet of a slot: its dwords, those with an uncorrectable error as zero. -/
def slotBits (s : State) (ph : Nat) : Nat :=
  ((List.range 8).map (fun i => if poisoned s none (ph + 8 * i) 8 then 0 else readNat s none (ph + 8 * i) 8 * 2 ^ (64 * i))).foldl (· + ·) 0

/-- The lead weir takes a packet (R383): it copies it, writes STATE := 0x00 and then HIDX + 1, and makes the arrival on HEADF. -/
def takeSlot (s : State) (p q : Nat) (e : Desc) (ph x : Nat) (bad : List Nat) : State :=
  let k : Packet := {
    no := s.itemSeq, index := e.hidx, bits := BitVec.ofNat 512 x, pid := e.pid, asid := e.asid, prio := e.prio, started := false, bad := bad, takenAt := s.tick }
  let s1 := writeWord s (weirOf p (q % 4) e.pid e.asid) (ph + 63) 1 0
  let s2 := writeNat s1 none (descAt s p q + 0x10) 4 ((e.hidx + 1) % 2 ^ 32)
  let w := getQueue s2 p q
  let desc := w.desc.toNat - dword w.desc.toNat 2 % 2 ^ 32 * 2 ^ 128 + (e.hidx + 1) % 2 ^ 32 * 2 ^ 128
  packetArrival (setQueue s2 p { w with pkts := w.pkts ++ [k], closing := false, desc := BitVec.ofNat 512 desc }) p q k e.headf.toNat false 0

/-- The dwords of a slot that hold an uncorrectable error. -/
def slotBad (s : State) (ph : Nat) : List Nat := (List.range 8).filter (fun i => poisoned s none (ph + 8 * i) 8)

/-- A line without some of its dwords. -/
def lineBut (x : Nat) (bad : List Nat) : Nat :=
  ((List.range 8).map (fun i => if bad.contains i then 0 else dword x i * 2 ^ (64 * i))).foldl (· + ·) 0

/-- What stands at the head of a ring: the packet to be taken, and its dwords that cannot be read. A STATE of 0x01 is published only where its home has
forwarded the line (R382), and the packet is what it forwarded; any other STATE but 0x00, and one that cannot be read, is taken as it stands, and is
malformed (R383). -/
def headPacket (s : State) (ph : Nat) : Option (Nat × List Nat) :=
  let bad := slotBad s ph
  if bad.contains 7 then some (slotBits s ph, bad)
  else match readNat s none (ph + 63) 1 with
    | 0 => none
    | 1 => (aGet s.lines ph).map (fun x => (lineBut x.toNat bad, bad))
    | _ => some (slotBits s ph, bad)

/-- The slot at the head of a queue, by its physical address, or the state in which the weir waits or finds that the queue's PID and ASID do not reach it. -/
def headSlot (s : State) (p q : Nat) (e : Desc) : State × Option Nat :=
  let w := weirOf p (q % 4) e.pid e.asid
  let a := dw (e.ring + 64 * (e.hidx % 2 ^ e.len))
  match engineWait s w (.weir (.head q e.hidx)) [(a, true)] with
  | .inl s1 => (s1, none)
  | .inr s => match xlate s w a true with
    | (s1, .at_ ph _ none _) => (s1, some ph)
    | (s1, _) => (s1, none)


/-- The packet at the head of a queue is taken if it is published and of a type that the event is about. A queue whose descriptor is
not VALID or breaks R379 is not served, nor is a slot that the queue's PID and ASID do not reach. DEDUCED: log entry 37. -/
def takePacket (s : State) (p q : Nat) (mine : Nat → Bool) : State :=
  match servedDesc s p q with
  | none => s
  | some e =>
    let x := descBits s p q
    let s0 := if (getQueue s p q).served || !descValid x then s else openQueue s p q x
    match headSlot s0 p q e with
    | (s1, none) => s1
    | (s1, some ph) => match headPacket s1 ph with
      | none => if (getQueue s1 p q).closing then setQueue s1 p { getQueue s1 p q with closing := false } else s1
      | some (x, bad) => if mine (dword x 7 / 2 ^ 48 % 2 ^ 8) then takeSlot s1 p q e ph x bad else s1

/-! ## Starting a packet (R383, R387) -/

/-- The STATE, TYPE and reserved bits of a packet are as R384 to R387 give, its flags aligned. DESIGN CHOICE: log entry 56. -/
def packetOk (x : Nat) : Bool :=
  let t := dword x 7
  let ty := t / 2 ^ 48 % 2 ^ 8
  decide (t / 2 ^ 56 = 1) && decide (1 ≤ ty) && decide (ty ≤ 6) && decide (t / 2 ^ 42 % 2 ^ 6 = 0) && (decide (t / 2 ^ 41 % 2 = 0) || decide (ty = 4)) &&
    decide (t / 2 ^ 32 % 2 ^ 8 = 0) && (decide (ty = 1) || decide (t / 2 ^ 16 % 2 ^ 16 = 0)) && decide (t % 2 ^ 16 = 0) &&
    (decide (ty = 6) || decide (dword x 6 % 8 = 0)) &&
    (match ty with
     | 1 => decide (dword x 5 / 2 ^ 46 % 4 = 0) && decide (dword x 5 / 2 ^ 37 % 2 = 0)
     | 2 => decide (dword x 4 < 512) && decide (dword x 5 = 0)
     | 3 => decide (dword x 2 = 0) && decide (dword x 4 < 512) && decide (dword x 5 = 0)
     | 4 => decide (dword x 1 = 0) && decide (dword x 2 = 0) && decide (dword x 4 < 512) && decide (dword x 5 = 0)
     | 5 => decide (dword x 0 % 8 = 0) && decide (dword x 1 < 2 ^ 32) && decide (x / 2 ^ 128 % 2 ^ 256 = 0)
     | _ => decide (dword x 0 % 8 = 0) && decide (dword x 1 = 0) && decide (x / 2 ^ 128 % 2 ^ 256 = 0) && decide (dword x 6 = 0))

/-- The packet that is to start next: the first that has not started. -/
def nextPacket (s : State) (p q : Nat) : Option Packet := (getQueue s p q).pkts.find? (fun k => !k.started)

/-- Every earlier packet has completed, where BARRIER or SIGNAL asks for it (R384, R387). -/
def barrierMet (s : State) (p q : Nat) (k : Packet) : Bool :=
  (!k.barrier && decide (k.type ≠ 6)) || decide (((getQueue s p q).pkts.head?).map (fun x => x.no) = some k.no)

/-- The frame of the packet events: the failure record of an operation that is over goes to REPORT; a malformed packet is refused with REASON 1, and one
whose trailing dword cannot be read, which tells nothing of its form, with REASON 9; one that may start starts, or is refused for the first of the
checks of R389 that its readable dwords fail; where none is waiting to start, one is taken. -/
def packetEvent (s : State) (p q : Nat) (mine : Nat → Bool) (start : State → Packet → State) : State :=
  match (getQueue s p q).pkts.findSome? (fun k => if mine k.type then k.report.map (fun r => (k, r)) else none) with
  | some (k, r) => writeReport s p q k r
  | none => match nextPacket s p q with
    | none => takePacket s p q mine
    | some k =>
      let x := k.bits.toNat
      if !mine k.type then s
      else if k.bad.contains 7 then refusePacket s p q k 9
      else if !packetOk x then refusePacket s p q k 1
      else if barrierMet s p q k then start s k else s

/-- KERNEL_PACKET (R383, R385): taken, with the unknown types; GRID_ADMISSION starts it. -/
def execKernelPacket (pkg q : Nat) (s : State) : Host.Outcome State Fault Refusal :=
  .next (packetEvent s pkg q (fun t => decide (t < 2) || decide (6 < t)) (fun s _ => s))

/-! ## Engine packets (R386) -/

/-- What a read of the weir for a packet came to. -/
inductive Got where
  | wait (s : State)
  | bad (s : State) (reason : Nat)
  | bytes (s : State) (x : Nat)

/-- n bytes of one page read for a packet; an uncorrectable error is REASON 9. -/
def weirRead (s : State) (w : Who) (rq : WeirReq) (a : Dword) (n reason : Nat) : Got :=
  match engineWait s w (.weir rq) [(a, false)] with
  | .inl s1 => .wait s1
  | .inr s => match judge s w a n .read with
    | (s1, .ok ph _) => .bytes s1 (leNat (readJudged s1 w a ph n))
    | (s1, .fail 7) => .bad s1 9
    | (s1, _) => .bad s1 reason

/-- A packet has started. -/
def startPacket (s : State) (p q : Nat) (k : Packet) : State := modPacket s p q k.no (fun x => { x with started := true })

/-- A packet whose check failed is refused, and the answers of REFUSE that its reads met are used up. -/
def refuseAfter (s : State) (p q : Nat) (k : Packet) (c : CoreId) (reason : Nat) : State :=
  dropRefused (refusePacket s p q k reason) c (.weir (.packet q k.no))

/-- The end of a packet that has passed the checks which its readable dwords allow, where some cannot be read (R389). -/
def tornPacket (s : State) (p q : Nat) (k : Packet) (c : CoreId) : State := refuseAfter s p q k c 9

/-- The frame of an engine packet: its cluster lies in the partition, its REPORT is aligned, and the 64 or 128 bytes at the aligned address of dword i are
read as the snapshot, which `own` may refuse by itself; then `go` makes the checks of the instruction and starts the operation, or gives none. Of a
packet with dwords that cannot be read the checks that need none of them come first (R389). DESIGN CHOICE: log entries 55, 56. -/
def enginePacket (s : State) (p q : Nat) (k : Packet) (i n : Nat) (own : Nat → Bool) (go : State → CoreId → Job → Nat → Option State ⊕ Got) : State :=
  let x := k.bits.toNat
  let a := dw (dword x i)
  let cl := dword x 4
  let c : CoreId := { pkg := p, n := 16 * cl }
  let w := weirWho c k.pid k.asid
  let job : Job := {
    who := w, flag := 0, tag := 0, note := false, packet := some (q, dw (dword x 3), k.no), failed := false, firstRec := none }
  if (!k.bad.contains 4 && !inReach s p k.pid (reachOfCluster cl)) || decide (dword x 3 % 8 ≠ 0) || decide (a.toNat % n ≠ 0) then refusePacket s p q k 7
  else if k.bad.contains 4 || k.bad.contains i then tornPacket s p q k c
  else match resolve c a with
    | none => refusePacket s p q k 7
    | some r => match weirRead s w (.packet q k.no) r n 7 with
      | .wait s1 => s1
      | .bad s1 reason => refuseAfter s1 p q k c reason
      | .bytes s1 b => if !own b then refuseAfter s1 p q k c 7
        else if k.bad.any (fun j => decide (j < 3)) then tornPacket s1 p q k c
        else match go s1 c job b with
        | .inl (some s2) => if k.bad = [] then startPacket s2 p q k else tornPacket s1 p q k c
        | .inl none => refuseAfter s1 p q k c 7
        | .inr (.wait s2) => s2
        | .inr (.bad s2 reason) => refuseAfter s2 p q k c reason
        | .inr (.bytes s2 _) => s2

/-- COPY_PACKET (R386): the copy engine of the named cluster's core position 0. A record with WT is refused. -/
def execCopyPacket (pkg q : Nat) (s : State) : Host.Outcome State Fault Refusal :=
  .next (packetEvent s pkg q (fun t => decide (t = 2)) (fun s k =>
    let x := k.bits.toNat
    enginePacket s pkg q k 0 64 (fun b => decide (layoutFlags b / 2 % 2 = 0)) (fun s c job b =>
      match copyCheck s c k.pid b (dw (dword x 1)) (dw (dword x 2)) 0 with
      | .inl _ => .inl none
      | .inr (d, r, _) =>
        let j : CopyJob := {
          id := s.itemSeq, job := { job with tag := layoutTag b }, core := c, rcd := BitVec.ofNat 512 b, dst := d, src := r, share := 0, domain := 0 }
        .inl (some { s with copies := s.copies ++ [j], itemSeq := s.itemSeq + 1 }))))

/-- BRAID_PACKET (R386): the collective engine of the named cluster. -/
def execBraidPacket (pkg q : Nat) (s : State) : Host.Outcome State Fault Refusal :=
  .next (packetEvent s pkg q (fun t => decide (t = 3)) (fun s k =>
    let x := k.bits.toNat
    let a := dw (dword x 0)
    enginePacket s pkg q k 1 128 (fun _ => true) (fun s c job b =>
      if a.toNat % 32 ≠ 0 then .inl none
      else match baseCheck s c k.pid a, baseLineCheck s c b with
        | .inr r, .inr f =>
          .inl (some (startRun s pkg (dword x 4) { job with flag := f, tag := b / 2 ^ (8 * 0x48) % 2 ^ 32 } r
            ((List.range 8).map (fun i => dw (dword b i))) false))
        | _, _ => .inl none)))

/-- AMP_PACKET (R386): the amplitude engine of the named cluster. -/
def execAmpPacket (pkg q : Nat) (s : State) : Host.Outcome State Fault Refusal :=
  .next (packetEvent s pkg q (fun t => decide (t = 4)) (fun s k =>
    let x := k.bits.toNat
    let perm := decide (dword x 7 / 2 ^ 41 % 2 = 1)
    enginePacket s pkg q k 0 64 (fun _ => true) (fun s c job b =>
      match ampAddrs s c k.pid perm b with
      | .inl _ => .inl none
      | .inr (qa, ua, f) =>
        let go := fun (s : State) (qr ur : Nat) =>
          if ampOk perm b qr ur then
            some (startAmp s pkg (dword x 4) { job with flag := f, tag := b / 2 ^ (8 * 0x38) % 2 ^ 32 } perm (ampBlock b qa ua f) qr ur)
          else none
        match weirRead s job.who (.packet q k.no) qa 64 7 with
        | .bytes s1 qr =>
          if perm then (match weirRead s1 job.who (.packet q k.no) ua 64 7 with
            | .bytes s2 ur => .inl (go s2 qr ur)
            | r => .inr r)
          else .inl (go s1 qr 0)
        | r => .inr r)))

/-! ## WAITFLAG and SIGNAL (R387) -/

/-- WAITFLAG_PACKET (R387): it has started only when it has completed. Where its flag has not reached its count, a watch is kept at the flag's home
(R249). A flag that the queue cannot reach refuses it. DESIGN CHOICE: log entry 56. -/
def execWaitflagPacket (pkg q : Nat) (s : State) : Host.Outcome State Fault Refusal :=
  .next (packetEvent s pkg q (fun t => decide (t = 5)) (fun s k =>
    let x := k.bits.toNat
    let w := packetWho pkg q k
    if k.met then completePacket s pkg q k.no false
    else if k.bad.contains 0 then tornPacket s pkg q k w.core
    else match weirRead s w (.packet q k.no) (dw (dword x 0)) 8 1 with
    | .wait s1 => s1
    | .bad s1 reason => refuseAfter s1 pkg q k w.core reason
    | .bytes s1 v =>
      if k.bad ≠ [] then tornPacket s1 pkg q k w.core
      else if reached v (dword x 1) then completePacket s1 pkg q k.no false
      else modPacket s1 pkg q k.no (fun k => { k with watching := true })))

/-- The arrival of a SIGNAL is on its way. -/
def signalSent (s : State) (p q : Nat) (k : Packet) : Bool :=
  s.arrivals.any (fun a => decide (a.who = packetWho p q k ∧ a.kind = 0 ∧ a.addr = dw q ∧ a.tag = k.no + 1))

/-- SIGNAL_PACKET (R387): one arrival on G, with INC where an earlier packet of the queue failed or was refused; it completes when the
arrival has been made. DESIGN CHOICE: log entry 56. -/
def execSignalPacket (pkg q : Nat) (s : State) : Host.Outcome State Fault Refusal :=
  match (getQueue s pkg q).pkts.find? (fun k => k.started && decide (k.type = 6)) with
  | some k => .next (if signalSent s pkg q k then s else completePacket s pkg q k.no false)
  | none => .next (packetEvent s pkg q (fun t => decide (t = 6)) (fun s k =>
      if k.bad ≠ [] then refusePacket s pkg q k 9 else packetArrival (startPacket s pkg q k) pkg q k (dword k.bits.toNat 0) (getQueue s pkg q).failed (k.no + 1)))

/-! ## Descriptors (R380) -/

/-- A queue's VALID has been cleared: the packet at the head of the ring that the weir served is still taken where it was published before the weir heard
of it (R380, R398). While its slot's page is absent, the weir's request waits there. -/
def closeQueue (s : State) (p q : Nat) : State :=
  let k := getQueue s p q
  if k.served then takePacket (setQueue s p { k with served := false, closing := true }) p q (fun _ => true) else s

/-- DESCRIPTOR_NOTIFICATION (R380): the lead weir reads a descriptor that was written; a VALID one that breaks R379 is reported, with
REASON 1 and TYPE 0. -/
def execDescriptorNotification (pkg q : Nat) (s : State) : Host.Outcome State Fault Refusal :=
  if !(getPkg s pkg).descs.contains q then .next s
  else
    let x := descBits s pkg q
    let pid := dword x 7 / 2 ^ 56 % 16
    let s1 := modPkg s pkg (fun k => { k with descs := k.descs.filter (· ≠ q) })
    if !descValid x then .next (closeQueue s1 pkg q)
    else if (descOf x).isNone then
      (if noteRoom s pkg pid (weirSender (q % 4)) then .next (refusalMessage s1 pkg q pid 1 0 (dword x 2)) else .next s)
    else .next (openQueue s1 pkg q x)

end Sys2Proof.Machine
end

