-- ==== Sys2Proof/Machine/Launch.lean ====
section
/-!
DEFINITION. Launching grids: kernel headers (R166 to R168), where groups may be placed (R36, R37, R40, R345, R390), and their threads (R38, R69).
-/
namespace Sys2Proof.Machine

/-! ## Kernel headers (R34, R36, R166 to R168) -/

/-- n bytes at an offset. -/
def bytesAt (x off n : Nat) : Nat := x / 2 ^ (8 * off) % 2 ^ (8 * n)

/-- The fields of a header; D and S rounded up to a multiple of 128 (R36). -/
def headerOf (x : Nat) : Header :=
  let fl := bytesAt x 6 2
  {
    net := decide (fl % 2 = 1), reel := decide (fl / 2 % 2 = 1), conf := decide (fl / 4 % 2 = 1), coloc := decide (fl / 8 % 2 = 1), g := bytesAt x 8 1,
    v := bytesAt x 9 1, a := bytesAt x 10 1, roles := bytesAt x 11 1, spad := roundUp (bytesAt x 12 4) 128, stack := roundUp (bytesAt x 16 2) 128,
    pool := bytesAt x 20 4, trapen := bytesAt x 24 4, trapvec := bytesAt x 28 4, entry := bytesAt x 32 4, baseSize := bytesAt x 36 4,
    segtab := bytesAt x 40 4, segcount := bytesAt x 44 2, segs := [] }

/-- The allotments of R34. -/
def allotOk (h : Header) : Bool :=
  decide (8 ≤ h.g) && decide (h.g ≤ 64) && decide (h.g % 8 = 0) && decide (h.v ≤ 32) && decide (h.v % 4 = 0) && decide (h.a ≤ 8)

/-- A header is valid (R166, R167). R167's list does not name POOL, so that one which is not a multiple of 128 is taken as it stands.
DESIGN CHOICE: log entry 77. DEDUCED: log entry 57. -/
def headerOk (x : Nat) : Bool :=
  let h := headerOf x
  decide (bytesAt x 0 4 = 0x4B39584C) && decide (bytesAt x 5 1 = 1) && decide (bytesAt x 6 2 < 16) && allotOk h && (!h.net || decide (h.g = 64)) &&
    decide (h.roles ≤ 4) && (h.net || decide (h.roles = 0)) && decide (h.stack ≤ 32768) && decide (bytesAt x 18 2 = 0) &&
    decide (h.spad + h.stack ≤ 2 ^ 19) && decide (h.trapen < 128) && decide (h.baseSize % 64 = 0) && decide (h.baseSize ≤ 0x20000) &&
    decide (h.entry % 2 = 0) && decide (h.entry < h.baseSize) &&
    (if h.trapen = 0 then decide (h.trapvec = 0) else decide (h.trapvec % 2 = 0) && decide (h.trapvec < h.baseSize)) &&
    (decide (h.segtab = 0) || decide (h.segtab = 0x40 + h.baseSize)) && decide (h.segcount ≤ 255) && decide (bytesAt x 46 18 = 0)

/-- SEG, LOAD, SIZE and IMAGE of a segment-table entry (R168). DEDUCED: log entry 57. -/
def segEntry (b : Nat) : Nat × Nat × Nat × Nat := (bytesAt b 0 2, bytesAt b 4 4, bytesAt b 8 4, bytesAt b 12 4)

/-- What the read of a header came to: `torn` where an uncorrectable error stands in it, or in the segment table of a header that was read. -/
inductive HdrGot where
  | wait (s : State)
  | bad (s : State)
  | torn (s : State) (h : Option Header)
  | ok (s : State) (h : Header)

/-- The header and its segment table read at admission: REASON 2 where invalid or unreadable. Of a table entry R167 asks only that it lie within
instruction memory: a SEG of 0 or one that is repeated (the first is used), a nonzero reserved half, and a LOAD or SIZE that is not a multiple of 64
are taken as they stand. DESIGN CHOICE: log entry 77. DEDUCED: log entry 57. -/
def readHeader (s : State) (w : Who) (rq : WeirReq) (a : Dword) : HdrGot :=
  match weirRead s w rq a 64 2 with
  | .wait s1 => .wait s1
  | .bad s1 r => if r = 9 then .torn s1 none else .bad s1
  | .bytes s1 x =>
    let h := headerOf x
    if !headerOk x then .bad s1
    else if h.segtab = 0 then .ok s1 h
    else
      let parts := (List.range h.segcount).map (fun i => (a + dw (h.segtab + 16 * i), 16))
      match engineWait s1 w (.weir rq) (parts.map (fun p => (p.1, false))) with
      | .inl s2 => .wait s2
      | .inr s1 => match engineRead s1 w (.weir rq) parts with
        | (s2, .inr e) => if e.1 = 3 then .torn s2 (some h) else .bad s2
        | (s2, .inl bs) =>
          let segs := bs.map (fun b => segEntry (leNat b))
          if segs.all (fun e => decide (e.2.1 + e.2.2.1 ≤ 0x20000)) then .ok s2 { h with segs := segs } else .bad s2

/-! ## A crew's place on a core (R36, R37, R64, R390) -/

/-- Where a crew goes: its core, its crew index, its slots in thread order. -/
structure Spot where
  core : Nat
  crew : Nat
  slots : List Nat
deriving DecidableEq, Repr, Inhabited

/-- A grid that is placed all at once (R45). -/
def coResGrid (g : Grid) : Bool := g.coloc || g.hdr.net

/-- The crew indices of a grid that are in use on a core: of its groups, its threads, and its crews and threads off the core. -/
def usedCrews (s : State) (p gs n : Nat) : List Nat :=
  let k := getCore s { pkg := p, n := n }
  let placed := match getGrid s p gs with
    | some g => g.groups.flatMap (fun r => (r.crews.filter (fun x => decide (x.core = n))).map (fun x => x.crew))
    | none => []
  placed ++ k.slots.toList.filterMap (fun o => o.map (fun t => t.crew)) ++
    (s.redirects.filter (fun r => decide (r.pkg = p ∧ r.core = n ∧ r.gslot = gs))).map (fun r => r.crew) ++
    ((getPkg s p).trapImgs.filter (fun t => decide (t.core = n ∧ t.gslot = gs))).map (fun t => t.crew)

/-- The lowest free crew index. -/
def lowestCrew (used : List Nat) : Nat := ((List.range (used.length + 1)).find? (fun c => !used.contains c)).getD used.length

/-- A core holds no thread. -/
def noThreads (k : Core) : Bool := k.slots.toList.all (fun o => o.isNone)

/-- The grid that a core is reserved for (R390). -/
def reservedFor (s : State) (p n : Nat) : Option Nat :=
  (List.range 255).find? (fun gs => match getGrid s p gs with
    | some g => g.reserved.contains n
    | none => false)

/-- Where the grid's pool region in a cluster is, or would be placed (R37). -/
def poolPlace (s : State) (p gs cl : Nat) (g : Grid) : Option Nat :=
  match g.pools.find? (fun x => decide (x.1 = cl)) with
  | some x => some x.2
  | none =>
    let others := (List.range 255).flatMap (fun i => if i = gs then [] else match getGrid s p i with
      | some y => (y.pools.filter (fun x => decide (x.1 = cl))).map (fun x => (x.2, y.hdr.pool))
      | none => [])
    let heap := heapOf s p g.pid
    lowestFit (if heap.2 = 0 then others else (64 * heap.1, 64 * heap.2) :: others) g.hdr.pool 0x3FC000 128

/-- A core takes a crew of the grid (R390); retention does not count against it (R452). DEDUCED: log entry 58. -/
def spotOn (s : State) (p gs : Nat) (g : Grid) (n : Nat) : Option Spot :=
  let k := getCore s { pkg := p, n := n }
  let h := g.hdr
  let c := lowestCrew (usedCrews s p gs n)
  let cap := slotCapacity h
  let free := (List.range cap).filter (fun i => ((k.slots[i]?).join).isNone)
  let mine := decide (k.tenancy = some gs)
  let ours := match reservedFor s p n with
    | some x => decide (x = gs)
    | none => true
  if (mine || noThreads k) && ours && decide ((c + 1) * h.spad + cap * h.stack ≤ 2 ^ 19) && decide (g.crew ≤ free.length) &&
      (!h.reel || !mine || k.reel.toList.all (fun r => r.owner.isNone)) && (decide (h.pool = 0) || (poolPlace s p gs (clusterOf n) g).isSome) then
    some { core := n, crew := c, slots := free.take g.crew }
  else none

/-! ## Core sets (R40, R167, R390) -/

/-- Groups placed together: a run of ROLES, or one. -/
def unitLen (g : Grid) (first : Nat) : Nat := if 2 ≤ g.hdr.roles ∧ g.level < 2 then Nat.min g.hdr.roles (g.gcount - first) else 1

/-- The core sets of a die for a unit, in ascending core number. -/
def dieSets (s : State) (p : Nat) (g : Grid) (len d : Nat) : List (List Nat) :=
  match g.level with
  | 2 => ((List.range 128).map (fun i => 128 * d + i)).filterMap (fun k =>
      if inReach s p g.pid (reachOfCluster k) then some ((List.range 16).map (fun i => 16 * k + i)) else none)
  | 3 => ((List.range 4).map (fun i => 4 * d + i)).filterMap (fun r =>
      if inReach s p g.pid r then some ((List.range 512).map (fun i => 512 * r + i)) else none)
  | _ => ((List.range 2048).map (fun i => 2048 * d + i)).filterMap (fun n =>
      let l := if meshCol n % 32 + len ≤ 32 then (List.range len).map (fun i => coreAt (meshRow n) (meshCol n + i)) else []
      if l ≠ [] ∧ l.all (coreIn s p g.pid) = true then some l else none)

/-- Sets whose cores are the grid's already come first. -/
def prefer (s : State) (p gs : Nat) (l : List (List Nat)) : List (List Nat) :=
  let mine := fun (x : List Nat) => x.all (fun n => decide ((getCore s { pkg := p, n := n }).tenancy = some gs))
  l.filter mine ++ l.filter (fun x => !mine x)

/-- A place on every core of a set. -/
def spotsOn (s : State) (p gs : Nat) (g : Grid) : List Nat → Option (List Spot)
  | [] => some []
  | n :: l => match spotOn s p gs g n with
    | some x => (spotsOn s p gs g l).map (fun y => x :: y)
    | none => none

/-- Where the weir of a die would place the grid's next unit. DEDUCED: log entry 58. -/
def findSet (s : State) (p gs : Nat) (g : Grid) (d : Nat) : Option (List Spot) :=
  (prefer s p gs (dieSets s p g (unitLen g g.next) d)).findSome? (spotsOn s p gs g)

/-- The dies in the order in which the next index is offered (R390). DEDUCED: log entry 58. -/
def offerOrder (last : Nat) : List Nat := (List.range 4).map (fun i => (last + 1 + i) % 4)

/-- The weir that places the grid's next unit, and where. -/
def offer (s : State) (p gs : Nat) (g : Grid) : Option (Nat × List Spot) :=
  (offerOrder g.lastDie).findSome? (fun d => (findSet s p gs g d).map (fun x => (d, x)))

/-! ## Weight (R69) -/

/-- What a borrow of a weir came to. -/
inductive Lent where
  | took (s : State) (amount : Nat)
  | short (s : State)
  | wait (s : State)

/-- A borrow from the domain's root (R71); a root that cannot be reached lends nothing. -/
def weirBorrow (s : State) (w : Who) (rq : WeirReq) (domain : Nat) : Lent :=
  match rootOf s w.core.pkg w.pid domain with
  | none => .short s
  | some (a, _) => match engineWait s w (.weir rq) [(a, true)] with
    | .inl s1 => .wait s1
    | .inr s => match borrow s w domain with
      | .took s1 n => .took s1 n
      | _ => .short (dropRefused s w.core (.weir rq))

/-- Borrows until the reserve keeps at least 1 after a unit's shares. DESIGN CHOICE: log entry 30. -/
def topUp (p gs need : Nat) (w : Who) : Nat → State → Lent
  | 0, s => .short s
  | n + 1, s => match getGrid s p gs with
    | none => .short s
    | some g =>
      if g.domain = 0 ∨ need < g.reserve then .took s 0
      else match weirBorrow s w (.grid gs) g.domain with
        | .took s1 a => topUp p gs need w n (modGrid s1 p gs (fun g => { g with reserve := g.reserve + a }))
        | r => r

/-- A weight-exhausted grid fault (R69, R389): later indices are cancelled. While the notification queue is full it waits. DESIGN CHOICE: log entry 60. -/
def faultGrid (s : State) (p gs : Nat) : State :=
  match getGrid s p gs with
  | none => s
  | some g =>
    if noteRoom s p g.pid (weirSender (g.queue % 4)) then
      refusalMessage (modGrid s p gs (fun g => { g with st := .faulted, failed := true })) p g.queue g.pid 8 1 g.index
    else s

/-! ## Turns (R392) -/

/-- Priority as the weirs count it. -/
def rank (g : Grid) : Nat := if g.raised then 3 else g.prio

/-- The entry of the rotation for a grid on a die: among restores, or among placements. -/
def turnAt (d : Nat) (g : Grid) (placing : Bool) : Nat := 8 * d + 2 * rank g + placing.toNat

/-- A grid has had its turn on a die. -/
def tookTurn (s : State) (p d gs : Nat) (g : Grid) (placing : Bool) : State :=
  modPkg s p (fun k => { k with lastGrid := k.lastGrid.setIfInBounds (turnAt d g placing) gs })

/-! ## Placing (R32, R37, R38, R64, R390, R391) -/

/-- The base segment's bytes for the cores that must load it; REASON stands for no more than a failure. -/
inductive Code where
  | wait (s : State)
  | bad (s : State) (a : Dword)
  | code (s : State) (bs : List Byte)

/-- DEDUCED: log entry 57. -/
def baseCode (s : State) (p d gs : Nat) (g : Grid) (cores : List Nat) : Code :=
  let need := cores.any (fun n => let k := getCore s { pkg := p, n := n }; decide (k.tenancy ≠ some gs) && decide (k.base ≠ some (g.khdr, g.hdr.baseSize)))
  if !need then .code s []
  else
    let w := weirOf p d g.pid g.asid
    let parts := sectorParts g.hdr.baseSize (dw (g.khdr + 0x40)) g.hdr.baseSize
    let rq : Req := .weir (.grid gs)
    match engineWait s w rq (parts.map (fun x => (x.1, false))) with
    | .inl s1 => .wait s1
    | .inr s => match engineRead s w rq parts with
      | (s1, .inr e) => .bad (dropRefused s1 w.core rq) e.2
      | (s1, .inl bs) => .code s1 (bs.flatMap id)

/-- A core made ready for the grid: the base segment, then the tenancy change (R33, R391). A restore onto a core that the grid's own eviction has left free,
with no other grid between, is a tenancy change too. DESIGN CHOICE: log entry 81. -/
def readyCore (s : State) (p gs : Nat) (g : Grid) (bs : List Byte) (n : Nat) : State :=
  let c : CoreId := { pkg := p, n := n }
  let k := getCore s c
  if k.tenancy = some gs then s
  else
    let s1 := if k.base = some (g.khdr, g.hdr.baseSize) then s else loadBase s c g.khdr g.hdr.baseSize bs
    changeTenancy s1 c (some gs)

/-- The grid's pool region in a cluster, allocated and zeroed (R37). -/
def readyPool (s : State) (p gs cl : Nat) : State :=
  match getGrid s p gs with
  | none => s
  | some g =>
    if g.hdr.pool = 0 ∨ g.pools.any (fun x => decide (x.1 = cl)) = true then s
    else match poolPlace s p gs cl g with
      | none => s
      | some off =>
        let lo := p * 2 ^ 48 + poolBase cl + off
        let hi := lo + g.hdr.pool
        let s1 := { s with mem := memForget s.mem lo hi, poison := s.poison.filter (fun a => decide (a < lo) || decide (hi ≤ a)) }
        modGrid s1 p gs (fun g => { g with pools := g.pools ++ [(cl, off)] })

/-- A crew of a group started: its threads, and at cluster or reach level with REEL the units of its core (R38, R64). -/
def startCrew (s : State) (p gs : Nat) (g : Grid) (index : Nat) (x : Spot) : State :=
  let c : CoreId := { pkg := p, n := x.core }
  let share := if g.domain = 0 then 0 else 2 ^ g.wexp
  let s1 := (x.slots.zip (List.range x.slots.length)).foldl (fun s y =>
    incLive (setT s c y.1 (some (newThread g gs y.1 0 g.hdr.entry g.args (dataBase g.hdr x.crew) share g.domain index y.2 x.crew g.prio))) p (some gs)) s
  if g.hdr.reel ∧ 2 ≤ g.level then
    modCore s1 c (fun k => { k with reel := k.reel.map (fun r => { Reel.reset with owner := some x.crew, era := r.era + 1 }) })
  else s1

/-- One group placed (R41). -/
def startGroup (s : State) (p gs : Nat) (spots : List Spot) : State :=
  match getGrid s p gs with
  | none => s
  | some g =>
    let s1 := spots.foldl (fun s x => startCrew s p gs g g.next x) s
    let share := if g.domain = 0 then 0 else 2 ^ g.wexp * (spots.length * g.crew)
    let grp : Group := {
      index := g.next, crews := spots.map (fun x => { core := x.core, crew := x.crew, live := g.crew, slots := x.slots }), out := false, alloc := none,
      since := s.clock, leftAt := 0, restorable := false }
    modGrid s1 p gs (fun g => { g with
      reserve := g.reserve - share, groups := g.groups ++ [grp], next := g.next + 1, pendSince := s.clock, raised := false
      st := if g.next + 1 = g.gcount then .draining else g.st })

/-- The clusters of a list of cores that are not awake are told to wake (R452). -/
def asleepOf (s : State) (p : Nat) (cores : List Nat) : List Nat :=
  (cores.map clusterOf).eraseDups.filter (fun k => !isAwake (getHub s p k).ret)

/-- A unit placed by the weir of a die: it waits for clusters, for the base segment's pages, or faults the grid where its shares cannot be borrowed. DEDUCED: log entry 58. -/
def placeUnit (s : State) (p gs d : Nat) (spots : List Spot) : State :=
  match getGrid s p gs with
  | none => s
  | some g =>
    let cores := spots.map (fun x => x.core)
    let asleep := asleepOf s p cores
    if g.st ≠ .running then s
    else if asleep ≠ [] then asleep.foldl (fun s k => wakeCluster s p k) s
    else match baseCode s p d gs g cores with
      | .wait s1 => s1
      | .bad s1 a => reportErr s1 p (weirHub d) (errEntry 3 1 (weirHub d) (cores.headD 0) 1 a.toNat 0)
      | .code s1 bs => match topUp p gs (2 ^ g.wexp * (spots.length * g.crew)) (weirOf p d g.pid g.asid) 64 s1 with
        | .wait s2 => s2
        | .short s2 => faultGrid s2 p gs
        | .took s2 _ =>
          let s3 := cores.foldl (fun s n => readyCore s p gs g bs n) s2
          let s4 := (cores.map clusterOf).eraseDups.foldl (fun s k => readyPool s p gs k) s3
          let groups := if g.level < 2 then spots.map (fun x => [x]) else [spots]
          let s5 := groups.foldl (fun s l => startGroup s p gs l) s4
          tookTurn (modGrid s5 p gs (fun g => { g with lastDie := d })) p d gs g true

end Sys2Proof.Machine
end

