-- ==== Sys2Proof/Machine/Admission.lean ====
section
/-!
DEFINITION. Admission of grids and their completion (spec/16, R385, R388 to R390).
-/
namespace Sys2Proof.Machine

/-! ## The checks of R389 -/

def countOnes (m : Nat) : Nat := ((List.range 16).filter (fun r => decide (m / 2 ^ r % 2 = 1))).length

/-- The groups of a co-resident grid, each on cores of its own (R45, R345), fit the partition's cores. DESIGN CHOICE: log entry 61. -/
def fitsAtOnce (s : State) (p pid : Nat) (h : Header) (level gcount : Nat) : Bool :=
  let r := countOnes (reaches s p pid)
  decide (h.spad + slotCapacity h * h.stack ≤ 2 ^ 19) &&
    (match level with
     | 2 => decide (gcount ≤ 32 * r)
     | 3 => decide (gcount ≤ r)
     | _ =>
       if 2 ≤ h.roles then
         let full := gcount / h.roles
         let cap := 16 * (32 / h.roles) * r
         let part := gcount % h.roles
         decide (full < cap) || (decide (full = cap) && decide (part ≤ 32 % h.roles) && (decide (part = 0) || decide (0 < r)))
       else decide (gcount ≤ 512 * r))

/-- The fields of a KERNEL packet (R385). -/
structure KFields where
  khdr : Nat
  args : List Dword
  domain : Nat
  wexp : Nat
  level : Nat
  coloc : Bool
  crew : Nat
  gcount : Nat
  kernel : Nat
deriving DecidableEq, Repr, Inhabited

def kFields (x : Nat) : KFields :=
  let f := dword x 5
  {
    khdr := dword x 0, args := (List.range 4).map (fun i => dw (dword x (1 + i))), domain := f / 2 ^ 48, wexp := f / 2 ^ 40 % 2 ^ 6,
    level := f / 2 ^ 38 % 4, coloc := decide (f / 2 ^ 36 % 2 = 1), crew := f / 2 ^ 32 % 16 + 1, gcount := f % 2 ^ 32,
    kernel := dword x 7 / 2 ^ 16 % 2 ^ 16 }

/-- A field outside R385, whatever the header. DESIGN CHOICE: log entry 56. -/
def badField (f : KFields) : Bool := decide (f.khdr % 64 ≠ 0 ∨ f.gcount = 0 ∨ 62 < f.wexp ∨ (f.level = 0 ∧ f.crew ≠ 1))

/-- The REASON of the first check that fails after the header's own; 0 for none. DESIGN CHOICE: log entry 56. -/
def admitReason (s : State) (p pid : Nat) (f : KFields) (h : Header) : Nat :=
  if badField f = true ∨ slotCapacity h < f.crew ∨ (2 ≤ h.roles ∧ 2 ≤ f.level) then 3
  else if (h.conf = true ∧ f.domain = 0) ∨ (f.domain ≠ 0 ∧ (rootOf s p pid f.domain).isNone = true) then 4
  else if (f.coloc || h.coloc || h.net) && !fitsAtOnce s p pid h f.level f.gcount then 5
  else if h.reel = true ∧ f.level < 2 then 6
  else 0

/-- The root of a domain holds less than 2, so that a borrow would find it exhausted (R71). -/
def rootLow (s : State) (w : Who) (domain : Nat) : Bool :=
  match rootOf s w.core.pkg w.pid domain with
  | some (a, _) => (match judge s w a 8 .read with
    | (s1, .ok ph _) => decide (leNat (readJudged s1 w a ph 8) < 2)
    | _ => false)
  | none => false

/-- The REASON where the packet, the header or its table cannot be read for an uncorrectable error: that of the first check of the table that can be made
without what is not read, else 9 (R389). `fields` is false where the packet's dword of fields is not read. DESIGN CHOICE: log entry 56. -/
def tornReason (s : State) (w : Who) (f : KFields) (fields : Bool) (h : Option Header) : Nat :=
  let r := if !fields then (if f.khdr % 64 ≠ 0 then 3 else 0)
    else match h with
    | some h => admitReason s w.core.pkg w.pid f h
    | none => if badField f then 3 else if f.domain ≠ 0 ∧ (rootOf s w.core.pkg w.pid f.domain).isNone = true then 4 else 0
  if r ≠ 0 then r else if fields ∧ rootLow s w f.domain = true then 8 else 9

/-! ## The grid table (R388) -/

def freeGslot (s : State) (p : Nat) : Option Nat := (List.range 255).find? (fun g => (getGrid s p g).isNone)

def putGrid (s : State) (p gs : Nat) (g : Option Grid) : State := modPkg s p (fun k => { k with grids := k.grids.setIfInBounds gs g })

/-- A grid as its packet and header give it. -/
def newGrid (s : State) (q : Nat) (k : Packet) (f : KFields) (h : Header) (st : GridSt) (reserve : Nat) : Grid :=
  {
    st := st, before := st, pid := k.pid, asid := k.asid, prio := k.prio, queue := q, index := k.index, packet := k.no, khdr := f.khdr, hdr := h, args := f.args,
    domain := f.domain, wexp := f.wexp, level := f.level, coloc := f.coloc || h.coloc, crew := f.crew, gcount := f.gcount, next := 0, done := 0,
    kernel := f.kernel, reserve := reserve, live := 0, groups := [], failed := false, pools := [], lastDie := 3, pendSince := s.clock,
    raised := false, reserved := [], takenAt := k.takenAt }

/-! ## Co-resident grids (R45, R390) -/

/-- Every unit's die and place, each on cores that no earlier one takes; none where one has none. DESIGN CHOICE: log entry 61. -/
def planFrom (s : State) (p gs : Nat) (g : Grid) : Nat → Nat → Nat → List Nat → Option (List (Nat × List Spot))
  | 0, _, _, _ => some []
  | n + 1, next, last, taken =>
    if g.gcount ≤ next then some []
    else
      let len := unitLen g next
      let at_ := fun (d : Nat) =>
        (prefer s p gs ((dieSets s p g len d).filter (fun l => l.all (fun n => !taken.contains n)))).findSome? (spotsOn s p gs g)
      match (offerOrder last).findSome? (fun d => (at_ d).map (fun x => (d, x))) with
      | none => none
      | some (d, x) => (planFrom s p gs g n (next + len) d (taken ++ x.map (fun y => y.core))).map (fun l => (d, x) :: l)

/-- DEDUCED: log entry 58. -/
def planAll (s : State) (p gs : Nat) (g : Grid) : Option (List (Nat × List Spot)) := planFrom s p gs g 8192 0 g.lastDie []

/-- The cores of the sets that a waiting grid's groups will occupy (R390), no two sets with a core in common: for each unit the first set, in the
weirs' preference, that has a core reserved, else the first with a free core. DESIGN CHOICE: log entry 61. -/
def reserveFrom (s : State) (p gs : Nat) (g : Grid) (free : Nat → Bool) : Nat → Nat → List Nat → List Nat
  | 0, _, taken => taken
  | n + 1, next, taken =>
    if g.gcount ≤ next then taken
    else
      let len := unitLen g next
      let sets := ((List.range 4).flatMap (fun d => prefer s p gs (dieSets s p g len d))).filter (fun l => l.all (fun n => !taken.contains n))
      match (sets.find? (fun l => l.any g.reserved.contains)).or (sets.find? (fun l => l.any free)) with
      | none => taken
      | some l => reserveFrom s p gs g free n (next + len) (taken ++ l)

/-- The cores that a waiting grid holds: those of its sets that are free for it. -/
def reserveFor (s : State) (p gs : Nat) (g : Grid) : List Nat :=
  let free := fun (n : Nat) => (spotOn s p gs g n).isSome
  (reserveFrom s p gs g free 8192 0 []).filter free

/-- In each partition the earliest-taken of the waiting co-resident grids reserves, and no other (R390). DESIGN CHOICE: log entry 61. -/
def updateReserve (s : State) (p : Nat) : State :=
  let waiting := (List.range 255).filterMap (fun gs => match getGrid s p gs with
    | some g => if g.st = .waiting then some (gs, g) else none
    | none => none)
  waiting.foldl (fun s x =>
    let first := waiting.all (fun y => decide (y.2.pid ≠ x.2.pid) || decide (x.2.takenAt ≤ y.2.takenAt))
    modGrid s p x.1 (fun g => { g with reserved := if first then reserveFor s p x.1 g else [] })) s

/-- A co-resident grid placed all at once, if every group fits: its reserve is drawn, its packet has started. -/
def admitAll (s : State) (p q : Nat) (k : Packet) (gs : Nat) : State :=
  match getGrid s p gs with
  | none => s
  | some g => match planAll s p gs g with
    | none => s
    | some plan =>
      let cores := plan.flatMap (fun x => x.2.map (fun y => y.core))
      let asleep := asleepOf s p cores
      let w := packetWho p q k
      if asleep ≠ [] then asleep.foldl (fun s k => wakeCluster s p k) s
      else match baseCode s p (q % 4) gs g cores with
        | .wait s1 => s1
        | .bad s1 a => reportErr s1 p (weirHub (q % 4)) (errEntry 3 1 (weirHub (q % 4)) (cores.headD 0) 1 a.toNat 0)
        | .code s1 _ =>
          let go := fun (s : State) (n : Nat) =>
            let s2 := startPacket (modGrid s p gs (fun g => { g with st := .running, before := .running, reserve := n, reserved := [] })) p q k
            plan.foldl (fun s x => placeUnit s p gs x.1 x.2) s2
          if g.domain = 0 then go s1 0
          else match weirBorrow s1 w (.packet q k.no) g.domain with
            | .wait s2 => s2
            | .short s2 => if noteRoom s2 p k.pid (weirSender (q % 4)) then putGrid (refusePacket s2 p q k 8) p gs none else s2
            | .took s2 n => go s2 n

/-! ## Admission (R388, R389) -/

/-- The entry of a packet's waiting grid. -/
def waitingSlot (s : State) (p q : Nat) (k : Packet) : Option Nat :=
  (List.range 255).find? (fun gs => match getGrid s p gs with
    | some g => decide (g.queue = q ∧ g.packet = k.no ∧ g.st = .waiting)
    | none => false)

/-- The address space 0xFFFF is not open to grids (R357). -/
def closedAsid : Nat := 0xFFFF

/-- A KERNEL packet admitted, refused, or left waiting. One of a queue whose ASID no grid may have is refused with REASON 1. DESIGN CHOICE: log entry 55. -/
def admitGrid (s : State) (p q : Nat) (k : Packet) : State :=
  match waitingSlot s p q k with
  | some gs => admitAll s p q k gs
  | none =>
    if k.asid = closedAsid then refusePacket s p q k 1
    else
      let f := kFields k.bits.toNat
      let w := packetWho p q k
      let rq : WeirReq := .packet q k.no
      let fields := !k.bad.contains 5
      if k.bad.contains 0 then refusePacket s p q k (tornReason s w f fields none)
      else match readHeader s w rq (dw f.khdr) with
      | .wait s1 => s1
      | .bad s1 => refuseAfter s1 p q k w.core 2
      | .torn s1 h => refuseAfter s1 p q k w.core (tornReason s1 w f fields h)
      | .ok s1 h =>
        let reason := if k.bad = [] then admitReason s1 p k.pid f h else tornReason s1 w f fields (some h)
        if reason ≠ 0 then refuseAfter s1 p q k w.core reason
        else match freeGslot s1 p with
          | none => s1
          | some gs =>
            if f.coloc || h.coloc || h.net then admitAll (updateReserve (putGrid s1 p gs (some (newGrid s1 q k f h .waiting 0))) p) p q k gs
            else if f.domain = 0 then startPacket (putGrid s1 p gs (some (newGrid s1 q k f h .running 0))) p q k
            else match weirBorrow s1 w rq f.domain with
              | .wait s2 => s2
              | .short s2 => refuseAfter s2 p q k w.core 8
              | .took s2 n => startPacket (putGrid s2 p gs (some (newGrid s2 q k f h .running n))) p q k

/-- GRID_ADMISSION (R388 to R390): the queue's next packet, where it is a KERNEL packet that may start. -/
def execGridAdmission (pkg q : Nat) (s : State) : Host.Outcome State Fault Refusal :=
  match nextPacket s pkg q with
  | none => .next s
  | some k =>
    if k.type = 1 ∧ packetOk k.bits.toNat = true ∧ barrierMet s pkg q k = true then .next (admitGrid (updateReserve s pkg) pkg q k)
    else .next s

/-! ## Completion (R44, R69, R385) -/

/-- Every item, copy, command and engine operation that the grid's threads issued has made its arrival or reported failure (R385). An arrival of
`arm.inc` is none of theirs. -/
def gridQuiet (s : State) (p gs : Nat) : Bool :=
  let mine := fun (w : Who) => decide (w.core.pkg = p ∧ w.gslot = some gs)
  !s.items.any (fun x => mine x.who) && !s.arrivals.any (fun x => decide (x.kind ≠ 0) && mine x.who) && !s.copies.any (fun x => mine x.job.who) &&
    !s.remotes.any (fun x => mine x.who) &&
    s.cores.all (fun ck => !ck.2.mq.any (fun m => mine m.who) && !ck.2.loads.any (fun l => match l.who with | some w => mine w | none => false)) &&
    s.hubs.all (fun h => !h.2.amps.any (fun x => mine x.job.who) && !h.2.runs.any (fun x => mine x.job.who))

/-- A grid has completed (R44): every index issued or cancelled, every group complete, no thread, image or record left. -/
def gridComplete (g : Grid) : Bool :=
  (match g.st with | .running | .draining | .faulted => true | _ => false) && g.groups.isEmpty && decide (g.live = 0) &&
    (decide (g.st = .faulted) || decide (g.next = g.gcount))

/-- The entry of a completed grid is free; its cores are no grid's. -/
def freeGrid (s : State) (p gs : Nat) : State :=
  let s1 := putGrid s p gs none
  { s1 with
    cores := s1.cores.map (fun ck => if ck.1.pkg = p ∧ ck.2.tenancy = some gs then (ck.1, { ck.2 with tenancy := none }) else ck)
    reelArr := s1.reelArr.filter (fun m => !(decide (m.pkg = p) && decide (m.gslot = some gs)))
    reelRel := s1.reelRel.filter (fun m => !(decide (m.pkg = p) && decide (m.gslot = some gs))) }

/-- GRID_DONE_ARRIVAL (R385, R69): the reserve returns to the root, the DONE arrival is made, with INC for a grid that faulted, and GSLOT is free. -/
def execGridDoneArrival (pkg gslot : Nat) (s : State) : Host.Outcome State Fault Refusal :=
  match getGrid s pkg gslot with
  | none => .next s
  | some g =>
    if gridComplete g && gridQuiet s pkg gslot then
      let w := weirOf pkg (g.queue % 4) g.pid g.asid
      .next (freeGrid (completePacket (returnWeight s w g.domain g.reserve) pkg g.queue g.packet g.failed) pkg gslot)
    else .next s

end Sys2Proof.Machine
end

