-- ==== Sys2Proof/Machine/Atomics.lean ====
section
/-!
DEFINITION. The atomics and posted reductions of page 3 (spec/07, R228 to R232).
-/
namespace Sys2Proof.Machine

/-- R228: a returning atomic; the new value is made at the home. -/
def atomIssue (op : RmwOp) (o : AtomOps) (s : State) : Host.Outcome State Fault Refusal :=
  issue s o.pre { rg := (o.base, false) :: srcUses (isW o.w) o.y, lg := [o.rd], lat := 1 } (fun s k =>
    let a := k.val 0
    let n := widthBytes o.w
    match issueAddr k.c a n n with
    | .inl c => Res.access s c a
    | .inr r => .ok (startAccess s k (.rmw op r n (srcVal k 1 o.y) 0) true o.os (some (.g o.rd))))

/-- R230: a posted reduction. -/
def redIssue (op : RmwOp) (o : RedOps) (s : State) : Host.Outcome State Fault Refusal :=
  issue s o.pre { rg := (o.base, false) :: (flagUses o.flag ++ [(o.data, isW o.w)]), eff := true, loose := !releases o.os.ord } (fun s k =>
    let n := widthBytes o.w
    let x := k.val (1 + (flagUses o.flag).length)
    posted s k (k.val 0) (flagVal k 1 o.flag) n n (fun _ => true) (fun a f => .ok (sendItem s k 2 (.red op n x) a f 0 false)))

/-- R231: a returning floating add of n bytes. -/
def afaddIssue (op : RmwOp) (n : Nat) (o : AfaddOps) (s : State) : Host.Outcome State Fault Refusal :=
  issue s o.pre { rg := [(o.base, false), (o.y, true)], lg := [o.rd], lat := 1 } (fun s k =>
    let a := k.val 0
    match issueAddr k.c a n n with
    | .inl c => Res.access s c a
    | .inr r => .ok (startAccess s k (.rmw op r n (k.val 1) 0) true o.os (some (.g o.rd))))

/-- R231: a posted floating add. -/
def redFaddIssue (op : RmwOp) (n : Nat) (o : RedFaddOps) (s : State) : Host.Outcome State Fault Refusal :=
  issue s o.pre { rg := (o.base, false) :: (flagUses o.flag ++ [(o.data, true)]), eff := true, loose := !releases o.os.ord } (fun s k =>
    let x := k.val (1 + (flagUses o.flag).length)
    posted s k (k.val 0) (flagVal k 1 o.flag) n n (fun _ => true) (fun a f => .ok (sendItem s k 2 (.red op n x) a f 0 false)))

/-- The adds of the active lanes (R232): one per lane, or two for 16-bit elements. -/
def taddParts (op : RmwOp) (n : Nat) (x : Vec) (ls : List Nat) : List AddPart :=
  ls.flatMap (fun l => (List.range (4 / n)).map (fun i =>
    { off := 4 * l + n * i, op := op, v := elem (8 * n) x (4 / n * l + i) }))

/-- R232: a tile atomic add. The checks at issue take in all 128 bytes, whichever lanes run. DESIGN CHOICE: log entry 16. -/
def taddIssue (op : RmwOp) (n : Nat) (o : TaddOps) (s : State) : Host.Outcome State Fault Refusal :=
  issue s o.pre { rg := (o.base, false) :: flagUses o.flag, v := [o.v], eff := true, loose := !releases o.os.ord, on := fun m => anyOn m 32 } (fun s k =>
    let x := readV s.tick k.t o.v
    posted s k (k.val 0) (flagVal k 1 o.flag) 128 32 (fun _ => true) (fun a f =>
      .ok (sendItem s k 3 (.adds (taddParts op n x (activeLanes k.t o.pre))) a f 0 false)))

/-- ACAS (R229). -/
def execAcas (o : AcasOps) (s : State) : Host.Outcome State Fault Refusal :=
  issue s o.pre { rg := [(o.base, false), (o.rd, isW o.w), (o.c, isW o.w)], lg := [o.rd], lat := 1 } (fun s k =>
    let a := k.val 0
    let n := widthBytes o.w
    match issueAddr k.c a n n with
    | .inl c => Res.access s c a
    | .inr r => .ok (startAccess s k (.rmw .cas r n (k.val 2) (k.val 1)) true o.os (some (.g o.rd))))

/-- AADD (R228). -/
def execAadd (o : AtomOps) (s : State) : Host.Outcome State Fault Refusal := atomIssue .add o s
/-- AMIN (R228). -/
def execAmin (o : AtomOps) (s : State) : Host.Outcome State Fault Refusal := atomIssue .min o s
/-- AMAX (R228). -/
def execAmax (o : AtomOps) (s : State) : Host.Outcome State Fault Refusal := atomIssue .max o s
/-- AMINU (R228). -/
def execAminu (o : AtomOps) (s : State) : Host.Outcome State Fault Refusal := atomIssue .minu o s
/-- AMAXU (R228). -/
def execAmaxu (o : AtomOps) (s : State) : Host.Outcome State Fault Refusal := atomIssue .maxu o s
/-- AAND (R228). -/
def execAand (o : AtomOps) (s : State) : Host.Outcome State Fault Refusal := atomIssue .and o s
/-- AOR (R228). -/
def execAor (o : AtomOps) (s : State) : Host.Outcome State Fault Refusal := atomIssue .or o s
/-- AXOR (R228). -/
def execAxor (o : AtomOps) (s : State) : Host.Outcome State Fault Refusal := atomIssue .xor o s
/-- ASWP (R228). -/
def execAswp (o : AtomOps) (s : State) : Host.Outcome State Fault Refusal := atomIssue .swp o s
/-- RED_ADD (R230). -/
def execRedAdd (o : RedOps) (s : State) : Host.Outcome State Fault Refusal := redIssue .add o s
/-- RED_MIN (R230). -/
def execRedMin (o : RedOps) (s : State) : Host.Outcome State Fault Refusal := redIssue .min o s
/-- RED_MAX (R230). -/
def execRedMax (o : RedOps) (s : State) : Host.Outcome State Fault Refusal := redIssue .max o s
/-- RED_MINU (R230). -/
def execRedMinu (o : RedOps) (s : State) : Host.Outcome State Fault Refusal := redIssue .minu o s
/-- RED_MAXU (R230). -/
def execRedMaxu (o : RedOps) (s : State) : Host.Outcome State Fault Refusal := redIssue .maxu o s
/-- RED_AND (R230). -/
def execRedAnd (o : RedOps) (s : State) : Host.Outcome State Fault Refusal := redIssue .and o s
/-- RED_OR (R230). -/
def execRedOr (o : RedOps) (s : State) : Host.Outcome State Fault Refusal := redIssue .or o s
/-- RED_XOR (R230). -/
def execRedXor (o : RedOps) (s : State) : Host.Outcome State Fault Refusal := redIssue .xor o s
/-- AFADD_F32 (R231). -/
def execAfaddF32 (o : AfaddOps) (s : State) : Host.Outcome State Fault Refusal := afaddIssue .faddF32 4 o s
/-- AFADD_BF16 (R231). -/
def execAfaddBf16 (o : AfaddOps) (s : State) : Host.Outcome State Fault Refusal := afaddIssue .faddBf16 2 o s
/-- RED_FADD_F32 (R231). -/
def execRedFaddF32 (o : RedFaddOps) (s : State) : Host.Outcome State Fault Refusal := redFaddIssue .faddF32 4 o s
/-- RED_FADD_BF16 (R231). -/
def execRedFaddBf16 (o : RedFaddOps) (s : State) : Host.Outcome State Fault Refusal := redFaddIssue .faddBf16 2 o s
/-- TADD_F32 (R232). -/
def execTaddF32 (o : TaddOps) (s : State) : Host.Outcome State Fault Refusal := taddIssue .faddF32 4 o s
/-- TADD_I32 (R232). -/
def execTaddI32 (o : TaddOps) (s : State) : Host.Outcome State Fault Refusal := taddIssue .add 4 o s
/-- TADD_BF16 (R232). -/
def execTaddBf16 (o : TaddOps) (s : State) : Host.Outcome State Fault Refusal := taddIssue .faddBf16 2 o s

end Sys2Proof.Machine
end

