-- ==== Sys2Proof/Machine/Control.lean ====
section
/-!
DEFINITION. The control-flow instructions of pages 0 and 2, frames, and the traps raised by instructions (spec/06, R197 to R207, R209).
-/
namespace Sys2Proof.Machine

/-- The marker and predicate of an instruction whose field A names the predicate it tests, not one that governs it (R198, R199). -/
def brPre (o : BrOps) : Pre := { sw := o.sw, neg := false, pn := 0 }

/-- The target of a relative offset, in words from the instruction (R197). -/
def relative (k : Ctx) (off : Int) : Int := (k.t.pc : Int) + 2 * off

/-- R198, R199: a branch on the lanes of pPN, inverted if NEG. -/
def branch (test : Word → Bool) (o : BrOps) (s : State) : Host.Outcome State Fault Refusal :=
  issue s (brPre o) {} (fun s k =>
    let p := readP k.t o.pn
    if test (if o.neg then ~~~p else p) then transfer s k (relative k o.off) id else .ok s)

/-- BR: lane 0 (R198). -/
def execBr (o : BrOps) (s : State) : Host.Outcome State Fault Refusal := branch (fun p => bitOf p 0) o s
/-- BANY: any lane (R199). -/
def execBany (o : BrOps) (s : State) : Host.Outcome State Fault Refusal := branch (fun p => decide (p ≠ 0)) o s
/-- BALL: every lane (R199). -/
def execBall (o : BrOps) (s : State) : Host.Outcome State Fault Refusal := branch (fun p => decide (p = 0xFFFFFFFF#32)) o s

/-- CALL (R200). -/
def execCall (o : CallOps) (s : State) : Host.Outcome State Fault Refusal :=
  issue s o.pre { wg := [(o.link, false)] } (fun s k => transfer s k (relative k o.off) (fun t => writeG t o.link (dw k.next)))

/-- JMP (R201): through a link register g1 that holds zero it is a quit, which waits for the stores as QUIT does (R152). -/
def execJmp (o : JmpOps) (s : State) : Host.Outcome State Fault Refusal :=
  issue s o.pre { rg := [(o.tgt, false)], wg := [(o.link, false)] } (fun s k =>
    if o.link = 0 ∧ o.tgt = 1 ∧ k.val 0 = 0 then quitRes (drainThread s k.c k.slot) k
    else transfer s k (k.val 0).toNat (fun t => writeG t o.link (dw k.next)))

/-- JOV (R203). -/
def execJov (o : JovOps) (s : State) : Host.Outcome State Fault Refusal :=
  issue s o.pre { rg := [(o.g, false)] } (fun s k =>
    if 2 ^ 16 ≤ (k.val 0).toNat then Res.illegal s 3
    else enterSegment s k (k.val 0).toNat o.target (fun s pc seg => .jump s pc seg))

/-- ENTER (R204): the link is stored below the caller's frame, and g2 lowered. -/
def execEnter (o : FrameOps) (s : State) : Host.Outcome State Fault Refusal :=
  issue s o.pre { rg := [(2, false), (1, false)], wg := [(2, false)] } (fun s k =>
    let g2 := k.val 0
    let f : Int := (g2.toNat : Int) - o.n
    let slim := k.t.slim
    if g2.toNat % 16 ≠ 0 then .trap s clsStack 2 (BitVec.ofInt 64 f) slim
    else if f < slim.toNat then .trap s clsStack 1 (BitVec.ofInt 64 f) slim
    else
      let a := BitVec.ofInt 64 (f + o.n - 8)
      match issueAddr k.c a 8 8 with
      | .inl c => Res.access s c a
      | .inr r =>
        let s1 := startAccess s k (.write [(r, leBytes 8 (k.val 1).toNat)] 8) false OrdSc.plain none
        .ok (k.upd s1 (fun t => writeG t 2 (BitVec.ofInt 64 f))))

/-- LEAVE (R205): the link is loaded, the frame released, the switch marker applied. -/
def execLeave (o : FrameOps) (s : State) : Host.Outcome State Fault Refusal :=
  issueMarked s o.pre { rg := [(2, false)], wg := [(2, false)], lg := [1], lat := 1 } (fun s k =>
    let a := k.val 0 + dw o.n - 8
    match issueAddr k.c a 8 1 with
    | .inl c => Res.access s c a
    | .inr r =>
      let s1 := startAccess s k (.read [(r, 8)] 8 (.scalar false)) false OrdSc.plain (some (.g 1))
      .ok (k.upd s1 (fun t => writeG t 2 (k.val 0 + dw o.n))))

/-- TRAP (R206). -/
def execTrap (o : CodeOps) (s : State) : Host.Outcome State Fault Refusal :=
  issue s o.pre {} (fun s _ => .trap s clsTrap o.code.val 0 0)

/-- BRK (R206). -/
def execBrk (o : CodeOps) (s : State) : Host.Outcome State Fault Refusal :=
  issue s o.pre {} (fun s _ => .trap s clsBrk o.code.val 0 0)

/-- TRET (R207). -/
def execTret (o : TretOps) (s : State) : Host.Outcome State Fault Refusal :=
  issue s o.pre { rg := [(o.g, false)] } (fun s k =>
    let x := k.val 0
    if k.t.inHandler = false then Res.illegal s 3
    else if fld x 63 48 ≠ 0 ∨ fld x 31 17 ≠ 0 then Res.illegal s 3
    else if fld x 0 0 = 1 then Res.illegal s 3
    else enterSegment s k (fld x 47 32) (fld x 16 0) (fun s pc seg => trapReturn s k pc seg))

/-- ECALL (R209, R367): a trap of class 7 with the service number, and a release. -/
def execEcall (o : EcallOps) (s : State) : Host.Outcome State Fault Refusal :=
  issue s o.pre {} (fun s k => .trap (drainThread s k.c k.slot) clsEcall 0 (dw o.n) 0)

end Sys2Proof.Machine
end

