-- ==== Sys2Proof/Machine/Delivery.lean ====
section
/-!
DEFINITION. The memory system's own steps: acceptance and landing of a thread's accesses (R147, R152), fault records (R408 to
R413), refused requests (R416), posted items, arrivals and inbox records (R92, R223, R227), deferred lists (R61), polls (R249, R257), neighbour
words (R63), reel arrivals and releases (R65), late results (R372), timers and notifications (R361), and undefined words (R156).
-/
namespace Sys2Proof.Machine

/-! ## A thread's accesses and results -/

/-- ACCESS_ACCEPTANCE (R152, R217): access k of a slot's thread arrives at its home. -/
def execAccessAcceptance (c : CoreId) (slot k : Nat) (s : State) : Host.Outcome State Fault Refusal := .next (tryAccess s c slot k)

/-- RESULT_LANDING (R147 to R149): outstanding result k of a slot's thread, once its value is known. A tile's result lands with its write (R292). -/
def execResultLanding (c : CoreId) (slot k : Nat) (s : State) : Host.Outcome State Fault Refusal :=
  .next (modT s c slot (fun t => match t.out[k]? with
    | some o => (match o.dst with
      | .t _ => t
      | _ => if o.ready then landOut t o else t)
    | none => t))

/-! ## Fault records (R408) -/

/-- The records of a package in order: each is appended, answered with REFUSE where there is no ring, or waits behind a full ring. The request of
a host's record (R414) is the host's own, and no thread or port waits under its TICKET. -/
def drainFrom (s : State) : List FaultRec → List FaultRec → State × List FaultRec
  | [], kept => (s, kept)
  | r :: l, kept =>
    if kept.any (fun x => decide (x.homePkg = r.homePkg ∧ x.homeFp = r.homeFp ∧ x.pid = r.pid)) then drainFrom s l (kept ++ [r])
    else match appendFault s r with
      | .done s1 => drainFrom s1 l kept
      | .full => drainFrom s l (kept ++ [r])
      | .noRing => drainFrom (if r.d0.toNat / 2 ^ 62 = 2 then s else answer s { pkg := r.homePkg, n := 8192 + r.homeFp } (r.d0.toNat % 2 ^ 32) true) l kept

/-- Every fault record that waits, as far as the rings have room. DESIGN CHOICE: log entry 53. -/
def drainRecs (s : State) : State :=
  (s.pkgs.map (fun x => x.1)).foldl (fun s p =>
    let l := (getPkg s p).recs
    let r := drainFrom (modPkg s p (fun k => { k with recs := [] })) l []
    modPkg r.1 p (fun k => { k with recs := r.2 ++ k.recs })) s

/-- The refused requests of every package, each with its package. -/
def allRetries (s : State) : List (Nat × PortReq) := s.pkgs.flatMap (fun x => x.2.retries.map (fun q => (x.1, q)))

/-- A refused request is sent again (R416): behind an earlier one of its core to the page it stays, or joins it in the port's list; refused once more it
keeps its place. -/
def retryOne (s : State) (p : Nat) (q : PortReq) : State :=
  let k := getPkg s p
  let out := fun (s : State) => modPkg s p (fun x => { x with retries := x.retries.filter (fun y => decide (y ≠ q)) })
  if (k.retries.takeWhile (fun x => decide (x ≠ q))).any q.same then s
  else match (k.held ++ k.faults.filter (fun x => !x.refused)).filter q.same |>.getLast? with
    | some x => (holdBehind s (p, x) q.req).1
    | none =>
      if awaited s q then readyFor s q
      else
        let s1 := besideRetries (out s) p q.same (fun s => resend s q)
        if (getPkg s1 p).retries.any (fun x => q.same x && decide (x.req = q.req)) then s else s1

/-- REFUSED_REQUEST_RETRY (R416, R417): the ports of every package go on with what they hold, and refused request k is sent again. DEDUCED: log entry 54. -/
def execRefusedRequestRetry (k : Nat) (s : State) : Host.Outcome State Fault Refusal :=
  let s0 := (s.pkgs.map (fun x => x.1)).foldl portsOn s
  .next (drainRecs (match (allRetries s0)[k]? with
    | none => s0
    | some (p, q) => retryOne s0 p q))

/-! ## Posted items (R92, R223, R227) -/

/-- The oldest return of weight that stands at no port is tried again (R72, R452). DESIGN CHOICE: log entry 30. -/
def payOwed (s : State) : State :=
  match s.owed.find? (fun o => !o.atPort) with
  | none => s
  | some o => returnWeight { s with owed := s.owed.filter (fun x => decide (x.id ≠ o.id)) } o.who o.domain o.amount

/-- POSTED_ITEM_DELIVERY (R223): item k arrives at the homes of its bytes, and the fault records that wait go to their rings. -/
def execPostedItemDelivery (k : Nat) (s : State) : Host.Outcome State Fault Refusal :=
  .next (drainRecs (payOwed (match s.items[k]? with
    | some i => if i.stage = .sent then tryItem s i else s
    | none => s)))

/-- COUNTED_ARRIVAL (R92, R96). DESIGN CHOICE: log entry 36. -/
def execCountedArrival (k : Nat) (s : State) : Host.Outcome State Fault Refusal :=
  match s.arrivals[k]? with
  | some a => if a.stage = .sent then .next (tryArrival s a) else .next s
  | none => .next s

/-- HELD_INBOX_RECORD_ENTRY (R227): the oldest record that the hub holds enters the inbox when there is room. -/
def execHeldInboxRecordEntry (c : CoreId) (s : State) : Host.Outcome State Fault Refusal :=
  let k := getCore s c
  match k.heldRecs with
  | [] => .next s
  | r :: l => if k.inbox.length < inboxSize then .next (setCore s c { k with inbox := k.inbox ++ [r], heldRecs := l }) else .next s

/-! ## Deferred lists (R61) -/

/-- DEFERRED_LIST_WALK (R61): one record of list walk k goes into the run queue, and its heap slot is free; a full ring stalls the walk. -/
def execDeferredListWalk (k : Nat) (s : State) : Host.Outcome State Fault Refusal :=
  match s.walks[k]? with
  | none => .next s
  | some w =>
    let at_ := heapAt s w.pkg w.pid w.cluster (w.next - 1)
    let x := readNat s none at_ 64
    let h := getHub s w.pkg w.cluster
    match ringFree h with
    | none => .next s
    | some i =>
      let link := x / 2 ^ 32 % 2 ^ 16
      let moved := x % 2 ^ 504 - x / 2 ^ 17 % 2 ^ 31 * 2 ^ 17 + 2 ^ 504
      let s1 := writeNat s none (ringAt w.pkg w.cluster i) 64 moved
      let s2 := setHub s1 w.pkg w.cluster { h with
        ring := h.ring ++ [{ slot := i, prio := dword x 7 / 2 ^ 32 % 4, order := h.ringOrder }], ringLast := i, ringOrder := h.ringOrder + 1 }
      let s3 := writeNat s2 none (at_ + 63) 1 0
      .next { s3 with walks := if link = 0 then s3.walks.eraseIdx k else s3.walks.set k { w with next := link } }

/-! ## Polls (R249, R257) -/

/-- The word at an address as a poll reads it, if it can be read now: the poll waits behind the core's earlier requests for the page, and a poll of a
sleeping cluster starts its exit (R416, R452). DEDUCED: log entry 29. -/
def pollWord (s : State) (w : Who) (a : Dword) (r : Req) : State × Option Nat :=
  if (portBehind s w a r).isSome then (s, none)
  else match judge s w a 8 .read with
    | (s1, .ok ph _) => (s1, some (leNat (readJudged s1 w a ph 8)))
    | (s1, .asleep p k) => (wakeCluster s1 p k, none)
    | _ => (s, none)

/-- A parked thread reads its word again, and is woken where the word ends its wait. -/
def pollWake (s : State) (c : CoreId) (slot : Nat) (t : Thread) (a : Dword) (met : Nat → Bool) : State :=
  match pollWord s (whoOf c t) a (.issue c slot t.seq) with
  | (s1, some v) => if met v then modT s1 c slot (fun t => t.wake (some (dw v))) else s1
  | (s1, none) => s1

/-- WAITC_POLL (R249): a parked `waitc` without an entry reads its flag again. DEDUCED: log entry 29. -/
def execWaitcPoll (c : CoreId) (slot : Nat) (s : State) : Host.Outcome State Fault Refusal :=
  .next (match getT s c slot with
    | some t => (match t.run with
      | .parked (.flag a n) false => pollWake s c slot t a (fun v => reached v n)
      | _ => s)
    | none => s)

/-- WQUIET_POLL (R257): a parked `wquiet` without an entry reads its root again. DEDUCED: log entry 29. -/
def execWquietPoll (c : CoreId) (slot : Nat) (s : State) : Host.Outcome State Fault Refusal :=
  .next (match getT s c slot with
    | some t => (match t.run with
      | .parked (.root a) false => pollWake s c slot t a (fun v => decide (v = fullWeight))
      | _ => s)
    | none => s)

/-! ## Neighbour words and reels (R63, R65) -/

/-- NEIGHBOUR_WORD_ARRIVAL (R63, R33): a push reaches its queue, after those before it; a core that the grid has left discards it. -/
def execNeighbourWordArrival (k : Nat) (s : State) : Host.Outcome State Fault Refusal :=
  match s.nwords[k]? with
  | none => .next s
  | some w =>
    if (s.nwords.take k).any (fun x => decide (x.pkg = w.pkg ∧ x.dst = w.dst ∧ x.dir = w.dir)) then .next s
    else
      let c : CoreId := { pkg := w.pkg, n := w.dst }
      let s1 := { s with nwords := s.nwords.eraseIdx k }
      .next (if (getCore s c).tenancy = some w.gslot ∧ (getCore s c).era = w.era then
          modCore s1 c (fun x => { x with nq := x.nq.setIfInBounds w.dir ((x.nq[w.dir]?.getD []) ++ w.words) })
        else s1)

/-- A unit moves on to its next phase: PHASE + 1, the early arrivals become those of the phase (R65, R254). -/
def Reel.advance (r : Reel) : Reel :=
  let ph := (reelPhase r + 1) % 65536
  { r with reg := dw (r.reg.toNat - reelPhase r * 2 ^ 32 + ph * 2 ^ 32), now := r.next, next := 0 }

def setReel (s : State) (c : CoreId) (u : Nat) (r : Reel) : State := modCore s c (fun k => { k with reel := k.reel.setIfInBounds u r })

/-- The next core on the way to the corner: along the row to the last column, then down (R65); none at the corner. -/
def reelNext (reg : Dword) (n : Nat) : Option Nat :=
  let r := reelRect reg
  let col := r.2.1 + r.2.2.2 - 1
  let row := r.1 + r.2.2.1 - 1
  if meshCol n < col then some (coreAt (meshRow n) (meshCol n + 1))
  else if meshRow n < row then some (coreAt (meshRow n + 1) (meshCol n))
  else none

/-- The corner has the arrivals of every core of its rectangle for its PHASE, made under the same rectangle (R64): it moves on and sends the release back. -/
def reelComplete (s : State) (p corner u : Nat) : State :=
  let c : CoreId := { pkg := p, n := corner }
  let r := (getCore s c).reel[u]?.getD Reel.reset
  let here := s.reelArr.filter (fun m => decide (m.pkg = p ∧ m.at_ = corner ∧ m.unit = u ∧ m.phase = reelPhase r ∧ m.gslot = (getCore s c).tenancy ∧ reelRect m.reg = reelRect r.reg))
  let cores := rectCores (reelRect r.reg)
  if fld r.reg 63 63 = 1 ∧ cores.all (fun n => here.any (fun m => decide (m.src = n))) = true then
    let rel := cores.filterMap (fun n => if n = corner then none else here.find? (fun m => decide (m.src = n)))
    setReel { s with reelArr := s.reelArr.filter (fun m => !here.contains m), reelRel := s.reelRel ++ rel } c u r.advance
  else s

/-- REEL_ARRIVAL_COMBINE (R65): arrival k moves one core on, or is counted at the corner. DESIGN CHOICE: log entry 26. -/
def execReelArrivalCombine (k : Nat) (s : State) : Host.Outcome State Fault Refusal :=
  match s.reelArr[k]? with
  | none => .next s
  | some m => match reelNext m.reg m.at_ with
    | some n =>
      let s1 := { s with reelArr := s.reelArr.set k { m with at_ := n } }
      .next (if (reelNext m.reg n).isNone then reelComplete s1 m.pkg n m.unit else s1)
    | none => .next (reelComplete s m.pkg m.at_ m.unit)

/-- REEL_RELEASE (R65): release k reaches its core, if its unit is still in the enabling that it was formed for. Its crew being off the
core, it waits. DESIGN CHOICE: log entry 26. -/
def execReelRelease (k : Nat) (s : State) : Host.Outcome State Fault Refusal :=
  match s.reelRel[k]? with
  | none => .next s
  | some m =>
    let c : CoreId := { pkg := m.pkg, n := m.src }
    let s1 := { s with reelRel := s.reelRel.eraseIdx k }
    if s.redirects.any (fun x => decide (x.pkg = m.pkg ∧ x.core = m.src ∧ some x.gslot = m.gslot)) then .next s
    else if (getCore s c).tenancy ≠ m.gslot then .next s1
    else match (getCore s c).reel[m.unit]? with
    | some r => .next (if fld r.reg 63 63 = 1 ∧ r.era = m.era then setReel s1 c m.unit r.advance else s1)
    | none => .next s1

/-! ## Late results (R372) -/

/-- A dword of an image changed. -/
def modDword (s : State) (a : Nat) (f : Nat → Nat) : State := writeNat s none a 8 (f (readNat s none a 8))

/-- A result written into its place, or ranges of a vector's bits, in a thread image. DEDUCED: log entry 47. -/
def landInImage (s : State) (img : Nat) (al : Allot) (d : Dst) (v : OutVal) : State :=
  let at_ := img + regAt al d
  match d, v with
  | .g i, .dword x => if i = 0 then s else writeNat s none at_ 8 x.toNat
  | .p i, .dword x => if i = 0 then s else writeNat s none at_ 4 x.toNat
  | .v _, .vec ps => writeNat s none at_ 128 (putParts (readNat s none at_ 128) ps % 2 ^ 1024)
  | _, _ => s

/-- A late result in its image (R126, R149, R372): its flags in FPC, its value in its place unless it is stale, then LANDED and PENDING. DEDUCED: log entry 47. -/
def landLate (s : State) (l : Late) : State :=
  let s1 := modDword s (l.img + 0x20) (fun x => (setFlags (dw x) l.out.flags).toNat)
  let s2 := if l.out.staleBy.isNone then landInImage s1 l.img l.allot l.out.dst l.out.val else s1
  let s3 := markLanded s2 l.img l.entry
  { s3 with lateAccs := s3.lateAccs.map (fun x => if x.img = l.img then { x with acc := landCk l.out x.acc } else x) }

/-- LATE_RESULT_LANDING (R372, R126): late result k of a saved thread lands in its image once it is known; the indices beyond the results are those of
the accesses of saved threads that their homes have still to accept (R148). -/
def execLateResultLanding (k : Nat) (s : State) : Host.Outcome State Fault Refusal :=
  match s.lates[k]? with
  | none => (match s.lateAccs[k - s.lates.length]? with
    | some a => .next (tryLate s a)
    | none => .next s)
  | some l =>
    if l.out.ready = false ∨ (s.lates.take k).any (fun x => decide (x.img = l.img ∧ x.out.dst = l.out.dst)) = true then .next s
    else .next (landLate { s with lates := s.lates.eraseIdx k } l)

/-! ## Fault processors (R361) -/

/-- TIMER_WAKE (R361): a `wfi` whose timer has been reached ends. -/
def execTimerWake (c : CoreId) (slot : Nat) (s : State) : Host.Outcome State Fault Refusal :=
  .next (modT s c slot (fun t => if t.run = .held .wfi ∧ heldMet s c slot t .wfi = true then { t with run := .ready } else t))

/-- MAILBOX_NOTIFICATION_ENTRY (R361): the oldest message of sender k, of those that keep some, enters the mailbox when there is room. -/
def execMailboxNotificationEntry (pkg : Nat) (q : NoteQueue) (s : State) : Host.Outcome State Fault Refusal :=
  .next (modCore s { pkg := pkg, n := 8192 + q.fp } (fun c =>
    match ((c.notify.map (fun x => x.1)).eraseDups[q.k]?).bind (fun y => c.notify.find? (fun x => decide (x.1 = y))) with
    | none => c
    | some x => if c.mailbox.length < 64 then { c with mailbox := c.mailbox ++ [x.2], notify := c.notify.erase x } else c))

/-! ## Undefined words (R156, R158, R455) -/

/-- UNDEFINED_INSTRUCTION (R156): the trap that the words raise; a privileged row at user level comes before a rule of its encoding (R455). -/
def execUndefinedInstruction (e : DecErr) (s : State) : Host.Outcome State Fault Refusal :=
  issue s { sw := false, neg := false, pn := 0 } {} (fun s k =>
    .trap s clsIllegal (if e.priv && !isFp k.c && decide (e.cause ≠ 1) then 4 else e.cause) 0 (dw e.aux))

end Sys2Proof.Machine
end

