-- ==== Sys2Proof/Machine/MatrixUnit.lean ====
section
/-!
DEFINITION. What the matrix unit does with its commands (spec/10): operand fetch and start (R293, R297), the products (R300, R301), drains
(R303, R304), the ring latches (R312), tile writes (R292), and remote commands (R310, R311).
-/
namespace Sys2Proof.Machine

/-! ## Products on panel bytes (R295, R300, R301) -/

/-- The elements of a row of a panel (R116, R295). -/
def rowElems (g : Geo) (bs : List Byte) (r : Nat) : List Nat :=
  let x := leNat ((bs.drop (r * g.row)).take g.row)
  (List.range g.k).map (fun i => x / 2 ^ (g.bits * i) % 2 ^ g.bits)

/-- The scales of a row (R295). -/
def rowScales (g : Geo) (bs : List Byte) (r : Nat) : List Nat :=
  ((bs.drop (16 * g.row + r * g.scales)).take g.scales).map (fun b => b.toNat)

/-- The values of a row of MX elements (R115). -/
def mxRow (f : Fmt) (es xs : List Nat) : List FVal :=
  (List.range es.length).map (fun i => mxVal f (xs.getD (i / 32) 0) (es.getD i 0))

/-- An element of n bits as SA or SB reads it. -/
def intElem (signed : Bool) (n x : Nat) : Int := if signed then toSigned n x else x

/-- The FP32 term of `mmsr.minplus` (sum) and `mmsr.maxtimes` (product). -/
def semiTerm (mx : Bool) (a b : Nat) : Nat :=
  let x := decodeFp bf16 a
  let y := decodeFp bf16 b
  (roundOf fp32 .rne (if mx then mulVal x y else addVal .rne x y)).1

/-- Identity and Combine of R300 for one element: incoming c, rows a and b with their scales. -/
def prodElem (major func mod : Nat) (fa fb : Fmt) (c : Nat) (a b xa xb : List Nat) : Nat :=
  let z := decide (func % 2 = 1)
  let cf := if z then plusZero else decodeFp fp32 c
  match major with
  | 0 =>
    let f := if mod = 0 then bf16 else fp16
    matSum (cf :: List.zipWith (fun x y => mulTerm (decodeFp f x) (decodeFp f y)) a b)
  | 1 => matSum (cf :: List.zipWith mulTerm (mxRow fa a xa) (mxRow fb b xb))
  | 2 =>
    let n := if mod = 0 then 8 else 4
    let sa := decide (func / 8 % 2 = 1)
    let sb := decide (func / 16 % 2 = 1)
    let sum := (List.zipWith (fun x y => intElem sa n x * intElem sb n y) a b).foldl (· + ·) (if z then 0 else toSigned 32 c)
    wrapTo 32 (if func / 4 % 2 = 1 then satInt sum (-2 ^ 31) (2 ^ 31 - 1) else sum)
  | _ =>
    if mod = 2 then (if !z && decide (c ≠ 0) || (List.zip a b).any (fun p => decide (p.1 ≠ 0 ∧ p.2 ≠ 0)) then 1 else 0)
    else
      let mx := decide (mod = 1)
      let c0 := if z then fp32.infCode mx else c
      (List.zip a b).foldl (fun x p => (fpMinMax mx fp32 x (semiTerm mx p.1 p.2)).1) c0

/-- Element e of a tile (R292). -/
def tileElem (t : Tile) (e : Nat) : Nat := t.toNat / 2 ^ (32 * e) % 2 ^ 32
def tileOf (l : List Nat) : Tile := BitVec.ofNat 8192 (packNat 32 l)

/-- A product over R rows; `nan` where the latch carries no usable descriptor (R301). -/
def prodTile (major func mod rows : Nat) (g : Geo) (fa fb : Fmt) (nan : Bool) (old : Tile) (a b : List Byte) : Tile :=
  tileOf ((List.range 256).map (fun e =>
    let i := e / 16
    let j := e % 16
    if rows ≤ i then tileElem old e
    else if nan then 0x7FC00000
    else prodElem major func mod fa fb (tileElem old e) (rowElems g a i) (rowElems g b j) (rowScales g a i) (rowScales g b j)))

/-! ## Operand fetch (R101, R297) -/

/-- Every line of the ranges is full. -/
def allFull (s : State) (g : Option Nat) (l : List (Nat × Nat)) : Bool :=
  l.all (fun x => (List.range (x.2 / 128 + 2)).all (fun i =>
    let a := lineOf x.1 + 128 * i
    decide (x.1 + x.2 ≤ a) || !lineEmpty s g a))

/-- The bytes fetched; those under an uncorrectable error have no value of their own (R422). -/
def fetchOps (s : State) (g : Option Nat) (a n : Nat) : List Byte :=
  (List.range n).map (fun i => if poisoned s g (a + i) 1 then Config.coldByte s.tick (a + i) else readByte s g (a + i))

/-- The physical address of an operand of n bytes in the executing core's scratchpad. DEDUCED: log entry 37. -/
def operandAt (c : CoreId) (d : Dword) (n : Nat) : Option Nat := (ownSpad c d n).map (physOf c)

/-- What a command finds when it reaches the array. -/
inductive Fetched where
  | stall
  | bad (cause : Nat)
  | tile (x : Tile)
  | state (s : State)

/-- The tile as the commands ahead leave it (R292). -/
def tileNow (k : Core) (t : Thread) (m : MCmd) : Tile :=
  match (k.mq.filter (fun x => x.started && decide (x.slot = m.slot ∧ x.tile = m.tile))).getLast? with
  | some x => x.res.getD (t.regs.t.toList.getD m.tile 0)
  | none => t.regs.t.toList.getD m.tile 0

/-- A remote command's fetch fails on an uncorrectable error as on any access fault (R311). -/
def fetchBad (s : State) (m : MCmd) (l : List (Nat × Nat)) : Bool := m.remote.isSome && l.any (fun x => poisoned s m.who.gslot x.1 x.2)

/-- A product's operands read and its tile computed (R293, R298, R310). A remote `mma.mx` whose holder's nf registers are invalid or of unequal width when
it starts fails with CAUSE 7: R298 gives the trap at issue of a local one only. DESIGN CHOICE: log entry 40. -/
def startProduct (s : State) (c : CoreId) (t : Thread) (m : MCmd) (major func mod : Nat) : Fetched :=
  let k := getCore s c
  let ring := decide (func / 2 % 2 = 1)
  let nfA := if m.remote.isSome then nfAt t.regs (panelNf m.da) else m.nfA
  let nfB := if m.remote.isSome then nfAt t.regs (panelNf m.db) else m.nfB
  let mx := decide (major = 1)
  let fa := (nfFmt nfA).getD fp32
  let fb := (nfFmt nfB).getD fp32
  let g := geoOf major mod fa.width
  let rows := panelRows m.da
  if mx && ((nfFmt nfA).isNone || (!ring && ((nfFmt nfB).isNone || decide (fa.width ≠ fb.width)))) then .bad 7
  else match operandAt c (panelLine m.da) g.bytes with
    | none => .bad 1
    | some pa =>
      let ra := [(pa, rows * g.row), (pa + 16 * g.row, rows * g.scales)]
      let old := tileNow k t m
      if ring then
        (match k.latCur with
         | none => .stall
         | some l =>
           if fetchBad s m ra then .bad 1
           else if !allFull s t.gslot ra then .stall
           else
             let lf := l.desc.bind nfFmt
             let nan := mx && (match lf with | some f => decide (f.width ≠ fa.width) | none => true)
             let b := l.bytes.take g.bytes ++ List.replicate (g.bytes - l.bytes.length) 0
             .tile (prodTile major func mod rows g fa (lf.getD fp32) nan old (fetchOps s t.gslot pa g.bytes) b))
      else match operandAt c (panelLine m.db) g.bytes with
        | none => .bad 1
        | some pb =>
          let rs := ra ++ [(pb, g.bytes)]
          if fetchBad s m rs then .bad 1
          else if !allFull s t.gslot rs then .stall
          else .tile (prodTile major func mod rows g fa fb false old (fetchOps s t.gslot pa g.bytes) (fetchOps s t.gslot pb g.bytes))

/-! ## Drains (R303, R304) -/

/-- An element of the requantising drain (R304). -/
def requant (u : Bool) (zp : Int) (c mult : Int) (shift : Nat) : Nat :=
  let y := (roundInt .rne ((FVal.ofInt (c * mult)).scale (-(31 + shift : Int)))).1 + zp
  wrapTo 8 (if u then satInt y 0 255 else satInt y (-128) 127)

/-- The 256 output bytes, or none where the block is not as R304 requires. -/
def requantTile (u : Bool) (t : Tile) (blk : List Byte) : Option (List Byte) :=
  let by_ := fun (i : Nat) => (blk.getD i 0).toNat
  if (List.range 16).any (fun j => decide (31 < by_ (0x40 + j))) ∨ ((List.range 7).any (fun i => decide (by_ (0x51 + i) ≠ 0))) ∨
      ((List.range 32).any (fun i => decide (by_ (0x60 + i) ≠ 0))) then none
  else
    let zp : Int := if u then by_ 0x50 else toSigned 8 (by_ 0x50)
    some ((List.range 256).map (fun e =>
      let j := e % 16
      BitVec.ofNat 8 (requant u zp (toSigned 32 (tileElem t e)) (toSigned 32 (leNat ((blk.drop (4 * j)).take 4))) (by_ (0x40 + j)))))

/-- The item of a drain: KIND 0x10 and 0x11 of R305. -/
def drainItem (m : MCmd) (t : Thread) (note : Bool) (target flag : Dword) (op : ItemOp) : Item :=
  { id := m.seq, who := m.who, kind := 0x11, op := op, addr := target, flag := flag, share := 0, domain := t.domain, note := note, stage := .sent }

def addItem (s : State) (i : Item) : State := { s with items := s.items ++ [i] }

/-- The stores of a drain, 32-byte sector by sector in ascending order (R85). -/
def sectors (bs : List Byte) : List (Nat × List Byte) := (List.range (bs.length / 32)).map (fun i => (32 * i, (bs.drop (32 * i)).take 32))

def startDrain (s : State) (c : CoreId) (t : Thread) (m : MCmd) (kind : Nat) (note u : Bool) (mod : Nat) (target arg : Dword) : Fetched :=
  let x := tileNow (getCore s c) t m
  match kind with
  | 0 => .state (addItem s (drainItem m t note target arg (.store (sectors (leBytes 1024 x.toNat)) false)))
  | 1 =>
    let op : RmwOp := if mod = 0 then .faddF32 else .add
    .state (addItem s (drainItem m t note target arg (.adds ((List.range 256).map (fun e => { off := 4 * e, op := op, v := tileElem x e })))))
  | _ => match operandAt c arg 128 with
    | none => .bad 1
    | some pb =>
      if !allFull s t.gslot [(pb, 128)] then .stall
      else
        let blk := readBytes s t.gslot pb 128
        let fv := if poisoned s t.gslot (pb + 0x58) 8 then 0 else dw (leNat ((blk.drop 0x58).take 8))
        if poisoned s t.gslot pb 128 then
          (match issueFlag s c fv with
           | .inl _ => .state (postRec s m.who (mkRec m.who 0x11 3 target fv 0 0))
           | .inr f => .state (itemFail s (drainItem m t note target f (.store [] false)) 3))
        else match issueFlag s c fv with
        | .inl _ => .state (postRec s m.who (mkRec m.who 0x11 6 target fv 0 0))
        | .inr f => match requantTile u x blk with
          | none => .state (itemFail s (drainItem m t note target f (.store [] false)) 6)
          | some bs => .state (addItem s (drainItem m t note target f (.store (sectors bs) false)))

/-! ## Starting a command (R293) -/

/-- The command at the head of those not started acts: a tile to be written, a new state, or a wait at the head. An `mpass` waits while the latches of
the downstream core are stopped (R369). -/
def startCmd (s : State) (c : CoreId) (t : Thread) (m : MCmd) : Fetched :=
  match m.op with
  | .product major func mod => startProduct s c t m major func mod
  | .zero => .tile 0
  | .load => (match operandAt c m.da 1024 with
    | none => .bad 1
    | some pa =>
      if m.da.toNat % 128 ≠ 0 ∨ fetchBad s m [(pa, 1024)] = true then .bad 1
      else if !allFull s t.gslot [(pa, 1024)] then .stall
      else .tile (BitVec.ofNat 8192 (leNat (fetchOps s t.gslot pa 1024))))
  | .drain kind note u mod target arg => startDrain s c t m kind note u mod target arg
  | .ring cls => (match operandAt c (panelLine m.da) (ringBytes cls) with
    | none => .bad 1
    | some pa =>
      if !allFull s t.gslot [(pa, ringBytes cls)] then .stall
      else
        let l : Latch := { size := ringBytes cls, bytes := fetchOps s t.gslot pa (ringBytes cls), desc := if cls = 0 then none else some m.nfA }
        .state (modCore s c (fun k => { k with latCur := some l })))
  | .ringRecv => (match (getCore s c).latInc with
    | none => .stall
    | some l => .state (modCore s c (fun k => { k with latCur := some l, latInc := none })))
  | .pass =>
    let d : CoreId := { c with n := downstream c.n }
    if netStopped s c.pkg d.n t.gslot then .stall else
    (match (getCore s c).latCur, (getCore s d).latInc with
     | some l, none => .state (modCore s d (fun k => { k with latInc := some l }))
     | _, _ => .stall)

/-- The first command that has not started, leaving the queue or changed. -/
def replaceFirst (f : MCmd → Option MCmd) : List MCmd → List MCmd
  | [] => []
  | m :: l => if m.started then m :: replaceFirst f l else match f m with
    | some x => x :: l
    | none => l

def leaveQueue (s : State) (c : CoreId) : State := modCore s c (fun k => { k with mq := replaceFirst (fun _ => none) k.mq })

/-- A remote command that failed (R311): KIND 0x12 in the issuer's inbox, and its arrival with INC. DESIGN CHOICE: log entry 40. -/
def remoteFail (s : State) (w : Who) (cause : Nat) (block flag : Dword) (no : Nat) : State :=
  remoteArrival (postRec s w (mkRec w 0x12 cause block flag 0 0)) w block flag true no

/-- MATRIX_COMMAND_START (R291, R293, R297). DEDUCED: log entry 39. -/
def execMatrixCommandStart (c : CoreId) (s : State) : Host.Outcome State Fault Refusal :=
  match (getCore s c).mq.find? (fun m => !m.started) with
  | none => .next s
  | some m => match getT s c m.slot with
    | none => .next s
    | some t => if t.halted then .next s else match startCmd s c t m with
      | .stall => .next s
      | .state s1 => .next (leaveQueue s1 c)
      | .tile x => .next (modCore s c (fun k => { k with mq := replaceFirst (fun y => some { y with started := true, res := some x }) k.mq }))
      | .bad cause => match m.remote with
        | some (block, flag) => .next (remoteFail (leaveQueue s c) m.who cause block flag m.seq)
        | none => .next (modT (leaveQueue s c) c m.slot (fun t => dropTileOut t m))

/-- MATRIX_TILE_WRITE (R292, R293, R310): the oldest started command completes. DEDUCED: log entry 39. -/
def execMatrixTileWrite (c : CoreId) (s : State) : Host.Outcome State Fault Refusal :=
  match (getCore s c).mq with
  | [] => .next s
  | m :: l =>
    if m.started = false then .next s
    else .next (completeTile (modCore s c (fun k => { k with mq := l })) c m)

/-! ## Remote commands (R310, R311) -/

/-- A command block breaks R296 or R298 (R310). DESIGN CHOICE: log entries 19, 40. -/
def remoteBad (maxRows : Nat) (coRes : Bool) (r : RemoteCmd) : Bool :=
  let ring := decide (r.func / 2 % 2 = 1)
  let prod := fun (funcs mods : Nat) =>
    decide (funcs ≤ r.func) || decide (mods ≤ r.mod) || panelsBad (decide (r.major = 1)) ring maxRows r.da r.db || (ring && !coRes)
  r.malformed || (match r.major with
    | 0 => prod 4 2
    | 1 => prod 4 1
    | 2 => prod 32 2
    | 3 => prod 4 3
    | 4 => decide (1 < r.func) || decide (r.mod ≠ 0) || decide (r.db ≠ 0)
    | _ => true)

/-- The operands of a block that passes those checks lie in the executing core's own scratchpad (R296, R302, R310). DESIGN CHOICE: log entry 40. -/
def remotePlaced (c : CoreId) (t : Thread) (r : RemoteCmd) : Bool :=
  let width := (nfFmt (nfAt t.regs (panelNf r.da))).map (fun f => f.width)
  let g := geoOf r.major r.mod (width.getD 8)
  let panel := fun (d : Dword) => (ownSpad c (panelLine d) g.bytes).isSome
  if r.major = 4 then decide (r.func = 0) || (decide (r.da.toNat % 128 = 0) && (ownSpad c r.da 1024).isSome)
  else panel r.da && (decide (r.func / 2 % 2 = 1) || panel r.db)

/-- The operation that a block names. -/
def remoteOp (r : RemoteCmd) : MOp := if r.major = 4 then (if r.func = 0 then .zero else .load) else .product r.major r.func r.mod

/-- REMOTE_COMMAND_ARRIVAL (R310, R311): after those that its issuer sent to the target before it; one that finds the queue full stays at the hub (R291).
A holder of another grid is no holder. DESIGN CHOICE: log entry 40. -/
def execRemoteCommandArrival (k : Nat) (s : State) : Host.Outcome State Fault Refusal :=
  match s.remotes[k]? with
  | none => .next s
  | some r =>
    if (s.remotes.take k).any (fun x => decide (x.who.core = r.who.core ∧ x.target = r.target)) then .next s else
    let s1 := { s with remotes := s.remotes.eraseIdx k }
    let core := getCore s1 r.target
    let fail := fun (cause : Nat) => Host.Outcome.next (remoteFail s1 r.who cause r.block r.flag r.no)
    match core.grant with
    | none => fail 5
    | some g =>
      match getT s1 r.target g.slot with
      | none => fail 5
      | some t =>
        if t.gslot ≠ r.who.gslot ∨ g.away.isSome ∨ t.halted = true ∨ g.key ≠ r.key ∨ g.mask / 2 ^ r.tile % 2 = 0 then fail 5
        else if remoteBad core.maxRows (coResident s1 r.target t) r then fail 7
        else if !remotePlaced r.target t r then fail 1
        else if 8 ≤ core.mq.length then .next s
        else
          let m : MCmd := {
            who := r.who, slot := g.slot, seq := r.no, remote := some (r.block, r.flag), tile := r.tile, op := remoteOp r, da := r.da, db := r.db,
            nfA := 0, nfB := 0, started := false, res := none }
          .next (setCore s1 r.target { core with mq := core.mq ++ [m] })

end Sys2Proof.Machine
end

