-- ==== Sys2Proof/Machine/Weir.lean ====
section
/-!
DEFINITION. The weirs' turns (spec/16, R390 to R395): placing, ageing, eviction and restore.
-/
namespace Sys2Proof.Machine

/-! ## Restore (R48, R375, R390, R394) -/

/-- What a parked thread of an evicted group waits for is true now (R394); one parked as its image had it is asked for again when it is back. -/
def watchMet (s : State) (w : Watch) : Bool :=
  let g := some w.gslot
  let pid := match getGrid s w.pkg w.gslot with
    | some x => x.pid
    | none => 0
  match w.on with
  | .flag a n => (pollWord s (watchWho s w) a (.weir (.grid w.gslot))).2.any (fun v => reached v n)
  | .root a => decide ((pollWord s (watchWho s w) a (.weir (.grid w.gslot))).2 = some fullWeight)
  | .line l => !lineEmpty s g l
  | .inbox => s.redirects.any (fun r => decide (r.pkg = w.pkg ∧ r.core = w.core ∧ r.gslot = w.gslot) && !r.recs.isEmpty)
  | .ring => (ringFree (getHub s w.pkg (clusterOf w.core))).isSome
  | .heap => (heapFree s w.pkg pid (clusterOf w.core)).isSome
  | .barWait u _ | .barArrive u _ => s.reelRel.any (fun m => decide (m.pkg = w.pkg ∧ m.src = w.core ∧ m.unit = u ∧ m.gslot = g))
  | .mailbox => false
  | .restored => true

/-- An evicted group whose wait has become true (R394). One that PREEMPT saved is not the weir's to restore. DEDUCED: log entry 59. -/
def restorableNow (s : State) (p gs : Nat) (r : Group) : Bool :=
  r.out && r.alloc.isSome && (r.restorable || s.watches.any (fun w => decide (w.pkg = p ∧ w.gslot = gs ∧ w.index = r.index) && watchMet s w))

/-- The redirect entry of a crew that is off its core. -/
def crewRedirect (s : State) (p n gs crew : Nat) : Option Redirect :=
  s.redirects.find? (fun r => decide (r.pkg = p ∧ r.core = n ∧ r.gslot = gs ∧ r.crew = crew))

/-- A crew's image can go back: its core holds the grid's tenancy or no thread, the slots of its threads are FREE, no other crew of the core holds
reel units that it needs (R64), every result has landed, and no other grid has the core reserved (R375, R398). -/
def canReturn (s : State) (p : Nat) (r : Redirect) (h : Header) : Bool :=
  let k := getCore s { pkg := p, n := r.core }
  let slots := ((membersOf s r h).filter (fun a => !imgTrapped s a)).map (imgSlot s)
  let mine := decide (k.tenancy = some r.gslot)
  (mine || noThreads k) && (!h.reel || !mine || k.reel.toList.all (fun x => x.owner.isNone)) && slots.all (fun i => ((k.slots[i]?).join).isNone) && (membersOf s r h).all (imgSettled s) &&
    cmdRoom s { pkg := p, n := r.core } (membersOf s r h) &&
    (match reservedFor s p r.core with
     | some x => decide (x = r.gslot)
     | none => true)

/-- A group's crews can all go back. -/
def canRestore (s : State) (p gs : Nat) (g : Grid) (r : Group) : Bool :=
  r.crews.all (fun x => match crewRedirect s p x.core gs x.crew with
    | some y => canReturn s p y g.hdr
    | none => false)

/-- The segment of a READY thread that its core does not hold is fetched for it, where the load overlaps no segment in use (R391). DESIGN CHOICE: log entry 60. -/
def fetchFor (s : State) (c : CoreId) (seg : Nat) (g : Grid) : State :=
  let k := getCore s c
  if isResident k seg || isPending k seg then s
  else
    let item := if seg = 0 then some (0, g.hdr.baseSize, 0x40) else (g.hdr.segs.find? (fun e => decide (e.1 = seg))).map (fun e => e.2)
    match item with
    | none => s
    | some (load, size, image) =>
      let busy := (List.range 16).filterMap (fun i => ((k.slots[i]?).join).bind (fun t => if t.seg = seg then none else some (segBounds k t.seg)))
      let busy := if seg = 0 then busy else segBounds k 0 :: busy
      if busy.any (segsMeet (load, size)) then s
      else
        let l : SegLoad := {
          era := k.era, who := none, seg := { id := seg, load := load, size := size }, image := dw (g.khdr + image), pid := g.pid, asid := g.asid, flag := 0,
          note := false }
        modCore s c (fun x => { x with resident := x.resident.filter (fun y => !segsMeet (load, size) (y.load, y.size)), loads := x.loads ++ [l] })

/-- The base segment that a core has lost (R422), and the segment of every thread of a core that does not hold it. -/
def fetchMissing (s : State) (c : CoreId) : State :=
  let s0 := match ((getCore s c).tenancy).bind (getGrid s c.pkg) with
    | some g => fetchFor s c 0 g
    | none => s
  (List.range 16).foldl (fun s i => match getT s c i with
    | some t => (match gridOf s c t with
      | some g => fetchFor s c t.seg g
      | none => s)
    | none => s) s0

/-- Crews put back on their cores (R375), their cores made ready for the grid first. -/
def returnCrews (s : State) (p gs : Nat) (g : Grid) (bs : List Byte) (l : List Redirect) : State :=
  l.foldl (fun s r =>
    let c : CoreId := { pkg := p, n := r.core }
    fetchMissing (restoreCrew (readyCore s p gs g bs r.core) c g r) c) s

/-- An evicted group restored to its own cores (R48, R375, R377), which is a turn (R392): its allocation and its watches are gone. -/
def restoreGroup (s : State) (p d gs : Nat) (g : Grid) (r : Group) : State :=
  let l := r.crews.filterMap (fun x => crewRedirect s p x.core gs x.crew)
  let cores := l.map (fun x => x.core)
  let asleep := asleepOf s p cores
  if asleep ≠ [] then asleep.foldl (fun s k => wakeCluster s p k) s
  else match baseCode s p d gs g cores with
    | .wait s1 => s1
    | .bad s1 a => reportErr s1 p (weirHub d) (errEntry 3 1 (weirHub d) (cores.headD 0) 1 a.toNat 0)
    | .code s1 bs =>
      let s2 := returnCrews s1 p gs g bs l
      let s3 := { s2 with watches := s2.watches.filter (fun w => !(decide (w.pkg = p ∧ w.gslot = gs ∧ w.index = r.index))) }
      let s4 := modGrid s3 p gs (fun g => { g with pendSince := s.clock, groups := g.groups.map (fun x =>
        if x.index = r.index then { x with out := false, alloc := none, since := s.clock, restorable := false } else x) })
      tookTurn s4 p d gs g false

/-! ## Turns (R392) -/

/-- A turn: the grid, and the group to restore or the place of its next unit. -/
inductive WTurn where
  | restore (gs : Nat) (r : Group)
  | place (gs : Nat) (spots : List Spot)
deriving DecidableEq, Repr, Inhabited

/-- The die of a group. -/
def groupDie (r : Group) : Nat := match r.crews with | x :: _ => dieOf x.core | [] => 0

/-- A grid has an index to issue: RUNNING and not co-resident. -/
def hasPending (g : Grid) : Bool := decide (g.st = .running) && !coResGrid g && decide (g.next < g.gcount)

/-- A grid's groups may be restored: not while it is halted. -/
def mayRestore (g : Grid) : Bool := match g.st with | .running | .draining | .faulted => true | _ => false

/-- The place of a grid's turn in the order of R392, less coming first: priority, restores, then the rotation in GSLOT. -/
def turnKey (s : State) (p d gs : Nat) (g : Grid) (placing : Bool) : Nat :=
  let last := (getPkg s p).lastGrid[turnAt d g placing]?.getD 254
  (3 - rank g) * 512 + placing.toNat * 256 + (gs + 254 - last) % 255

/-- What the weir of a die can do now, each with its place in the order of R392. -/
def candidates (s : State) (p d : Nat) : List (Nat × WTurn) :=
  (List.range 255).flatMap (fun gs => match getGrid s p gs with
    | none => []
    | some g =>
      let rs := if mayRestore g then
          (match g.groups.find? (fun r => decide (groupDie r = d) && restorableNow s p gs r && canRestore s p gs g r) with
           | some r => [(turnKey s p d gs g false, WTurn.restore gs r)]
           | none => [])
        else []
      let ps := if hasPending g then
          (match offer s p gs g with
           | some (e, x) => if e = d then [(turnKey s p d gs g true, WTurn.place gs x)] else []
           | none => [])
        else []
      rs ++ ps)

/-- The first of a list by its key. -/
def firstBy {α : Type} (l : List (Nat × α)) : Option α :=
  (l.foldl (fun (b : Option (Nat × α)) x => match b with
    | none => some x
    | some y => if x.1 < y.1 then some x else some y) none).map (fun x => x.2)

/-- GROUP_PLACEMENT (R390, R392): the weir of a die places a group where that is its turn. -/
def execGroupPlacement (pkg die : Nat) (s : State) : Host.Outcome State Fault Refusal :=
  let s1 := updateReserve s pkg
  match firstBy (candidates s1 pkg die) with
  | some (.place gs x) => .next (placeUnit s1 pkg gs die x)
  | _ => .next s1

/-- GROUP_RESTORE (R392, R394): the weir of a die restores a group where that is its turn. -/
def execGroupRestore (pkg die : Nat) (s : State) : Host.Outcome State Fault Refusal :=
  let s1 := updateReserve s pkg
  match firstBy (candidates s1 pkg die) with
  | some (.restore gs r) => (match getGrid s1 pkg gs with
    | some g => .next (restoreGroup s1 pkg die gs g r)
    | none => .next s1)
  | _ => .next s1

/-- AGEING_PROMOTION (R392): a grid with a group pending for 2^20 cycles is raised until it places one. -/
def execAgeingPromotion (pkg gslot : Nat) (s : State) : Host.Outcome State Fault Refusal :=
  .next (modGrid s pkg gslot (fun g => { g with raised := g.raised || (hasPending g && decide (g.pendSince + 2 ^ 20 ≤ s.clock)) }))

/-! ## Eviction (R47, R377, R393 to R395) -/

/-- A thread is parked and nothing else holds it. -/
def isParked (t : Thread) : Bool := (match t.run with | .parked _ _ => true | _ => false) && !t.halted && t.trap.isNone

/-- The threads of a group's crews, those without a group among them. -/
def groupThreads (s : State) (p gs : Nat) (r : Group) : List Thread :=
  r.crews.flatMap (fun x =>
    let k := getCore s { pkg := p, n := x.core }
    (crewSlots k gs x.crew).filterMap (fun i => (k.slots[i]?).join))

/-- A reel message of the group is still on its way. -/
def reelBusy (s : State) (p gs : Nat) (r : Group) : Bool :=
  let mine := fun (m : ReelMsg) => decide (m.pkg = p ∧ m.gslot = some gs) && r.crews.any (fun x => decide (x.core = m.src))
  s.reelRel.any mine || s.reelArr.any (fun m => mine m && (reelNext m.reg m.at_).isSome)

/-- The images of the victims have room (R48, R377, R393): each finds its place in the eviction pool beside those before it, and no core has more than
16 redirect entries. -/
def imagesFit (s : State) (p : Nat) : List (Nat × Group) → State → Bool
  | [], _ => true
  | (gs, r) :: l, s1 => match getGrid s p gs with
    | none => false
    | some g =>
      let total := needOf s p (r.crews.map (fun x => (gs, x.core, x.crew)))
      match poolFit s1 p g.pid total with
      | none => false
      | some off =>
        let s2 := modGrid s1 p gs (fun g => { g with groups := g.groups.map (fun x => if x.index = r.index then { x with alloc := some (off, total) } else x) })
        r.crews.all (fun x => decide ((s1.redirects.filter (fun y => decide (y.pkg = p ∧ y.core = x.core))).length < 16)) &&
          imagesFit s p l { s2 with redirects := s2.redirects ++ r.crews.map (fun x =>
            { pkg := p, core := x.core, gslot := gs, crew := x.crew, base := 0, size := 0, image := 0, bitsAt := 0, dataAt := 0, recs := [], home := [],
              eras := [] }) }

/-- A group may be evicted for one of a rank (R47, R48, R393), and its images have room. DEDUCED: log entry 59. -/
def evictable (s : State) (p gs : Nat) (g : Grid) (r : Group) (forRank : Nat) : Bool :=
  let ts := groupThreads s p gs r
  mayRestore g && !coResGrid g && !r.out && decide (rank g ≤ forRank) && decide (r.since + 4096 ≤ s.clock) && !ts.isEmpty && ts.all isParked &&
    !reelBusy s p gs r && r.crews.all (fun x => (crewRedirect s p x.core gs x.crew).isNone) && imagesFit s p [(gs, r)] s

/-- Since when a group has been evictable. -/
def evictableSince (s : State) (p gs : Nat) (r : Group) : Nat := (groupThreads s p gs r).foldl (fun m t => Nat.max m t.parkedAt) (Nat.max r.leftAt r.since)

/-- The groups on a die that may be evicted, in the order of R393: lowest priority, then longest evictable. DEDUCED: log entry 59. -/
def victims (s : State) (p d forRank : Nat) : List (Nat × Group) :=
  let l := (List.range 255).flatMap (fun gs => match getGrid s p gs with
    | none => []
    | some g => (g.groups.filter (fun r => decide (groupDie r = d) && evictable s p gs g r forRank)).map (fun r => (rank g, evictableSince s p gs r, gs, r)))
  (sortBy (fun a b => decide (a.1 < b.1) || (decide (a.1 = b.1) && decide (a.2.1 ≤ b.2.1))) l).map (fun x => x.2.2)

/-- A crew's threads and reel units off its core; a core without a thread is no grid's (R393). -/
def dropCrew (s : State) (p gs n crew : Nat) : State :=
  modCore s { pkg := p, n := n } (fun k =>
    let k1 := (crewSlots k gs crew).foldl (fun k i => setSlot k i none) k
    let k2 := { k1 with reel := k1.reel.map (fun r => if r.owner = some crew then { Reel.reset with era := r.era } else r) }
    if noThreads k2 then { k2 with tenancy := none } else k2)

/-- The cores as they would be without some groups. -/
def without (s : State) (p : Nat) (l : List (Nat × Group)) : State :=
  l.foldl (fun s x => x.2.crews.foldl (fun s y => dropCrew s p x.1 y.core y.crew) s) s

/-- A group that has no room: a grid's next unit, or a group to restore. -/
inductive Wants where
  | place (gs : Nat)
  | restore (gs : Nat) (r : Group)
deriving DecidableEq, Repr, Inhabited

/-- It has room on a die. -/
def hasRoom (s : State) (p d : Nat) (w : Wants) : Bool :=
  match w with
  | .place gs => (match getGrid s p gs with
    | some g => (findSet s p gs g d).isSome
    | none => false)
  | .restore gs r => (match getGrid s p gs with
    | some g => canRestore s p gs g r
    | none => false)

/-- What waits for room on a die, in the order of turns, with its rank. -/
def wanting (s : State) (p d : Nat) : List (Nat × Nat × Wants) :=
  (List.range 255).flatMap (fun gs => match getGrid s p gs with
    | none => []
    | some g =>
      let rs := if mayRestore g then
          ((g.groups.filter (fun r => decide (groupDie r = d) && restorableNow s p gs r && !canRestore s p gs g r)).take 1).map (fun r =>
            (turnKey s p d gs g false, rank g, Wants.restore gs r))
        else []
      let ps := if hasPending g && (offer s p gs g).isNone then [(turnKey s p d gs g true, rank g, Wants.place gs)] else []
      rs ++ ps)

/-- The fewest victims, taken in order, that leave room and whose images have room; none where all of them do not. Those that turn out not to be needed
are dropped from the last on, so that the ones evicted come first in the order of R393. DEDUCED: log entry 59. -/
def enough (s : State) (p d : Nat) (w : Wants) : List (Nat × Group) → List (Nat × Group) → Option (List (Nat × Group))
  | [], _ => none
  | v :: l, got =>
    let now := got ++ [v]
    if hasRoom (without s p now) p d w then
      let few := now.reverse.foldl (fun (keep : List (Nat × Group)) x =>
        let rest := keep.filter (fun y => decide (y ≠ x))
        if hasRoom (without s p rest) p d w then rest else keep) now
      if imagesFit s p few s then some few else enough s p d w l now
    else enough s p d w l now

/-- A group saved into an allocation of the eviction pool (R373, R377), with a watch for each of its parked threads (R394); none where the
pool lacks room. DEDUCED: log entry 59. -/
def evictGroup (s : State) (p gs : Nat) (r : Group) : Option State :=
  match getGrid s p gs with
  | none => none
  | some g =>
    let total := needOf s p (r.crews.map (fun x => (gs, x.core, x.crew)))
    match poolFit s p g.pid total with
    | none => none
    | some off =>
      let base := poolPhys s p g.pid + off
      let watches := r.crews.flatMap (fun x =>
        let k := getCore s { pkg := p, n := x.core }
        (crewSlots k gs x.crew).filterMap (fun i => ((k.slots[i]?).join).bind (fun t => match t.run with
          | .parked w _ => some ({ pkg := p, gslot := gs, index := r.index, core := x.core, on := w } : Watch)
          | _ => none)))
      let saved := r.crews.foldl (fun (y : State × Nat) x =>
        let z := saveCrew y.1 { pkg := p, n := x.core } gs x.crew g.level g.hdr (homeSlots y.1 p gs x.core x.crew) y.2
        (z.1, y.2 + z.2)) (s, base)
      let s1 := writeNat saved.1 none saved.2 8 0
      let s2 := without s1 p [(gs, r)]
      let s3 := modGrid s2 p gs (fun g => { g with groups := g.groups.map (fun x =>
        if x.index = r.index then { x with out := true, alloc := some (off, total), restorable := false } else x) })
      some { s3 with watches := s3.watches ++ watches }

/-- EVICTION (R393): for the first group that has no room and would have it without some evictable groups, those groups are saved, all or none. -/
def execEviction (pkg die : Nat) (s : State) : Host.Outcome State Fault Refusal :=
  let s1 := updateReserve s pkg
  let l := (wanting s1 pkg die).filterMap (fun x => (enough s1 pkg die x.2.2 ((victims s1 pkg die x.2.1).filter (fun v => match x.2.2 with
    | .restore gs r => decide (v ≠ (gs, r))
    | .place _ => true)) []).map (fun vs => (x.1, vs)))
  match firstBy l with
  | none => .next s1
  | some vs => .next ((vs.foldl (fun (o : Option State) v => o.bind (fun s => evictGroup s pkg v.1 v.2)) (some s1)).getD s1)

end Sys2Proof.Machine
end

