-- ==== Sys2Proof/Machine/RunQueue.lean ====
section
/-!
DEFINITION. The run queues of the clusters (R54 to R56, R391, R425).
-/
namespace Sys2Proof.Machine

/-- The head record (R54): the earliest-appended of the highest PRIO. -/
def ringHead (h : Hub) : Option RingEnt :=
  h.ring.foldl (fun (b : Option RingEnt) e => match b with
    | none => some e
    | some x => if x.prio < e.prio ∨ (x.prio = e.prio ∧ e.order < x.order) then some e else b) none

/-- A record leaves the ring: its slot is free. -/
def dropHead (s : State) (p k : Nat) (e : RingEnt) : State :=
  modHub s p k (fun h => { h with ring := h.ring.filter (fun x => decide (x.slot ≠ e.slot)) })

/-- A malformed head record (R56, R425): removed and logged; the grid that it names, if live, counts one less and its DONE carries INC. DESIGN CHOICE: log entry 60. -/
def dropMalformed (s : State) (p k : Nat) (e : RingEnt) (gs : Nat) : State :=
  let s1 := dropHead (writeNat s none (ringAt p k e.slot + 63) 1 0) p k e
  let live := match getGrid s p gs with
    | some g => liveOf g.st
    | none => false
  let s2 := if live then modGrid (decLive s1 p (some gs)) p gs (fun g => { g with failed := true }) else s1
  reportErr s2 p k (errEntry 8 1 k 0 1 (poolBase k + 0x3FC000 + 64 * e.slot) 0)

/-- RUN_QUEUE_PICKUP (R55, R56): an eligible core, in rotation by position, picks up the head record and starts its thread. DESIGN CHOICE: log entry 28. -/
def execRunQueuePickup (pkg cluster : Nat) (s : State) : Host.Outcome State Fault Refusal :=
  let h := getHub s pkg cluster
  match ringHead h with
  | none => .next s
  | some e =>
    let at_ := ringAt pkg cluster e.slot
    let b := readNat s none at_ 64
    let r := CRec.ofBits b
    if !crecOk b then .next (dropMalformed s pkg cluster e r.gslot)
    else match getGrid s pkg r.gslot with
      | none => .next s
      | some g =>
        let place := if g.st = .halted then none else (rotation h.pickLast).findSome? (fun i =>
          (takesThread s pkg (16 * cluster + i) r.gslot g.hdr r.seg).map (fun sl => (i, sl)))
        match place with
        | none => .next s
        | some (i, sl) =>
          let t := newThread g r.gslot sl r.seg r.pc r.args r.frame r.weight r.domain 0xFFFFFFFF r.tid 0 r.prio
          let s1 := dropHead (writeNat s none (at_ + 63) 1 0) pkg cluster e
          let s2 := modHub s1 pkg cluster (fun h => { h with pickLast := i })
          .next (setT s2 { pkg := pkg, n := 16 * cluster + i } sl (some t))

/-- The core of lowest position that admits a load of a segment: the grid's tenancy, a FREE slot, and nothing in use overlapped (R55). DEDUCED: log entry 57. -/
def loadCore (s : State) (p k gs : Nat) (h : Header) (load size : Nat) : Option Nat :=
  ((List.range 16).map (fun i => 16 * k + i)).find? (fun n =>
    let c := getCore s { pkg := p, n := n }
    decide (c.tenancy = some gs) && (freeSlotOf c h).isSome && !(busyRanges c).any (segsMeet (load, size)))

/-- HEAD_SEGMENT_LOAD (R55, R391): the weir loads the segment of the head record where no core of the cluster holds it, and the segments
that threads of the cluster's cores have lost. DESIGN CHOICE: log entry 60. -/
def execHeadSegmentLoad (pkg cluster : Nat) (s : State) : Host.Outcome State Fault Refusal :=
  let cores := (List.range 16).map (fun i => 16 * cluster + i)
  let s1 := cores.foldl (fun s n => fetchMissing s { pkg := pkg, n := n }) s
  match ringHead (getHub s1 pkg cluster) with
  | none => .next s1
  | some e =>
    let b := readNat s1 none (ringAt pkg cluster e.slot) 64
    let r := CRec.ofBits b
    let held := cores.any (fun n => let k := getCore s1 { pkg := pkg, n := n }; decide (k.tenancy = some r.gslot) && (isResident k r.seg || isPending k r.seg))
    if !crecOk b || held then .next s1
    else match getGrid s1 pkg r.gslot with
      | none => .next s1
      | some g => match g.hdr.segs.find? (fun x => decide (x.1 = r.seg)) with
        | none => .next s1
        | some (_, load, size, _) => match loadCore s1 pkg cluster r.gslot g.hdr load size with
          | some n => .next (fetchFor s1 { pkg := pkg, n := n } r.seg g)
          | none => .next s1

end Sys2Proof.Machine
end

