-- ==== Sys2Proof/Machine/Traps.lean ====
section
/-!
DEFINITION. Traps that waited (R150, R347, R365), halt, save and resume (R369 to R375), and IMGCTL (R376).
-/
namespace Sys2Proof.Machine

/-! ## Traps (R150, R347, R364, R365) -/

/-- A trap that waited as at a switch marker can be taken now: whether it is, and whether the user handler takes it. DESIGN CHOICE: log entry 22. -/
def trapReady (s : State) (c : CoreId) (slot : Nat) : Option (TrapInfo × Bool) :=
  match getT s c slot with
  | some t => (match t.trap with
    | some i => if t.run = .held .trap ∧ t.out = [] ∧ t.acc = [] ∧ t.halted = false ∧ (getCore s c).halted = false then some (i, userHandled s c t i) else none
    | none => none)
  | none => none

/-- USER_TRAP_ENTRY (R347, R364). -/
def execUserTrapEntry (c : CoreId) (slot : Nat) (s : State) : Host.Outcome State Fault Refusal :=
  match trapReady s c slot with
  | some (i, true) => .next (enterTrap s c slot i)
  | _ => .next s

/-- TRAP_DELIVERY (R365): to privileged software; it waits, HELD, while the eviction pool lacks room. -/
def execTrapDelivery (c : CoreId) (slot : Nat) (s : State) : Host.Outcome State Fault Refusal :=
  match trapReady s c slot with
  | some (i, false) => .next (enterTrap s c slot i)
  | _ => .next s

/-- The trap queue of a partition has a free entry at an address that the partition reaches (R365). DESIGN CHOICE: log entry 50. -/
def trapEntryAt (s : State) (p pid : Nat) : Option Nat :=
  let b := block s p pid
  let size := 2 ^ (fld b.trapq 51 48 + 4)
  let a := fld b.trapq 47 6 * 64 + 64 * (b.tqtail % size)
  if (b.tqtail + 2 ^ 32 - b.tqhead.toNat % 2 ^ 32) % 2 ^ 32 < size ∧ devOk s p pid a = true then some a else none

/-- TRAP_RECORD_APPEND (R365 steps 3 and 4): the oldest record that waits, then the message of its core's hub; a full queue or a full notification queue keeps it. DESIGN CHOICE: log entry 50. -/
def execTrapRecordAppend (pkg pid : Nat) (s : State) : Host.Outcome State Fault Refusal :=
  let l := (getPkg s pkg).trapWaits
  match l.find? (fun x => decide (x.pid = pid)) with
  | none => .next s
  | some x =>
    let i := l.findIdx (fun x => decide (x.pid = pid))
    let hub := clusterOf (x.rcd.toNat / 2 ^ 384 % 2 ^ 13)
    let send := fun (s : State) (at_ : Nat) =>
      if noteRoom s pkg pid hub then
        notifyPart (modPkg s pkg (fun k => { k with trapWaits := k.trapWaits.eraseIdx i })) pkg pid hub 4 pid (x.gslot * 2 ^ 32 + at_)
      else modPkg s pkg (fun k => { k with trapWaits := k.trapWaits.set i { x with sent := some at_ } })
    match x.sent with
    | some at_ => .next (send s at_)
    | none => match trapEntryAt s pkg pid with
      | none => .next s
      | some a =>
        let tail := (block s pkg pid).tqtail
        let s1 := writeNat s none (devPhys pkg a) 64 x.rcd.toNat
        .next (send (modBlock s1 pkg pid (fun b => { b with tqtail := (tail + 1) % 2 ^ 32 })) tail)

/-! ## Halt and save (R369, R370, R373) -/

def modPreempt (s : State) (p pid : Nat) (f : Preempt → Preempt) : State :=
  modPkg s p (fun k => { k with preempts := k.preempts.map (fun x => if x.pid = pid then f x else x) })

def dropPreempt (s : State) (p pid : Nat) : State :=
  modPkg s p (fun k => { k with preempts := k.preempts.filter (fun x => decide (x.pid ≠ pid)) })

def getPreempt (s : State) (p pid : Nat) : Option Preempt := (getPkg s p).preempts.find? (fun x => decide (x.pid = pid))

def setPstat (s : State) (p pid st need err : Nat) : State := modBlock s p pid (fun b => { b with pstat := pstatOf st need err })

/-- A thread halted, with the results that are outstanding at that moment (R151). -/
def Thread.halt (t : Thread) : Thread :=
  if t.halted then t else { t with halted := true, haltOuts := (listed t).map (fun o => (o.seq, o.dst)) }

/-- The threads of crews halted: none of them issues again before its image is restored. -/
def haltCrews (s : State) (p : Nat) (l : List (Nat × Nat × Nat)) : State :=
  l.foldl (fun s x =>
    let c : CoreId := { pkg := p, n := x.2.1 }
    (crewSlots (getCore s c) x.1 x.2.2).foldl (fun s i => modT s c i Thread.halt) s) s

/-- A halt reaches its target (R369): the check on the area is made on the crews found there, and a grid that is halted whole is HALTED. DESIGN CHOICE: log entry 48. -/
def startHalt (s : State) (p pid : Nat) (q : Preempt) : State :=
  let target := haltTarget s p pid q.op q.gslot q.core
  let need := needOf s p target
  if (block s p pid).pasize.toNat < need then dropPreempt (setPstat s p pid q.was need 1) p pid
  else
    let grids := if q.op = 0 then [q.gslot] else if q.op = 1 then liveGrids s p pid else []
    let s1 := grids.foldl (fun s g => modGrid s p g (fun x => { x with before := if x.st = .halted then x.before else x.st, st := .halted })) s
    modPreempt (haltCrews s1 p target) p pid (fun x => { x with todo := target, at_ := 1 })

/-- The frame of the three halts: a request of an OP that has not begun. -/
def haltEvent (s : State) (p pid : Nat) (ok : Preempt → Bool) : Host.Outcome State Fault Refusal :=
  match getPreempt s p pid with
  | some q => .next (if q.at_ = 0 ∧ ok q = true then startHalt s p pid q else s)
  | none => .next s

/-- PREEMPT_HALT_GRID (R369, OP 0). DEDUCED: log entry 47. -/
def execPreemptHaltGrid (pkg pid gslot : Nat) (s : State) : Host.Outcome State Fault Refusal :=
  haltEvent s pkg pid (fun q => decide (q.op = 0 ∧ q.gslot = gslot))

/-- PREEMPT_HALT_PARTITION (R369, OP 1). -/
def execPreemptHaltPartition (pkg pid : Nat) (s : State) : Host.Outcome State Fault Refusal := haltEvent s pkg pid (fun q => decide (q.op = 1))

/-- PREEMPT_HALT_CREWS (R369, OP 2). -/
def execPreemptHaltCrews (pkg pid gslot core : Nat) (s : State) : Host.Outcome State Fault Refusal :=
  haltEvent s pkg pid (fun q => decide (q.op = 2 ∧ q.gslot = gslot ∧ q.core = core))

/-- The GSLOT that the messages of a pre-emption carry: 0xFF for OP 1, and for a resume of more than one grid. DESIGN CHOICE: log entry 48. -/
def preemptGslot (q : Preempt) : Nat :=
  match q.op with
  | 1 => 0xFF
  | 3 => (match q.todo with
    | x :: l => if l.all (fun y => decide (y.1 = x.1)) then x.1 else 0xFF
    | [] => 0xFF)
  | _ => q.gslot

/-- Words and reel messages on their way to a core, or from it, for a grid. DEDUCED: log entry 47. -/
def inFlight (s : State) (p gs n : Nat) : Bool :=
  s.nwords.any (fun w => decide (w.pkg = p ∧ w.gslot = gs ∧ w.dst = n)) ||
    s.reelRel.any (fun m => decide (m.pkg = p ∧ m.gslot = some gs ∧ m.src = n)) ||
    s.reelArr.any (fun m => decide (m.pkg = p ∧ m.gslot = some gs ∧ m.src = n) && (reelNext m.reg m.at_).isSome)

/-- The weir that answers a request for a partition, as a sender: the grid's lead weir, or that of the die of its lowest reach. DESIGN CHOICE: log entry 48. -/
def preemptWeir (s : State) (p : Nat) (q : Preempt) : Nat :=
  weirSender (match (if q.op = 0 ∨ q.op = 2 then getGrid s p q.gslot else none) with
    | some g => g.queue % 4
    | none => lowestFrom 16 0 (reaches s p q.pid) / 4)

/-- HALT_COMPLETE (R369, R370): what was in flight has landed, STATE becomes 2, and the message with top byte 0x01 is sent. -/
def execHaltComplete (pkg pid : Nat) (s : State) : Host.Outcome State Fault Refusal :=
  match getPreempt s pkg pid with
  | none => .next s
  | some q =>
    if q.at_ ≠ 1 ∨ q.op = 3 ∨ q.todo.any (fun x => inFlight s pkg x.1 x.2.1) = true ∨ noteRoom s pkg pid (preemptWeir s pkg q) = false then .next s
    else
      let s1 := setPstat (haltCrews s pkg q.todo) pkg pid 2 0 0
      .next (notifyPart (modPreempt s1 pkg pid (fun x => { x with at_ := 2 })) pkg pid (preemptWeir s pkg q) 1 pid (preemptGslot q * 2 ^ 32))

/-- The halted crews' images, one after the other from the area's base, and the closing dword (R373). -/
def saveAll (s : State) (p pid : Nat) (l : List (Nat × Nat × Nat)) : State :=
  let base := devPhys p (fld (block s p pid).parea 47 6 * 64)
  let r := l.foldl (fun (y : State × Nat) x => match getGrid y.1 p x.1 with
    | some g =>
      let z := saveCrew y.1 { pkg := p, n := x.2.1 } x.1 x.2.2 g.level g.hdr (homeSlots y.1 p x.1 x.2.1 x.2.2) y.2
      (z.1, y.2 + z.2)
    | none => y) (s, base)
  writeNat r.1 none r.2 8 0

/-- A group all of whose crews are off their cores is off its cores. -/
def markOut (s : State) (p gs : Nat) : State :=
  modGrid s p gs (fun g => { g with groups := g.groups.map (fun r =>
    if r.crews.all (fun x => isOffCore s p x.core gs x.crew) then { r with out := true } else r) })

/-- A thread of a halted crew has raised a trap, and an access before it is not accepted: which of them its image tells of is not known yet (R150, R152). -/
def trapOpen (s : State) (p : Nat) (x : Nat × Nat × Nat) : Bool :=
  let c : CoreId := { pkg := p, n := x.2.1 }
  (crewSlots (getCore s c) x.1 x.2.2).any (fun i => match getT s c i with
    | some t => t.trap.isSome && !t.acc.isEmpty
    | none => false)

/-- SAVE_COMPLETE (R369, R370): every image has been written, STATE becomes 3, and the message with top byte 0x02 is sent. -/
def execSaveComplete (pkg pid : Nat) (s : State) : Host.Outcome State Fault Refusal :=
  match getPreempt s pkg pid with
  | none => .next s
  | some q =>
    if q.at_ ≠ 2 ∨ q.todo.any (trapOpen s pkg) = true ∨ noteRoom s pkg pid (preemptWeir s pkg q) = false then .next s
    else
      let s1 := saveAll s pkg pid q.todo
      let s2 := (q.todo.map (fun x => x.1)).eraseDups.foldl (fun s g => markOut s pkg g) s1
      .next (notifyPart (dropPreempt (setPstat s2 pkg pid 3 0 0) pkg pid) pkg pid (preemptWeir s pkg q) 2 pid (preemptGslot q * 2 ^ 32))

/-! ## Resume (R375) -/

/-- The crew images of the pre-emption area, with the redirect entries that they are the images of; none for an image without one. -/
def areaImages (s : State) (p : Nat) : Nat → Nat → List (Option (Redirect × Nat))
  | 0, _ => []
  | n + 1, a =>
    let len := readNat s none a 4
    if len = 0 then []
    else
      let w := readNat s none (a + 8) 8
      (s.redirects.find? (fun r => decide (r.pkg = p ∧ r.image = a ∧ r.crew = w / 2 ^ 16 % 16 ∧ r.gslot = readNat s none (a + 5) 1))).map
        (fun r => (r, w % 2 ^ 13)) :: areaImages s p n (a + len)

/-- How far a crew has been moved, where its group's level lets it be (R375). DESIGN CHOICE: log entry 48. -/
def movedBy (level : Nat) (r : Redirect) (dest : Nat) : Option Int :=
  match level with
  | 2 => if posOf r.core = posOf dest then some ((clusterOf dest : Int) - clusterOf r.core) else none
  | 3 => if r.core % 512 = dest % 512 then some ((reachOf dest : Int) - reachOf r.core) else none
  | _ => some 0

/-- Every image is valid: its core lies in the partition, and all the crews of a cluster- or reach-level group have moved together: where one has moved, every one
of them is in the area. DESIGN CHOICE: log entry 48. -/
def areaOk (s : State) (p pid : Nat) (l : List (Option (Redirect × Nat))) : Bool :=
  let xs := l.filterMap id
  decide (l ≠ []) && l.all (fun o => o.isSome) && xs.all (fun x => match getGrid s p x.1.gslot with
    | some g => decide (g.pid = pid) && coreIn s p pid x.2 &&
        (match g.groups.find? (fun r => r.crews.any (fun y => decide (y.core = x.1.core ∧ y.crew = x.1.crew))) with
         | some r =>
           (movedBy g.level x.1 x.2).isSome &&
             (decide (g.level < 2) || decide (movedBy g.level x.1 x.2 = some 0) ||
               r.crews.all (fun z => xs.any (fun y => decide (y.1.gslot = x.1.gslot ∧ z.core = y.1.core ∧ z.crew = y.1.crew)))) && xs.all (fun y => !(decide (y.1.gslot = x.1.gslot) &&
             r.crews.any (fun z => decide (z.core = y.1.core ∧ z.crew = y.1.crew))) || decide (movedBy g.level y.1 y.2 = movedBy g.level x.1 x.2))
         | none => true)
    | none => false)

/-- A crew that goes back to another core than it left: its entry, its group and its trapped threads follow. -/
def moveCrew (s : State) (p : Nat) (r : Redirect) (dest : Nat) : State :=
  if r.core = dest then s
  else
    let s1 := { s with redirects := s.redirects.map (fun y => if y = r then
      { y with core := dest, base := p * 2 ^ 48 + spadBase dest + r.crew * r.size } else y) }
    let s2 := modGrid s1 p r.gslot (fun g => { g with groups := g.groups.map (fun x => { x with crews := x.crews.map (fun y =>
      if y.core = r.core ∧ y.crew = r.crew then { y with core := dest } else y) }) })
    modPkg s2 p (fun k => { k with trapImgs := k.trapImgs.map (fun t =>
      if t.core = r.core ∧ t.gslot = r.gslot ∧ t.crew = r.crew then { t with core := dest } else t) })

/-- A resume begins: HALTED grids go back to the state before the halt (R388). DESIGN CHOICE: log entry 48. -/
def startResume (s : State) (p pid : Nat) (l : List (Redirect × Nat)) : State :=
  let s1 := l.foldl (fun s x => moveCrew s p x.1 x.2) s
  let todo := l.map (fun x => (x.1.gslot, x.2, x.1.crew))
  let s2 := (todo.map (fun x => x.1)).eraseDups.foldl (fun s g => modGrid s p g (fun x => if x.st = .halted then { x with st := x.before } else x)) s1
  modPreempt s2 p pid (fun x => { x with todo := todo, at_ := 1 })

/-- One crew of a resume restored where its core can take it. -/
def resumeCrew (s : State) (p : Nat) (x : Nat × Nat × Nat) : Option State :=
  match getGrid s p x.1, crewRedirect s p x.2.1 x.1 x.2.2 with
  | some g, some r =>
    if canReturn s p r g.hdr then
      let asleep := asleepOf s p [x.2.1]
      if asleep ≠ [] then none
      else match baseCode s p (dieOf x.2.1) x.1 g [x.2.1] with
        | .code s1 bs =>
          let s2 := returnCrews s1 p x.1 g bs [r]
          some (modGrid s2 p x.1 (fun g => { g with groups := g.groups.map (fun y =>
            if y.crews.any (fun z => decide (z.core = x.2.1 ∧ z.crew = x.2.2)) then { y with out := false, since := s.clock } else y) }))
        | _ => none
    else none
  | _, _ => none

/-- What a crew that cannot be restored yet waits for has been set off: its cluster's wake, or its base segment's pages. -/
def resumeWait (s : State) (p : Nat) (x : Nat × Nat × Nat) : State :=
  match getGrid s p x.1 with
  | some g =>
    let asleep := asleepOf s p [x.2.1]
    if asleep ≠ [] then asleep.foldl (fun s k => wakeCluster s p k) s
    else (match baseCode s p (dieOf x.2.1) x.1 g [x.2.1] with
      | .wait s1 => s1
      | _ => s)
  | none => s

/-- PREEMPT_RESUME (R369, R375, OP 3): each crew of the area is restored when it can be; after the last, STATE 0 and the message with top byte
0x03. An area without a valid image gives ERR 4. DESIGN CHOICE: log entry 48. -/
def execPreemptResume (pkg pid : Nat) (s : State) : Host.Outcome State Fault Refusal :=
  match getPreempt s pkg pid with
  | none => .next s
  | some q =>
    if q.op ≠ 3 then .next s
    else if q.at_ = 0 then
      let l := areaImages s pkg 131072 (devPhys pkg (fld (block s pkg pid).parea 47 6 * 64))
      if areaOk s pkg pid l then .next (startResume s pkg pid (l.filterMap id))
      else .next (dropPreempt (setPstat s pkg pid q.was 0 4) pkg pid)
    else
      let left := q.todo.filter (fun x => isOffCore s pkg x.2.1 x.1 x.2.2)
      match left.findSome? (resumeCrew s pkg) with
      | some s1 => .next s1
      | none => match left with
        | x :: _ => .next (resumeWait s pkg x)
        | [] =>
          if noteRoom s pkg pid (preemptWeir s pkg q) then
            .next (notifyPart (dropPreempt (setPstat s pkg pid 0 0 0) pkg pid) pkg pid (preemptWeir s pkg q) 3 pid (preemptGslot q * 2 ^ 32))
          else .next s

/-! ## IMGCTL (R376) -/

/-- Whose image stands at an address: a trapped thread's (R365), or a thread's of a crew that is off its core. DESIGN CHOICE: log entry 49. -/
def imageOwner (s : State) (p pid a : Nat) : Option TrapImg :=
  ((getPkg s p).trapImgs.find? (fun t => decide (t.pid = pid ∧ t.at_ = a))).or
    (s.redirects.findSome? (fun r => match (if r.pkg = p then getGrid s p r.gslot else none) with
      | some g =>
        if g.pid = pid ∧ (membersOf s r g.hdr).contains a = true ∧ imgTrapped s a = false then
          some { pid := pid, at_ := a, alloc := none, gslot := r.gslot, core := r.core, crew := r.crew }
        else none
      | none => none))

/-- The thread image at an address, if it is well formed and every result has landed (R376). DESIGN CHOICE: log entry 49. -/
def trapImage (s : State) (p pid : Nat) (img : Nat) : Option (TrapImg × Grid) :=
  let a := devPhys p img
  match imageOwner s p pid a with
  | none => none
  | some t => match getGrid s p t.gslot with
    | none => none
    | some g =>
      let d0 := readNat s none a 8
      let d3 := readNat s none (a + 0x18) 8
      let ncmd := d3 / 2 ^ 40 % 2 ^ 8
      let ok := decide (d0 / 2 ^ 60 = 0) && (decide (d0 / 2 ^ 48 % 2 ^ 8 = 1) || decide (d0 / 2 ^ 48 % 2 ^ 8 = 2)) &&
        decide (d0 / 2 ^ 32 % 2 ^ 16 = 1) && decide (ncmd ≤ 8) && decide (d0 % 2 ^ 32 = imageLen { g := g.hdr.g, v := g.hdr.v, a := g.hdr.a } ncmd) &&
        decide (d3 / 2 ^ 32 % 2 ^ 8 = t.gslot) && decide (imgSlot s a < slotCapacity g.hdr) && imgSettled s a
      if ok then some (t, g) else none

/-- The operation that IMGCTL asked for has ended: ISTAT, and the image is no longer a trapped thread's where it was acted on. -/
def imgEnd (s : State) (p pid st : Nat) (t : Option TrapImg) : State :=
  let s1 := modBlock s p pid (fun b => { b with istat := dw st, imgreq := none })
  match t with
  | some x => modPkg s1 p (fun k => { k with trapImgs := k.trapImgs.filter (fun y => decide (y ≠ x)) })
  | none => s1

/-- IMGCTL_RESTORE (R376): TRAPPED is cleared and the thread takes its slot, when the grid's tenancy, its slot and its crew's region allow. The image of a
thread whose crew is off its core waits for the crew, whose resume places it (imgPlaced). DESIGN CHOICE: log entry 49. -/
def execImgctlRestore (pkg pid : Nat) (img : Dword) (s : State) : Host.Outcome State Fault Refusal :=
  if (block s pkg pid).imgreq ≠ some (1, img.toNat) then .next s
  else match trapImage s pkg pid img.toNat with
    | none => .next (imgEnd s pkg pid 2 none)
    | some (t, g) =>
      let c : CoreId := { pkg := pkg, n := t.core }
      let k := getCore s c
      let a := devPhys pkg img.toNat
      if g.st ≠ .halted ∧ k.tenancy = some t.gslot ∧ ((k.slots[imgSlot s a]?).join).isNone = true ∧
          isOffCore s pkg t.core t.gslot t.crew = false ∧ decide (k.mq.length + imgCmds s a ≤ 8) = true then
        let s1 := modDword s a (fun d => d - d / 2 ^ 56 % 2 * 2 ^ 56)
        .next (imgEnd (fetchMissing (restoreThread s1 c g t.crew a) c) pkg pid 0 (some t))
      else .next s

/-- After a thread of a crew that is off its core has ended: a resume passes its image over, and the crew's redirect entry goes where no thread of it
is left. DESIGN CHOICE: log entry 49. -/
def endImage (s : State) (p : Nat) (t : TrapImg) : State :=
  let s1 := modDword s t.at_ (fun d => d - d / 2 ^ 56 % 2 * 2 ^ 56 + 2 ^ 56)
  let left := fun (r : Redirect) => match getGrid s1 p t.gslot with
    | some g => g.groups.any (fun x => x.crews.any (fun y => decide (y.core = t.core ∧ y.crew = t.crew))) || (membersOf s1 r g.hdr).any (fun a => !imgTrapped s1 a)
    | none => false
  { s1 with redirects := s1.redirects.filter (fun r => !decide (r.pkg = p ∧ r.core = t.core ∧ r.gslot = t.gslot ∧ r.crew = t.crew) || left r) }

/-- IMGCTL_DISCARD (R376): the thread ends; its weight returns to the root, its remote withdrawn commands fail with CAUSE 0x1. DESIGN CHOICE: log entry 49. -/
def execImgctlDiscard (pkg pid : Nat) (img : Dword) (s : State) : Host.Outcome State Fault Refusal :=
  if (block s pkg pid).imgreq ≠ some (2, img.toNat) then .next s
  else match trapImage s pkg pid img.toNat with
    | none => .next (imgEnd s pkg pid 2 none)
    | some (t, g) =>
      let c : CoreId := { pkg := pkg, n := t.core }
      let x := readThread s c { g := g.hdr.g, v := g.hdr.v, a := g.hdr.a } g.hdr.net g.pid g.asid t.crew (devPhys pkg img.toNat)
      let s1 := x.2.2.foldl (fun s m => match m.remote with
        | some (b, f) => remoteFail s m.who 1 b f m.seq
        | none => s) s
      let s1 := dropCmds s1 { g := g.hdr.g, v := g.hdr.v, a := g.hdr.a } (devPhys pkg img.toNat)
      let s2 := decLive (leaveGroup (returnWeight s1 (whoOf c x.1) x.1.domain x.1.weight) c x.1 x.2.1) pkg (some t.gslot)
      .next (imgEnd (if isOffCore s2 pkg t.core t.gslot t.crew then endImage s2 pkg t else s2) pkg pid 0 (some t))

end Sys2Proof.Machine
end

