-- ==== Sys2Proof/Machine/Errors.lean ====
section
/-!
DEFINITION. Soft errors and links (spec/17 R420 to R426, spec/18 R438 to R440).
-/
namespace Sys2Proof.Machine

/-- Error entries that wait in a hub are appended in order, as far as there is room (R426). DESIGN CHOICE: log entry 63. -/
def drainErrs (s : State) (p cluster : Nat) : State :=
  let l := (getHub s p cluster).errs
  l.foldl (fun s e => reportErr s p cluster e) (modHub s p cluster (fun h => { h with errs := [] }))

/-- A dword that an uncorrectable error has struck (R422): every read of it fails until all its 8 bytes are written. -/
def strike (s : State) (a : Nat) : State := if s.poison.contains a then s else { s with poison := s.poison ++ [a] }

/-- The words of the instruction at a thread's PC. -/
def wordsAt (k : Core) (t : Thread) : List Half :=
  let ws := fetchWords k.imem t.pc 5
  (ws.take (readChain ws {}).2).map (BitVec.ofNat 16)

/-- A machine trap of class 8 (R362, R422): at the next instruction of the thread. Where a trap of that instruction waits already, the machine trap is
taken in its place, and the instruction raises its own when it issues again. DESIGN CHOICE: log entry 22. -/
def machineTrap (s : State) (c : CoreId) (slot : Nat) : State :=
  match getT s c slot with
  | none => s
  | some t =>
    let i : TrapInfo := { cls := clsMachine, cause := 1, addr := 0, aux := 0, pc := t.pc, seg := t.seg, words := wordsAt (getCore s c) t }
    if t.trap.isSome then setT s c slot (some { t with trap := some i }) else takeTrap s c slot i

/-- UNCORRECTABLE_ERROR (R422): an error is found at a place; every row but that of data, which reports when it is read, leaves an error entry.
An entry of a cache with parity is dropped, so that it is fetched again; a header is read again at every admission. DESIGN CHOICE: log entry 62. -/
def execUncorrectableError (pkg : Nat) (site : ErrSite) (s : State) : Host.Outcome State Fault Refusal :=
  let entry := fun (s : State) (src sev n addr : Nat) => reportErr s pkg (coreHub n) (errEntry src sev (coreHub n) n 1 addr 0)
  match site with
  | .data loc => .next (strike s (pkg * 2 ^ 48 + loc / 8 * 8))
  | .thread n slot => .next (machineTrap (entry s 4 2 n slot) { pkg := pkg, n := n } slot)
  | .crew n crew =>
    let c : CoreId := { pkg := pkg, n := n }
    let slots := (List.range 16).filter (fun i => match getT s c i with
      | some t => decide (t.crew = crew)
      | none => false)
    .next (slots.foldl (fun s i => machineTrap s c i) (entry s 4 2 n crew))
  | .imem n seg =>
    let c : CoreId := { pkg := pkg, n := n }
    let s1 := if isFp c then s else modCore s c (fun k =>
      if seg = 0 then { k with base := none } else { k with resident := k.resident.filter (fun x => decide (x.id ≠ seg)) })
    .next (entry s1 3 1 n seg)
  | .cacheEntry k => .next (reportErr (modHub s pkg k (fun h => { h with ranges := [], shard := [] })) pkg k (errEntry 4 1 k 0 1 0 0))
  | .tlbEntry stack k =>
    let hub := (stackHubs stack).headD 0
    let gone := ((getPkg s pkg).tlb.filter (fun t => decide (t.stack = stack)))[k]?
    .next (reportErr (modPkg s pkg (fun x => { x with tlb := x.tlb.filter (fun t => decide (some t ≠ gone)) })) pkg hub (errEntry 4 1 hub 0 1 0 0))
  | .headerEntry die => .next (reportErr s pkg (weirHub die) (errEntry 4 1 (weirHub die) 0 1 0 0))
  | .scrubbed loc => .next (poisonEntry (strike s (pkg * 2 ^ 48 + loc / 8 * 8)) (pkg * 2 ^ 48 + loc / 8 * 8))

/-- CORRECTED_ERROR_REPORT (R421, R426): the entries that wait, then, at most once per 2^20 cycles, one entry with the count. DESIGN CHOICE: log entry 62. -/
def execCorrectedErrorReport (pkg cluster : Nat) (s : State) : Host.Outcome State Fault Refusal :=
  let s1 := drainErrs s pkg cluster
  let h := getHub s1 pkg cluster
  let e := errEntry 1 0 cluster 0 h.corrected 0 0
  let told := fun (s : State) => modHub s pkg cluster (fun h => { h with corrected := 0, lastReport := some s.clock })
  let soon := match h.lastReport with
    | some at_ => decide (s1.clock < at_ + 2 ^ 20)
    | none => false
  if h.corrected = 0 ∨ h.errs ≠ [] ∨ soon = true then .next s1
  else match pidOfReach s1 pkg (reachOfCluster cluster) with
    | some pid => let r := appendErr s1 pkg pid cluster e; .next (if r.2 then told r.1 else s1)
    | none =>
      let k := getPkg s1 pkg
      .next (if k.errLog.length < 1024 then told (setPkg s1 pkg { k with errLog := k.errLog ++ [e] }) else s1)

/-- A physical address lies in a cluster's scratchpads or pool. -/
def inCluster (p cluster a : Nat) : Bool :=
  decide (a / 2 ^ 48 = p) && (match windowOf (a % 2 ^ 48) with
    | .spad n => decide (clusterOf n = cluster)
    | .pool k => decide (k = cluster)
    | _ => false)

/-- SCRUB_PASS (R420 to R422): corrected errors change nothing and are counted; a line with an uncorrectable one leaves an entry only. DESIGN CHOICE: log entry 62. -/
def execScrubPass (pkg cluster : Nat) (s : State) : Host.Outcome State Fault Refusal :=
  let s1 := (s.poison.filter (inCluster pkg cluster)).foldl poisonEntry s
  .next (modHub s1 pkg cluster (fun h => { h with corrected := h.corrected + Config.softErrors s.tick, scrubbed := s.clock }))

/-- The scrubber has passed over a cluster within its interval (R420), counted in the reference clock (R453). -/
def scrubInTime (s : State) (p cluster : Nat) : Bool := decide (s.clock ≤ (getHub s p cluster).scrubbed + 2 ^ 31)

/-- The hub of a link (R437), and for a mesh link of the hub that it leaves. -/
def linkHub (link : Nat) : Nat := if link < 8 then portCluster link else clusterAt ((link - 8) / 64 % 32) ((link - 8) / 4 % 16)

/-- An error entry of a link: SRC 7 on the fabric, 6 in the mesh, with the hub's coordinates (R426). DESIGN CHOICE: log entry 62. -/
def linkEntry (s : State) (p link sev : Nat) : State :=
  let k := linkHub link
  reportErr s p k (errEntry (if link < 8 then 7 else 6) sev k 0 1 (hubRow k * 2 ^ 8 + hubCol k) 0)

/-! ## Deliveries that are made again (R96, R423, R440) -/

/-- The links of a message's way, each with the package that it leaves (R14, R441). -/
def wayOf (j : Job4) : Nat → Nat → List (Nat × List Nat) → Nat → List (Nat × Nat)
  | p, a, [], b => (meshRoute (hubRow a) (hubCol a) (hubRow b) (hubCol b)).map (fun l => (p, l))
  | p, a, r :: l, b =>
    (meshRoute (hubRow a) (hubCol a) (hubRow (portCluster r.1)) (hubCol (portCluster r.1))).map (fun l => (p, l)) ++ (p, r.1) ::
      wayOf j (pkgAt j r.2) (portCluster (opposite r.1)) l b

/-- The package and hubs at which a request for an address ends; none where it leads nowhere. -/
def endHubs (s : State) (w : Who) (a : Dword) : Nat × List Nat :=
  match (xlate s w a false).2 with
  | .at_ ph _ _ false => (ph / 2 ^ 48, match windowOf (ph % 2 ^ 48) with
    | .hbm => stackHubs (ph % 2 ^ 48 / 2 ^ 36)
    | .spad n => [clusterOf n]
    | .pool k => [k]
    | _ => [])
  | _ => (0, [])

/-- A request goes over a link of a package while every link carries. -/
def crosses (s : State) (w : Who) (p link : Nat) (a : Dword) : Bool :=
  let x := endHubs (healed s) w a
  let j := s.job.getD { na := 1, nb := 1, nc := 1, nd := 1 }
  match route (healed s) w.core.pkg x.1 with
  | some l => x.2.any (fun b => (wayOf j w.core.pkg (coreHub w.core.n) l b).contains (p, link))
  | none => false

/-- The items and arrivals that go over a link are being delivered again (R96). -/
def markRetry (s : State) (p link : Nat) : State :=
  { s with
    items := s.items.map (fun i => { i with retry := i.retry || i.reaches.any (crosses s i.who p link) })
    arrivals := s.arrivals.map (fun a => { a with retry := a.retry || crosses s a.who p link a.flag }) }

/-- LINK_REPLAY (R423, R439): a flit that failed its check is sent again, in order, and the deliveries that it belongs to are made before any later one of
their core to the same flag (R96); no request is performed twice. A fabric link's leaves an entry. -/
def execLinkReplay (pkg link : Nat) (s : State) : Host.Outcome State Fault Refusal :=
  if link < 8 then .next (linkEntry (markRetry s pkg link) pkg link 0)
  else .next (modHub (markRetry s pkg link) pkg (linkHub link) (fun h => { h with corrected := h.corrected + 1 }))

/-- LINK_DOWN (R423): after 16 failed replays the link carries no more; what has no other route fails from then on. -/
def execLinkDown (pkg link : Nat) (s : State) : Host.Outcome State Fault Refusal :=
  if (getPkg s pkg).linksDown.contains link then .next s
  else .next (linkEntry (modPkg s pkg (fun k => { k with linksDown := k.linksDown ++ [link] })) pkg link 1)

/-- FABRIC_RESEND (R440, R96): the source port of a link that is down sends its messages again on the detour, which `route` finds, with the same sequence
numbers: each is performed at its home once and in its order, before any later one of its core to the same flag. -/
def execFabricResend (pkg link : Nat) (s : State) : Host.Outcome State Fault Refusal :=
  .next (if (getPkg s pkg).linksDown.contains link then markRetry s pkg link else s)

/-- The package at the other end of a port's link, where the job has one there (R436, R437). -/
def peerOf (j : Job4) (p port : Nat) : Option Nat :=
  let x := coords j p
  (List.range 4).findSome? (fun d => ([true, false] : List Bool).findSome? (fun plus =>
    let size := (dims j).getD d 1
    let edge := if plus then decide (x.getD d 0 + 1 = size) else decide (x.getD d 0 = 0)
    if decide (portOf d plus = port) && decide (2 ≤ size) && !(edge && (decide (2 ≤ d) || decide (size = 2))) then
      some (pkgAt j (x.set d (moveIn size (x.getD d 0) plus)))
    else none))

/-- A channel of a port's link under its next key, with 2^32 flits more behind it. -/
def rekey (s : State) (p port chan : Nat) : State :=
  modPkg s p (fun k =>
    let l := k.links[port]?.getD Link.reset
    let c := l.chans[chan]?.getD default
    { k with rekeys := k.rekeys + 1, links := k.links.setIfInBounds port { l with chans := l.chans.setIfInBounds chan { c with flits := c.flits + 2 ^ 32 } } })

/-- CHANNEL_REKEY (R447): a channel of a port has carried 2^32 flits since it was last rekeyed, and both its ends go on under the next key, where they have
one; no flit is lost or reordered. DESIGN CHOICE: log entry 68. -/
def execChannelRekey (pkg channel : Nat) (s : State) : Host.Outcome State Fault Refusal :=
  let port := channel / 8
  let chan := channel % 8
  match (s.job).bind (fun j => peerOf j pkg port) with
  | some q =>
    if (((getPkg s pkg).links[port]?.bind (fun l => l.chans[chan]?)).map (fun c => c.key)).getD 0 = 0 then .next s
    else .next (rekey (rekey s pkg port chan) q (opposite port) chan)
  | none => .next s

end Sys2Proof.Machine
end

