-- ==== Sys2Proof/Machine/HostPort.lean ====
section
/-!
DEFINITION. The host's side (spec/18): what a host's access to a window of a function does (R429, R431), the registers of a virtual function (R430, R433,
R434, R442), the MSI-X table (R428), and the management port (R443). Windows.lean has the order of the host's accesses.
-/
namespace Sys2Proof.Machine

/-! ## Windows (R429, R431) -/

/-- The clusters of a range of scratchpad and pool bytes. -/
def clustersOf (loc n : Nat) : List Nat :=
  match windowOf loc, windowOf (loc + n - 1) with
  | .spad a, .spad b => (List.range (clusterOf b + 1 - clusterOf a)).map (fun i => clusterOf a + i)
  | .pool a, .pool b => (List.range (b + 1 - a)).map (fun i => a + i)
  | .spad a, .pool b => (List.range (512 - clusterOf a)).map (fun i => clusterOf a + i) ++ List.range (b + 1)
  | _, _ => []

/-- The reaches that a window access touches. -/
def windowReaches (hbm : Bool) (off n : Nat) : List Nat :=
  if hbm then (List.range ((off + n - 1) / 2 ^ 36 + 1 - off / 2 ^ 36)).map (fun i => off / 2 ^ 36 + i)
  else (clustersOf (scratchLoc + off) n).map reachOfCluster

/-- A reach whose die is out of reset, and for HBM whose stack works: no other serves anything (R445). -/
def serves (s : State) (p : Nat) (hbm : Bool) (r : Nat) : Bool := dieOk s p (r / 4) && !(hbm && (getPkg s p).badStacks.contains r)

/-- The physical address of an access to a window of function fn: PF 0 reaches the whole package, VF k + 1 partition k. DESIGN CHOICE: log entry 64. -/
def windowAt (s : State) (p fn : Nat) (hbm : Bool) (off n : Nat) : Option Nat :=
  let fits := if hbm then decide (off + n ≤ 2 ^ 40) else decide (off + n ≤ 0x180000000)
  if decide (0 < n) && decide (fn ≤ 16) && fits && (windowReaches hbm off n).all (serves s p hbm) && (decide (fn = 0) || (windowReaches hbm off n).all (inReach s p (fn - 1))) then
    some (if hbm then devPhys p off else p * 2 ^ 48 + scratchLoc + off)
  else none

/-- The clusters of an access that sleep (R452). -/
def windowAsleep (s : State) (p : Nat) (hbm : Bool) (off n : Nat) : List Nat :=
  if hbm then [] else (clustersOf (scratchLoc + off) n).eraseDups.filter (fun k => !isAwake (getHub s p k).ret)

/-- A window write that is discarded leaves an error entry with SRC 7. -/
def windowEntry (s : State) (p off : Nat) : State := reportErr s p (weirHub 0) (errEntry 7 1 (weirHub 0) 0 1 off 0)

/-- What a host request is answered with. -/
def answerHost (s : State) (p : Nat) (o : HostOut) : State := modPkg s p (fun k => { k with hostOut := k.hostOut ++ [o] })

/-- Who makes the host's requests: they carry no GSLOT (R48). -/
def hostWho (p : Nat) : Who := weirWho { pkg := p, n := 0 } 0 0xFFFF

/-- Bytes cut at the 8-byte boundaries of their addresses. -/
def dwordParts : Nat → Nat → List Byte → List (Nat × List Byte)
  | 0, _, _ => []
  | fuel + 1, a, bs => if bs = [] then [] else
    let k := 8 - a % 8
    (a, bs.take k) :: dwordParts fuel (a + k) (bs.drop k)

/-- The bytes of a host write: each aligned dword is one strong write, in ascending order, which releases the earlier ones (R431); that of a slot's last
dword publishes the packet (R382). -/
def hostStore (s : State) (p a : Nat) (bytes : List Byte) : State :=
  (dwordParts bytes.length a bytes).foldl (fun s x => writeEvent s (hostWho p) [x] true (decide (x.1 % 64 = 0x38 ∧ x.2.length = 8))) s

/-- A write through a window, performed (R429, R431): one that may not be made is discarded, with an error entry. DESIGN CHOICE: log entry 64. -/
def windowWrite (s : State) (pkg fn : Nat) (hbm : Bool) (off : Nat) (bytes : List Byte) : State :=
  match windowAt s pkg fn hbm off bytes.length with
  | none => windowEntry s pkg off
  | some a => if protectedBytes s none a bytes.length then windowEntry s pkg off else hostStore s pkg a bytes

/-- A read through a window, performed (R429, R431): its bytes, or Unsupported Request. DESIGN CHOICE: log entry 64. -/
def windowRead (s : State) (pkg fn : Nat) (hbm : Bool) (off n : Nat) : State :=
  match windowAt s pkg fn hbm off n with
  | none => answerHost s pkg .unsupported
  | some a => if poisoned s none a n then answerHost (poisonEntry s a) pkg .unsupported else answerHost s pkg (.read (readBytes s none a n))

/-! ## Registers of a virtual function (R430, R433, R442) -/

/-- HSTAT.REFUSED set. -/
def refused (s : State) (p pid : Nat) : State := modBlock s p pid (fun b => { b with hstat := b.hstat ||| 1#64 })

/-- The sender's number of a function's HMBX, beside those of the hubs. -/
def hostSender (p pid : Nat) : Nat := 2 ^ 21 + 16 * p + pid

/-- HMBX written (R430, R361): the dword goes to the mailbox of NOTIFY as an `mbxs` would send it; behind a full mailbox it waits. DESIGN CHOICE: log entry 64. -/
def hmbxWrite (s : State) (p pid : Nat) (v : Dword) : State := notifyFp s p (notifyOf s p pid) (hostSender p pid) v

/-- A grid of the partition is live on a cluster. -/
def liveOn (s : State) (p pid cluster : Nat) : Bool :=
  (List.range 16).any (fun i => match (getCore s { pkg := p, n := 16 * cluster + i }).tenancy with
    | some gs => (liveGrids s p pid).contains gs
    | none => false)

/-- FORDMAP of a port written (R442). -/
def fordmapWrite (s : State) (pkg pid port : Nat) (v : Dword) : State :=
  let k := portCluster port
  if inReach s pkg pid (reachOfCluster k) = false ∨ liveOn s pkg pid k = true then refused s pkg pid
  else modBlock s pkg pid (fun b => { b with fordmap := b.fordmap.setIfInBounds port (v &&& 0xFFFF#64) })

/-! ## The fault doorbell (R414, R434) -/

/-- A host record that has not yet reached its ring: DOORBUSY. -/
def doorBusy (s : State) (p pid : Nat) : Bool := (getPkg s p).recs.any (fun r => decide (r.pid = pid ∧ r.d0.toNat / 2 ^ 62 = 2))

/-- HSTAT as it reads. -/
def hstatOf (s : State) (p pid : Nat) : Dword := (block s p pid).hstat ||| (if doorBusy s p pid then 2#64 else 0)

/-- The dword at 0x178 of HFAULT has been written (R434): the record goes to the home that the range entry of (ASID, PAGE) names, SOURCE 2 and RCORE 0; with
another PID, or with no such entry, it is discarded and sets REFUSED. DESIGN CHOICE: log entry 64. -/
def forwardDoor (s : State) (pkg pid : Nat) : State :=
  let r := (block s pkg pid).hfault
  let asid := fld r[0] 55 40
  let home : RangeHit := match asEntry s pkg pid asid with
    | .tables _ tab n => searchRange s pkg pid asid tab r[1].toNat 14 0 n
    | _ => RangeHit.miss
  if fld r[0] 59 56 ≠ pid then refused s pkg pid
  else match home with
    | .hit e =>
      let x : FaultRec := {
        homePkg := e.homePkg, homeFp := e.homeFp, pid := pid, d0 := dw (r[0].toNat % 2 ^ 62 + 2 ^ 63), page := r[1], addr := r[2],
        rq := r[3] &&& 0x0FFF000000000000#64, sender := senderAt pkg (weirSender 0) }
      drainRecs (modPkg s pkg (fun k => { k with recs := k.recs ++ [x] }))
    | _ => refused s pkg pid

/-- A dword of HFAULT written: while DOORBUSY it is discarded and sets REFUSED. -/
def hfaultWrite (s : State) (pkg pid i : Nat) (v : Dword) : State :=
  if doorBusy s pkg pid then refused s pkg pid
  else
    let s1 := modBlock s pkg pid (fun b => { b with hfault := b.hfault.setIfInBounds i v })
    if i = 7 then forwardDoor s1 pkg pid else s1

/-- The registers of R359 that are read-only: a host's write is ignored (R7). -/
def readOnly (k : Nat) : Bool := [0, 1, 6, 13, 15].contains k

/-- The host writes the register at offset 8k of a virtual function's BAR 0 (R430): HSTAT is W1C in REFUSED; what has no register is ignored. DESIGN CHOICE: log entry 64. -/
def vfWrite (s : State) (pkg pid k : Nat) (v : Dword) : State :=
  if 16 ≤ pid ∨ (k < 32 ∧ readOnly k = true) then s
  else if k < 32 then (blockWrite s pkg pid k v).getD (refused s pkg pid)
  else if k = 32 then hmbxWrite s pkg pid v
  else if k = 33 then modBlock s pkg pid (fun b => { b with hstat := b.hstat &&& ~~~(v &&& 1#64) })
  else if k = 34 then modBlock s pkg pid (fun b => { b with hresp := v &&& 0xF00FFFFFFFFFFFF0#64 })
  else if 40 ≤ k ∧ k < 48 then hfaultWrite s pkg pid (k - 40) v
  else if 64 ≤ k ∧ k < 72 then fordmapWrite s pkg pid (k - 64) v
  else s

/-- What the host reads at offset 8k of a virtual function's BAR 0: none completes with Unsupported Request (R430). -/
def hostRegister (s : State) (p pid k : Nat) : Option Dword :=
  if k < 32 then blockRead s p pid k
  else if k = 32 then some 0
  else if k = 33 then some (hstatOf s p pid)
  else if k = 34 then some (block s p pid).hresp
  else if 40 ≤ k ∧ k < 48 then some ((block s p pid).hfault.toList.getD (k - 40) 0)
  else if 64 ≤ k ∧ k < 72 then some ((block s p pid).fordmap.toList.getD (k - 64) 0)
  else none

/-! ## MSI-X (R428, R430) -/

/-- The dword at an offset of the MSI-X table and pending-bit array of a function, from 0x1000. PRESUMED: log entry 73. -/
def msixRead (s : State) (p fn off : Nat) : Dword :=
  let e := (getPkg s p).msixTab[8 * fn + (off - 0x1000) / 16]?.getD (0, 0)
  if 0x1080 ≤ off then ((getPkg s p).msixPend[fn]?.getD 0).setWidth 64 else if off % 16 = 0 then e.1 else e.2

/-- A dword of the MSI-X table written: a pending vector that is no longer masked is sent. PRESUMED: log entry 73. -/
def msixWrite (s : State) (p fn off : Nat) (v : Dword) : State :=
  let vec := (off - 0x1000) / 16
  let e := (getPkg s p).msixTab[8 * fn + vec]?.getD (0, 0)
  let e1 := if off % 16 = 0 then (v &&& 0xFFFFFFFFFFFFFFFC#64, e.2) else (e.1, v &&& 0x1FFFFFFFF#64)
  let s1 := modPkg s p (fun k => { k with msixTab := k.msixTab.setIfInBounds (8 * fn + vec) e1 })
  let pend := (getPkg s p).msixPend[fn]?.getD 0
  if 0x1080 ≤ off then s
  else if fld e1.2 32 32 = 0 ∧ pend.toNat / 2 ^ vec % 2 = 1 then
    raiseMsix (modPkg s1 p (fun k => { k with msixPend := k.msixPend.setIfInBounds fn (pend &&& ~~~(BitVec.ofNat 8 (2 ^ vec))) })) p fn vec
  else s1

/-! ## The management port (R443) -/

/-- Corrected errors that the hubs have counted. -/
def correctedOf (s : State) (p : Nat) : Nat := ((s.hubs.filter (fun h => decide (h.1.1 = p))).map (fun h => h.2.corrected)).foldl (· + ·) 0

/-- MGMT_READ_SENSORS (R443): temperature, power, the corrected-error count, and PSTAT of every partition. DESIGN CHOICE: log entry 65. -/
def execMgmtReadSensors (pkg : Nat) (s : State) : Host.Outcome State Fault Refusal :=
  .next (answerHost s pkg (.answer ([Config.sensor s.tick 0, Config.sensor s.tick 1, dw (correctedOf s pkg)] ++
    (List.range 16).map (fun pid => (block s pkg pid).pstat))))

/-- The entries of a partition's ERING that software has not consumed. -/
def eringEntries (s : State) (p pid : Nat) : List Byte :=
  let d := transBlock s p pid + 0x240
  let w0 := readDev s p d 8
  let base := w0 / 64 % 2 ^ 42 * 64
  let size := 2 ^ (w0 / 2 ^ 48 % 16 + 4)
  let tail := readDev s p (d + 8) 4
  let head := readDev s p (d + 16) 4
  if base = 0 then []
  else (List.range (Nat.min size ((tail + 2 ^ 32 - head) % 2 ^ 32))).flatMap (fun i =>
    readBytes s none (devPhys p (base + 32 * ((head + i) % size))) 32)

/-- MGMT_READ_ERROR_LOG (R426, R443): the ERING of a partition, or the machine error log, whose entries have then been read. DESIGN CHOICE: log entry 63. -/
def execMgmtReadErrorLog (pkg : Nat) (pid : Option Nat) (s : State) : Host.Outcome State Fault Refusal :=
  match pid with
  | some k => .next (answerHost s pkg (.read (eringEntries s pkg k)))
  | none =>
    let l := (getPkg s pkg).errLog
    .next (answerHost (modPkg s pkg (fun k => { k with errLog := [] })) pkg (.read (l.flatMap (fun e => leBytes 32 e.toNat))))

/-- The power cap (R450): a value outside 1,000 to 2,800 is discarded. DESIGN CHOICE: log entry 68. -/
def setCap (s : State) (p cap : Nat) : State := if 1000 ≤ cap ∧ cap ≤ 2800 then modPkg s p (fun k => { k with cap := cap }) else s

/-- MGMT_SET_POWER_CAP (R443). -/
def execMgmtSetPowerCap (pkg cap : Nat) (s : State) : Host.Outcome State Fault Refusal := .next (setCap s pkg cap)

/-- MGMT_PREEMPT (R443): PREEMPT with OP 1, and PSTAT read. -/
def execMgmtPreempt (pkg pid : Nat) (s : State) : Host.Outcome State Fault Refusal :=
  let s1 := preemptWrite s pkg pid 0x4000000000000000#64
  .next (answerHost s1 pkg (.answer [(block s1 pkg pid).pstat]))

end Sys2Proof.Machine
end

