-- ==== Sys2Proof/Machine/Pred.lean ====
section
/-!
DEFINITION. The predicate instructions of page 2 (spec/06, R193 to R196).
-/
namespace Sys2Proof.Machine

/-- R193: lane by lane over all 32 lanes. -/
def predIssue (op : PredOp) (o : PredOps) (s : State) : Host.Outcome State Fault Refusal :=
  issue s o.pre {} (fun s k => .ok (k.upd s (fun t => writeP t o.pd (predRes op (readP t o.x) (readP t o.y)))))

/-- PAND (R193). -/
def execPand (o : PredOps) (s : State) : Host.Outcome State Fault Refusal := predIssue .and o s
/-- POR (R193). -/
def execPor (o : PredOps) (s : State) : Host.Outcome State Fault Refusal := predIssue .or o s
/-- PXOR (R193). -/
def execPxor (o : PredOps) (s : State) : Host.Outcome State Fault Refusal := predIssue .xor o s
/-- PANDN (R193). -/
def execPandn (o : PredOps) (s : State) : Host.Outcome State Fault Refusal := predIssue .andn o s
/-- PSET (R194). -/
def execPset (o : PsetOps) (s : State) : Host.Outcome State Fault Refusal :=
  issue s o.pre {} (fun s k => .ok (k.upd s (fun t => writeP t o.pd (BitVec.ofNat 32 o.imm))))
/-- PSETG (R194). -/
def execPsetg (o : PsetgOps) (s : State) : Host.Outcome State Fault Refusal :=
  issue s o.pre { rg := [(o.x, true)] } (fun s k => .ok (k.upd s (fun t => writeP t o.pd ((k.val 0).setWidth 32))))
/-- PGETG (R194). -/
def execPgetg (o : PgetgOps) (s : State) : Host.Outcome State Fault Refusal :=
  issue s o.pre { wg := [(o.rd, true)] } (fun s k => setG s k o.rd ((readP k.t o.x).setWidth 64, {}))
/-- PPOPC (R194). -/
def execPpopc (o : PgetgOps) (s : State) : Host.Outcome State Fault Refusal :=
  issue s o.pre { wg := [(o.rd, true)] } (fun s k => setG s k o.rd (dw (popN 32 (readP k.t o.x).toNat), {}))
/-- PPACK (R195). -/
def execPpack (o : PpackOps) (s : State) : Host.Outcome State Fault Refusal :=
  issue s o.pre { wg := [(o.g, true)] } (fun s k =>
    setG s k o.g (dw (packNat 1 ((List.finRange 8).map (fun i => if bitOf (readP k.t i) o.lane.val then 1 else 0))), {}))
/-- PUNPACK (R195). -/
def execPunpack (o : PpackOps) (s : State) : Host.Outcome State Fault Refusal :=
  issue s o.pre { rg := [(o.g, true)] } (fun s k =>
    .ok (k.upd s (fun t => (List.finRange 8).foldl (fun t i =>
      writeP t i (setBitOf (readP t i) o.lane.val (decide ((k.val 0).toNat / 2 ^ i.val % 2 = 1)))) t)))
/-- PSAVE: eight lanes of a quarter, the others kept (R196). -/
def execPsave (o : PsaveOps) (s : State) : Host.Outcome State Fault Refusal :=
  issue s o.pre { v := [o.v] } (fun s k =>
    let old := readV s.tick k.t o.v
    let ps := (List.finRange 8).map (fun i => (32 * (8 * o.k.val + i.val), 32, (readP k.t i).toNat))
    .ok (k.upd s (fun t => writeV t o.v (BitVec.ofNat 1024 (putParts old.toNat ps)))))
/-- PREST (R196). -/
def execPrest (o : PsaveOps) (s : State) : Host.Outcome State Fault Refusal :=
  issue s o.pre { v := [o.v] } (fun s k =>
    let x := readV s.tick k.t o.v
    .ok (k.upd s (fun t => (List.finRange 8).foldl (fun t i => writeP t i (BitVec.ofNat 32 (elem 32 x (8 * o.k.val + i.val)))) t)))

end Sys2Proof.Machine
end

