-- ==== Sys2Proof/Machine/Uses.lean ====
section
/-!
DEFINITION. What each instruction names and needs before it can issue (R35, R62, R152, R368), and its switch marker and governing predicate.
-/
namespace Sys2Proof.Machine

/-! ## What an instruction names and needs -/

/-- R173, R174, R181. -/
def usesAlu (o : AluOps) : Uses :=
  { rg := (o.x, isW o.w) :: srcUses (isW o.w) o.y, wg := [(o.rd, isW o.w)] }

/-- R172, R177. -/
def usesDiv (o : AluOps) : Uses :=
  { rg := (o.x, isW o.w) :: srcUses (isW o.w) o.y, lg := [o.rd], lat := 1, unit := some .divide }

/-- R178. -/
def usesMulh (o : MulhOps) : Uses :=
  { rg := [(o.x, isW o.w), (o.y, isW o.w)], wg := [(o.rd, isW o.w)] }

/-- R180. -/
def usesUn (o : UnOps) : Uses :=
  { rg := [(o.x, isW o.w)], wg := [(o.rd, isW o.w)] }

/-- R176. -/
def usesCmp (o : CmpOps) : Uses :=
  { rg := (o.x, isW o.w) :: srcUses (isW o.w) o.y }

/-- R175. -/
def usesMov (o : MovOps) : Uses :=
  { rg := srcUses false o.y, wg := [(o.rd, false)] }

/-- R179. -/
def usesBfx (o : BitfOps) : Uses :=
  { rg := [(o.x, false)], wg := [(o.rd, false)] }

/-- R179: gA is a source too. -/
def usesBfi (o : BitfOps) : Uses :=
  { rg := [(o.rd, false), (o.x, false)], wg := [(o.rd, false)] }

/-- R182. -/
def usesAddsh (o : AddshOps) : Uses :=
  { rg := [(o.x, false), (o.y, false)], wg := [(o.rd, false)] }

/-- R182. -/
def usesMovh (o : MovhOps) : Uses :=
  { rg := [(o.rd, false)], wg := [(o.rd, false)] }

/-- R184, R185: gA is the addend of the fused operations. -/
def usesFp (fused : Bool) (o : FpOps) : Uses :=
  { rg := [(o.x, narF o.fmt), (o.y, narF o.fmt)] ++ (if fused then [(o.rd, narF o.fmt)] else []), wg := [(o.rd, narF o.fmt)] }

/-- R186. -/
def usesFdiv (o : FpOps) : Uses :=
  { rg := [(o.x, narF o.fmt), (o.y, narF o.fmt)], lg := [o.rd], lat := 1, unit := some .divide }

/-- R187. -/
def usesFp2 (o : Fp2Ops) : Uses :=
  { rg := [(o.x, narF o.fmt), (o.y, narF o.fmt)], wg := [(o.rd, narF o.fmt)] }

/-- R187, R188. -/
def usesFp1 (o : Fp1Ops) : Uses :=
  { rg := [(o.x, narF o.fmt)], wg := [(o.rd, narF o.fmt)] }

/-- R186, R192. -/
def usesFp1r (u : LatUnit) (o : Fp1ROps) : Uses :=
  { rg := [(o.x, narF o.fmt)], lg := [o.rd], lat := 1, unit := some u }

/-- R188. -/
def usesFcmp (o : FcmpOps) : Uses :=
  { rg := [(o.x, narF o.fmt), (o.y, narF o.fmt)] }

/-- R189. -/
def usesFcvt (o : FcvtOps) : Uses :=
  { rg := [(o.x, narF o.src)], wg := [(o.rd, narF o.dst)] }

/-- R190. -/
def usesFtoi (o : FintOps) : Uses :=
  { rg := [(o.x, narF o.fmt)], wg := [(o.rd, narI o.iw)] }

/-- R190. -/
def usesItof (o : FintOps) : Uses :=
  { rg := [(o.x, narI o.iw)], wg := [(o.rd, narF o.fmt)] }

/-- R191. -/
def usesFnar (o : FnarOps) : Uses :=
  { rg := [(o.x, true)], wg := [(o.rd, true)] }

/-- R194. -/
def usesPsetg (o : PsetgOps) : Uses :=
  { rg := [(o.x, true)] }

/-- R194. -/
def usesPgetg (o : PgetgOps) : Uses :=
  { wg := [(o.rd, true)] }

/-- R196. -/
def usesPsave (o : PsaveOps) : Uses :=
  { v := [o.v] }

/-- R213, R215. -/
def usesMem (o : MemOps) : Uses :=
  { rg := (o.base, false) :: offUses o.off, lg := [o.data], lat := 1 }

/-- R213, R215, R246. -/
def usesStore (o : MemOps) : Uses :=
  { rg := (o.base, false) :: (offUses o.off ++ [(o.data, narS o.size)]) }

/-- R218. -/
def usesVld (o : VMemOps) : Uses :=
  { rg := (o.base, false) :: offUses o.off, v := [o.v], lat := 1, on := fun m => anyOn m 32 }

/-- R218. -/
def usesVst (o : VMemOps) : Uses :=
  { rg := (o.base, false) :: offUses o.off, v := [o.v], on := fun m => anyOn m 32 }

/-- R220. -/
def usesGather (n : Nat) (o : GathOps) : Uses :=
  { rg := [(o.base, false)], v := [o.v, o.idx], lat := 1, on := fun m => anyOn m (8 * n) }

/-- R220. -/
def usesScatter (n : Nat) (o : GathOps) : Uses :=
  { rg := [(o.base, false)], v := [o.v, o.idx], on := fun m => anyOn m (8 * n) }

/-- R221. -/
def usesLdf (o : LdfOps) : Uses :=
  { rg := [(o.base, false), (o.pitch, false)], v := [o.v], lat := 1, on := fun m => anyOn m 32 }

/-- R225. -/
def usesStp (o : StpOps) : Uses :=
  match o.data with
  | .g size r => { rg := (o.base, false) :: (flagUses o.flag ++ [(r, narS size)]), eff := true, loose := !releases o.os.ord }
  | .v r => { rg := (o.base, false) :: flagUses o.flag, v := [r], eff := true, loose := !releases o.os.ord, on := fun m => anyOn m 32 }

/-- R226. -/
def usesGetl (o : GetlOps) : Uses :=
  { rg := (o.dst, false) :: (o.src, false) :: flagUses o.flag, eff := true, loose := !releases o.os.ord }

/-- R228. -/
def usesAtom (o : AtomOps) : Uses :=
  { rg := (o.base, false) :: srcUses (isW o.w) o.y, lg := [o.rd], lat := 1 }

/-- R229. -/
def usesAcas (o : AcasOps) : Uses :=
  { rg := [(o.base, false), (o.rd, isW o.w), (o.c, isW o.w)], lg := [o.rd], lat := 1 }

/-- R230. -/
def usesRed (o : RedOps) : Uses :=
  { rg := (o.base, false) :: (flagUses o.flag ++ [(o.data, isW o.w)]), eff := true, loose := !releases o.os.ord }

/-- R231. -/
def usesAfadd (o : AfaddOps) : Uses :=
  { rg := [(o.base, false), (o.y, true)], lg := [o.rd], lat := 1 }

/-- R231. -/
def usesRedFadd (o : RedFaddOps) : Uses :=
  { rg := (o.base, false) :: (flagUses o.flag ++ [(o.data, true)]), eff := true, loose := !releases o.os.ord }

/-- R232. -/
def usesTadd (o : TaddOps) : Uses :=
  { rg := (o.base, false) :: flagUses o.flag, v := [o.v], eff := true, loose := !releases o.os.ord, on := fun m => anyOn m 32 }

/-- R237. -/
def usesSpawn (o : SpawnOps) : Uses :=
  { rg := (o.b, false) :: srcUses false o.start, lg := [o.rd], lat := 1, eff := true, noFp := true }

/-- R244. -/
def usesFuture (deferred : Bool) (o : MemOps) : Uses :=
  { rg := (o.base, false) :: offUses o.off, lg := [o.data], lat := 1, eff := true, noFp := deferred }

/-- R248. -/
def usesWaitc (o : WaitcOps) : Uses :=
  { rg := (o.b, false) :: srcUses true o.n, lg := [o.rd], lat := 1, eff := true }

/-- R250. -/
def usesArm (o : RrrOps) : Uses :=
  { rg := [(o.b, false), (o.rd, false), (o.c, true)], lg := [o.rd], lat := 1, eff := true }

/-- R253. -/
def usesDisarm (o : RrrOps) : Uses :=
  { rg := [(o.b, false), (o.c, false)], lg := [o.rd], lat := 1, eff := true }

/-- R256. -/
def usesGrow (o : GrowOps) : Uses :=
  { rg := srcUses false o.y, lg := [o.rd], lat := 1, eff := true, noFp := true }

/-- R259. -/
def usesInbox (o : RdOps) : Uses :=
  { lg := [o.rd, gPlus o.rd 1, gPlus o.rd 2, gPlus o.rd 3], lat := 4, eff := true }

/-- R270, R271. -/
def usesVfp (o : VFpOps) : Uses :=
  { rg := vRg (narF o.fmt) o.y, v := [o.vd, o.x] ++ vRegs o.y, on := onW (fmtOf o.fmt).width }

/-- R272. -/
def usesVdiv (o : VFpOps) : Uses :=
  { rg := vRg (narF o.fmt) o.y, v := [o.vd, o.x] ++ vRegs o.y, lat := 1, unit := some .vectorDivide, on := onW (fmtOf o.fmt).width }

/-- R272, R283. -/
def usesVfp1r (u : LatUnit) (o : VFp1ROps) : Uses :=
  { v := [o.vd, o.x], lat := 1, unit := some u, on := onW (fmtOf o.fmt).width }

/-- R273. -/
def usesVfp2 (o : VFp2Ops) : Uses :=
  { v := [o.vd, o.x, o.y], on := onW (fmtOf o.fmt).width }

/-- R273. -/
def usesVfp1 (o : VFp1Ops) : Uses :=
  { v := [o.vd, o.x], on := onW (fmtOf o.fmt).width }

/-- R274. -/
def usesVfcmp (o : VFcmpOps) : Uses :=
  { rg := vRg (narF o.fmt) o.y, v := o.x :: vRegs o.y, on := onW (fmtOf o.fmt).width }

/-- R274. -/
def usesVicmp (o : VIcmpOps) : Uses :=
  { rg := vRg (narI o.iw) o.y, v := o.x :: vRegs o.y, on := onW (iBits o.iw) }

/-- R275, R277. -/
def usesVint (shift : Bool) (o : VIntOps) : Uses :=
  { rg := vRg (narI o.iw && !shift) o.y, v := [o.vd, o.x] ++ vRegs o.y, on := onW (iBits o.iw) }

/-- R276, R284. -/
def usesVvv (o : VVVOps) : Uses :=
  { v := [o.vd, o.x, o.y], on := onW (iBits o.iw) }

/-- R276. -/
def usesVnar (widen : Bool) (o : VNarOps) : Uses :=
  { v := [o.vd, o.x], on := onW (if widen then iBits o.iw else 2 * iBits o.iw) }

/-- R277, R278, R288. -/
def usesVun (o : VUnOps) : Uses :=
  { v := [o.vd, o.x], on := onW (iBits o.iw) }

/-- R278. -/
def usesVsel (o : VselOps) : Uses :=
  { v := [o.vd, o.x, o.y], on := onW (iBits o.iw) }

/-- R278. -/
def usesVbcast (o : VbcastOps) : Uses :=
  { rg := [(o.g, narI o.iw)], v := [o.vd], on := onW (iBits o.iw) }

/-- R278. -/
def usesVext (o : VextOps) : Uses :=
  { wg := [(o.rd, narI o.iw)], v := [o.x], on := fun m => elemOn m (iBits o.iw) o.i }

/-- R278. -/
def usesVins (o : VinsOps) : Uses :=
  { rg := [(o.g, narI o.iw)], v := [o.vd], on := fun m => elemOn m (iBits o.iw) o.i }

/-- R279. -/
def usesVfcvt (o : VFcvtOps) : Uses :=
  { v := [o.vd, o.x], on := onW (Nat.max (fmtOf o.src).width (fmtOf o.dst).width) }

/-- R280. -/
def usesVfint (o : VFintOps) : Uses :=
  { v := [o.vd, o.x], on := onW (fmtOf o.fmt).width }

/-- R281. -/
def usesVfnar (o : VFnarOps) : Uses :=
  { v := [o.vd, o.x], on := onW 32 }

/-- R282. -/
def usesVmxsc (o : VmxscOps) : Uses :=
  { wg := [(o.rd, true)], v := [o.x], on := onW 32 }

/-- R282. -/
def usesVmx (o : VmxOps) : Uses :=
  { rg := [(o.g, true)], v := [o.vd, o.x], on := onW 32 }

/-- R285. -/
def usesVperm (o : VpermOps) : Uses :=
  { v := [o.vd, o.x], on := onW (iBits o.iw) }

/-- R286. -/
def usesVrot (o : VrotOps) : Uses :=
  { rg := srcUses false o.y, v := [o.vd, o.x], on := onW (iBits o.iw) }

/-- R287: a kernel that allots no vector register has no votes. -/
def usesVballot (o : VballotOps) : Uses :=
  { wg := [(o.rd, true)], v := [0], on := onW 32 }

/-- R289. -/
def usesVfred (o : VFredOps) : Uses :=
  { v := [o.vd, o.x], on := onW (fmtOf o.fmt).width }

/-- R289. -/
def usesVired (o : VIredOps) : Uses :=
  { v := [o.vd, o.x], on := onW (iBits o.iw) }

/-- R290. -/
def usesVfscan (o : VFscanOps) : Uses :=
  { v := [o.vd, o.x], on := onW (fmtOf o.fmt).width }

/-- R290. -/
def usesViscan (o : VIscanOps) : Uses :=
  { v := [o.vd, o.x], on := onW (iBits o.iw) }

/-- R300. -/
def usesProduct (t : MReg) (a : GReg) (b : Option GReg) : Uses :=
  { rg := (a, false) :: flagUses b, m := [t], lat := 1, eff := true, noFp := true }

/-- R302. -/
def usesMload (o : MloadOps) : Uses :=
  { rg := [(o.b, false)], m := [o.t], lat := 1, eff := true, noFp := true }

/-- R303. -/
def usesMdrain (o : MdrainOps) : Uses :=
  { rg := (o.b, false) :: flagUses o.flag, m := [o.t], eff := true, noFp := true }

/-- R307. -/
def usesMrd (o : MrdOps) : Uses :=
  { v := [o.v], m := [o.t], noFp := true, on := onW 32 }

/-- R320. -/
def usesCopy (o : CopyOps) : Uses :=
  { rg := [(o.b, false), (gPlus o.b 1, false), (gPlus o.b 2, false)], v := [o.v], eff := true }

/-- R326, R327. -/
def usesShard (load : Bool) (o : ShardOps) : Uses :=
  {
    rg := (o.b, false) :: (o.c, false) :: (gPlus o.c 1, false) :: (if load then [] else [(o.rd, false)])
    lg := if load then [o.rd] else [], lat := if load then 1 else 0, noFp := true }

/-- R329. -/
def usesCfetch (o : CfetchOps) : Uses :=
  { rg := (o.b, false) :: flagUses o.flag, eff := true, noFp := true }

/-- R340: the lanes of the blocks. -/
def usesBaddq (o : BaddqOps) : Uses :=
  { v := [o.vd, o.x, o.y], noFp := true, on := fun m => decide (m.toNat % 128 ≠ 0) }

/-- R338. -/
def usesBlkq (o : RdOps) : Uses :=
  { lg := [o.rd, gPlus o.rd 1, gPlus o.rd 2, gPlus o.rd 3], lat := 4, eff := true, noFp := true }

/-- R361, R405. -/
def usesSysBc (o : BcOps) : Uses :=
  { rg := [(o.b, false), (o.c, false)], eff := true, priv := true }

/-- What an issued instruction names and needs (R35, R62, R152, R368): nothing for the machine's own steps. DEDUCED: log entry 25. -/
def usesOf : Instr → Uses
  | .add o => usesAlu o
  | .sub o => usesAlu o
  | .and o => usesAlu o
  | .or o => usesAlu o
  | .xor o => usesAlu o
  | .shl o => usesAlu o
  | .shr o => usesAlu o
  | .sar o => usesAlu o
  | .mul o => usesAlu o
  | .mov o => usesMov o
  | .ld o => usesMem o
  | .st o => usesStore o
  | .vld o => usesVld o
  | .vst o => usesVst o
  | .br _ => {}
  | .call o => { wg := [(o.link, false)] }
  | .jmp o => { rg := [(o.tgt, false)], wg := [(o.link, false)] }
  | .ceq o => usesCmp o
  | .clt o => usesCmp o
  | .cltu o => usesCmp o
  | .fadd o => usesFp false o
  | .fmul o => usesFp false o
  | .ffma o => usesFp true o
  | .fsub o => usesFp false o
  | .vadd o => usesVfp o
  | .vmul o => usesVfp o
  | .vfma o => usesVfp o
  | .div o => usesDiv o
  | .divu o => usesDiv o
  | .rem o => usesDiv o
  | .remu o => usesDiv o
  | .mulh o => usesMulh o
  | .mulhu o => usesMulh o
  | .mulhsu o => usesMulh o
  | .bfx o => usesBfx o
  | .bfxu o => usesBfx o
  | .bfi o => usesBfi o
  | .clz o => usesUn o
  | .ctz o => usesUn o
  | .popc o => usesUn o
  | .bswap o => usesUn o
  | .sextB o => usesUn o
  | .sextH o => usesUn o
  | .sextW o => usesUn o
  | .zextB o => usesUn o
  | .zextH o => usesUn o
  | .zextW o => usesUn o
  | .min o => usesAlu o
  | .max o => usesAlu o
  | .minu o => usesAlu o
  | .maxu o => usesAlu o
  | .addsat o => usesAlu o
  | .subsat o => usesAlu o
  | .addsatu o => usesAlu o
  | .subsatu o => usesAlu o
  | .addsh o => usesAddsh o
  | .movh o => usesMovh o
  | .faddRounded o => usesFp false o
  | .fsubRounded o => usesFp false o
  | .fmulRounded o => usesFp false o
  | .ffmaRounded o => usesFp true o
  | .ffms o => usesFp true o
  | .fnma o => usesFp true o
  | .fdiv o => usesFdiv o
  | .fsqrt o => usesFp1r .divide o
  | .fmin o => usesFp2 o
  | .fmax o => usesFp2 o
  | .fabs o => usesFp1 o
  | .fneg o => usesFp1 o
  | .fceq o => usesFcmp o
  | .fclt o => usesFcmp o
  | .fcle o => usesFcmp o
  | .fcun o => usesFcmp o
  | .fclass o => usesFp1 o
  | .fcvt o => usesFcvt o
  | .ftoi o => usesFtoi o
  | .ftoiu o => usesFtoi o
  | .itof o => usesItof o
  | .iutof o => usesItof o
  | .fton o => usesFnar o
  | .ntof o => usesFnar o
  | .fexp2 o => usesFp1r .transcendental o
  | .flog2 o => usesFp1r .transcendental o
  | .frcp o => usesFp1r .transcendental o
  | .frsqrt o => usesFp1r .transcendental o
  | .fsinpi o => usesFp1r .transcendental o
  | .fcospi o => usesFp1r .transcendental o
  | .pand _ => {}
  | .por _ => {}
  | .pxor _ => {}
  | .pandn _ => {}
  | .pset _ => {}
  | .psetg o => usesPsetg o
  | .pgetg o => usesPgetg o
  | .ppopc o => usesPgetg o
  | .ppack o => { wg := [(o.g, true)] }
  | .punpack o => { rg := [(o.g, true)] }
  | .psave o => usesPsave o
  | .prest o => usesPsave o
  | .jov o => { rg := [(o.g, false)] }
  | .enter _ => { rg := [(2, false), (1, false)], wg := [(2, false)] }
  | .leave _ => { rg := [(2, false)], wg := [(2, false)], lg := [1], lat := 1 }
  | .trap _ => {}
  | .brk _ => {}
  | .bany _ => {}
  | .ball _ => {}
  | .tret o => { rg := [(o.g, false)] }
  | .srr o => { wg := [(o.g, false)] }
  | .srw o => { rg := [(o.g, false)], eff := decide (16 ≤ o.num) }
  | .mbxs o => usesSysBc o
  | .mbxr o => { lg := [o.rd], lat := 1, eff := true, priv := true }
  | .wfi _ => { priv := true }
  | .ecall _ => {}
  | .tlbsdInval o => usesSysBc o
  | .tlbsdTransit o => usesSysBc o
  | .tlbsdLand o => usesSysBc o
  | .tlbsdDiscard o => usesSysBc o
  | .tlbsdRanges o => usesSysBc o
  | .tlbsdResume o => usesSysBc o
  | .tlbsdRefuse o => usesSysBc o
  | .ldSigned o => usesMem o
  | .ldo o => usesMem o
  | .ldoSigned o => usesMem o
  | .sto o => usesStore o
  | .vgatherW o => usesGather 4 o
  | .vgatherD o => usesGather 8 o
  | .vscatterW o => usesScatter 4 o
  | .vscatterD o => usesScatter 8 o
  | .ldf o => usesLdf o
  | .fence _ => {}
  | .fenceSc _ => {}
  | .getl o => usesGetl o
  | .stp o => usesStp o
  | .aadd o => usesAtom o
  | .amin o => usesAtom o
  | .amax o => usesAtom o
  | .aminu o => usesAtom o
  | .amaxu o => usesAtom o
  | .aand o => usesAtom o
  | .aor o => usesAtom o
  | .axor o => usesAtom o
  | .aswp o => usesAtom o
  | .acas o => usesAcas o
  | .redAdd o => usesRed o
  | .redMin o => usesRed o
  | .redMax o => usesRed o
  | .redMinu o => usesRed o
  | .redMaxu o => usesRed o
  | .redAnd o => usesRed o
  | .redOr o => usesRed o
  | .redXor o => usesRed o
  | .afaddF32 o => usesAfadd o
  | .afaddBf16 o => usesAfadd o
  | .redFaddF32 o => usesRedFadd o
  | .redFaddBf16 o => usesRedFadd o
  | .taddF32 o => usesTadd o
  | .taddI32 o => usesTadd o
  | .taddBf16 o => usesTadd o
  | .spawn o => usesSpawn o
  | .quit _ => { eff := true }
  | .susp _ => { eff := true, noFp := true }
  | .fld o => usesFuture false o
  | .fldS o => usesFuture true o
  | .ffill o => usesStore o
  | .fclr o => { rg := [(o.b, false)] }
  | .waitc o => usesWaitc o
  | .armMsg o => usesArm o
  | .armInc o => usesArm o
  | .disarmMsg o => usesDisarm o
  | .disarmInc o => usesDisarm o
  | .barArrive o => { wg := [(o.g, true)], eff := true }
  | .barWait o => { rg := [(o.g, true)], eff := true }
  | .barTest o => { rg := [(o.x, true)], wg := [(o.rd, true)] }
  | .grow o => usesGrow o
  | .wquiet o => { rg := [(o.b, false)], eff := true }
  | .wsplit o => { rg := [(o.b, false)], wg := [(o.rd, false)], eff := true }
  | .ibx o => usesInbox o
  | .ibxT o => usesInbox o
  | .vaddRounded o => usesVfp o
  | .vsub o => usesVfp o
  | .vmulRounded o => usesVfp o
  | .vfmaRounded o => usesVfp o
  | .vfms o => usesVfp o
  | .vfnma o => usesVfp o
  | .vdiv o => usesVdiv o
  | .vsqrt o => usesVfp1r .vectorDivide o
  | .vfmin o => usesVfp2 o
  | .vfmax o => usesVfp2 o
  | .vfabs o => usesVfp1 o
  | .vfneg o => usesVfp1 o
  | .vfceq o => usesVfcmp o
  | .vfclt o => usesVfcmp o
  | .vfcle o => usesVfcmp o
  | .vfcun o => usesVfcmp o
  | .vceq o => usesVicmp o
  | .vclt o => usesVicmp o
  | .vcltu o => usesVicmp o
  | .viadd o => usesVint false o
  | .visub o => usesVint false o
  | .vimul o => usesVint false o
  | .vimin o => usesVint false o
  | .vimax o => usesVint false o
  | .viminu o => usesVint false o
  | .vimaxu o => usesVint false o
  | .viaddsat o => usesVvv o
  | .visubsat o => usesVvv o
  | .viaddsatu o => usesVvv o
  | .visubsatu o => usesVvv o
  | .vinarrow o => usesVnar false o
  | .vinarrowu o => usesVnar false o
  | .vinarrowsu o => usesVnar false o
  | .viwiden o => usesVnar true o
  | .viwidenu o => usesVnar true o
  | .vand o => usesVint false o
  | .vor o => usesVint false o
  | .vxor o => usesVint false o
  | .vandn o => usesVint false o
  | .vshl o => usesVint true o
  | .vshr o => usesVint true o
  | .vsar o => usesVint true o
  | .vpopc o => usesVun o
  | .vclz o => usesVun o
  | .vsel o => usesVsel o
  | .vmov o => usesVun o
  | .vbcast o => usesVbcast o
  | .vext o => usesVext o
  | .vins o => usesVins o
  | .vfcvt o => usesVfcvt o
  | .vftoi o => usesVfint o
  | .vftoiu o => usesVfint o
  | .vitof o => usesVfint o
  | .viutof o => usesVfint o
  | .vfton o => usesVfnar o
  | .vntof o => usesVfnar o
  | .vmxsc o => usesVmxsc o
  | .vmxpk o => usesVmx o
  | .vmxunpk o => usesVmx o
  | .vexp2 o => usesVfp1r .transcendental o
  | .vlog2 o => usesVfp1r .transcendental o
  | .vrcp o => usesVfp1r .transcendental o
  | .vrsqrt o => usesVfp1r .transcendental o
  | .vsinpi o => usesVfp1r .transcendental o
  | .vcospi o => usesVfp1r .transcendental o
  | .vshuf o => usesVvv o
  | .vperm o => usesVperm o
  | .vrot o => usesVrot o
  | .vvoteAny _ => { v := [0], on := onW 32 }
  | .vvoteAll _ => { v := [0], on := onW 32 }
  | .vvoteBallot o => usesVballot o
  | .vmatch o => usesVun o
  | .vredAdd o => usesVfred o
  | .vredMin o => usesVfred o
  | .vredMax o => usesVfred o
  | .vredIadd o => usesVired o
  | .vredImin o => usesVired o
  | .vredImax o => usesVired o
  | .vredIminu o => usesVired o
  | .vredImaxu o => usesVired o
  | .vredAnd o => usesVired o
  | .vredOr o => usesVired o
  | .vredXor o => usesVired o
  | .vscanAdd o => usesVfscan o
  | .vscanMin o => usesVfscan o
  | .vscanMax o => usesVfscan o
  | .vscanIadd o => usesViscan o
  | .vscanImin o => usesViscan o
  | .vscanImax o => usesViscan o
  | .vscanIminu o => usesViscan o
  | .vscanImaxu o => usesViscan o
  | .mma o => usesProduct o.t o.a o.b
  | .mmaMx o => usesProduct o.t o.a o.b
  | .mmaI8 o => usesProduct o.t o.a o.b
  | .mmaI4 o => usesProduct o.t o.a o.b
  | .mmsrMinplus o => usesProduct o.t o.a o.b
  | .mmsrMaxtimes o => usesProduct o.t o.a o.b
  | .mmsrOrand o => usesProduct o.t o.a o.b
  | .mzero o => { m := [o.t], lat := 1, eff := true, noFp := true }
  | .mload o => usesMload o
  | .mdrain o => usesMdrain o
  | .mdrainAdd o => usesMdrain o
  | .mdrainQ o => { rg := [(o.b, false), (o.param, false)], m := [o.t], eff := true, noFp := true }
  | .mwait o => { m := [o.t], noFp := true }
  | .mwaitAll _ => { noFp := true }
  | .mrd o => usesMrd o
  | .mcmd o => { rg := [(o.b, false), (o.c, false)], eff := true, noFp := true }
  | .mgrant o => { rg := [(o.b, false), (o.c, false)], wg := [(o.rd, false)], noFp := true }
  | .mring o => { rg := [(o.b, false)], eff := true, noFp := true }
  | .mringRecv _ => { eff := true, noFp := true }
  | .mpass _ => { eff := true, noFp := true }
  | .mcap o => { wg := [(o.rd, false)], noFp := true }
  | .mfmt o => { rg := [(o.x, true)], noFp := true }
  | .mfmtr o => { wg := [(o.rd, false)], noFp := true }
  | .shape o => { v := [o.vd, o.x], noFp := true }
  | .copy o => usesCopy o
  | .lds o => usesShard true o
  | .ldso o => usesShard true o
  | .sts o => usesShard false o
  | .stso o => usesShard false o
  | .shinv o => { rg := [(o.b, false), (o.c, false)], lg := [o.rd], lat := 1, eff := true, noFp := true }
  | .cfetch o => usesCfetch o
  | .cfetchNote o => usesCfetch o
  | .ampApply o => { rg := [(o.b, false)], eff := true, noFp := true }
  | .ampPerm o => { rg := [(o.b, false)], eff := true, noFp := true }
  | .collRun o => { rg := [(o.b, false), (o.c, false)], eff := true, noFp := true }
  | .collRunReload o => { rg := [(o.b, false), (o.c, false)], eff := true, noFp := true }
  | .baddq o => usesBaddq o
  | .blkq o => usesBlkq o
  | .blkqDone o => { rg := [(o.b, false)], eff := true, noFp := true }
  | _ => {}

/-- The switch marker and the governing predicate of an issued instruction. -/
def preOf : Instr → Pre
  | .add o => o.pre
  | .sub o => o.pre
  | .and o => o.pre
  | .or o => o.pre
  | .xor o => o.pre
  | .shl o => o.pre
  | .shr o => o.pre
  | .sar o => o.pre
  | .mul o => o.pre
  | .mov o => o.pre
  | .ld o => o.pre
  | .st o => o.pre
  | .vld o => o.pre
  | .vst o => o.pre
  | .br o => brPre o
  | .call o => o.pre
  | .jmp o => o.pre
  | .ceq o => o.pre
  | .clt o => o.pre
  | .cltu o => o.pre
  | .fadd o => o.pre
  | .fmul o => o.pre
  | .ffma o => o.pre
  | .fsub o => o.pre
  | .vadd o => o.pre
  | .vmul o => o.pre
  | .vfma o => o.pre
  | .div o => o.pre
  | .divu o => o.pre
  | .rem o => o.pre
  | .remu o => o.pre
  | .mulh o => o.pre
  | .mulhu o => o.pre
  | .mulhsu o => o.pre
  | .bfx o => o.pre
  | .bfxu o => o.pre
  | .bfi o => o.pre
  | .clz o => o.pre
  | .ctz o => o.pre
  | .popc o => o.pre
  | .bswap o => o.pre
  | .sextB o => o.pre
  | .sextH o => o.pre
  | .sextW o => o.pre
  | .zextB o => o.pre
  | .zextH o => o.pre
  | .zextW o => o.pre
  | .min o => o.pre
  | .max o => o.pre
  | .minu o => o.pre
  | .maxu o => o.pre
  | .addsat o => o.pre
  | .subsat o => o.pre
  | .addsatu o => o.pre
  | .subsatu o => o.pre
  | .addsh o => o.pre
  | .movh o => o.pre
  | .faddRounded o => o.pre
  | .fsubRounded o => o.pre
  | .fmulRounded o => o.pre
  | .ffmaRounded o => o.pre
  | .ffms o => o.pre
  | .fnma o => o.pre
  | .fdiv o => o.pre
  | .fsqrt o => o.pre
  | .fmin o => o.pre
  | .fmax o => o.pre
  | .fabs o => o.pre
  | .fneg o => o.pre
  | .fceq o => o.pre
  | .fclt o => o.pre
  | .fcle o => o.pre
  | .fcun o => o.pre
  | .fclass o => o.pre
  | .fcvt o => o.pre
  | .ftoi o => o.pre
  | .ftoiu o => o.pre
  | .itof o => o.pre
  | .iutof o => o.pre
  | .fton o => o.pre
  | .ntof o => o.pre
  | .fexp2 o => o.pre
  | .flog2 o => o.pre
  | .frcp o => o.pre
  | .frsqrt o => o.pre
  | .fsinpi o => o.pre
  | .fcospi o => o.pre
  | .pand o => o.pre
  | .por o => o.pre
  | .pxor o => o.pre
  | .pandn o => o.pre
  | .pset o => o.pre
  | .psetg o => o.pre
  | .pgetg o => o.pre
  | .ppopc o => o.pre
  | .ppack o => o.pre
  | .punpack o => o.pre
  | .psave o => o.pre
  | .prest o => o.pre
  | .jov o => o.pre
  | .enter o => o.pre
  | .leave o => o.pre
  | .trap o => o.pre
  | .brk o => o.pre
  | .bany o => brPre o
  | .ball o => brPre o
  | .tret o => o.pre
  | .srr o => o.pre
  | .srw o => o.pre
  | .mbxs o => o.pre
  | .mbxr o => o.pre
  | .wfi o => o.pre
  | .ecall o => o.pre
  | .tlbsdInval o => o.pre
  | .tlbsdTransit o => o.pre
  | .tlbsdLand o => o.pre
  | .tlbsdDiscard o => o.pre
  | .tlbsdRanges o => o.pre
  | .tlbsdResume o => o.pre
  | .tlbsdRefuse o => o.pre
  | .ldSigned o => o.pre
  | .ldo o => o.pre
  | .ldoSigned o => o.pre
  | .sto o => o.pre
  | .vgatherW o => o.pre
  | .vgatherD o => o.pre
  | .vscatterW o => o.pre
  | .vscatterD o => o.pre
  | .ldf o => o.pre
  | .fence o => o.pre
  | .fenceSc o => o.pre
  | .getl o => o.pre
  | .stp o => o.pre
  | .aadd o => o.pre
  | .amin o => o.pre
  | .amax o => o.pre
  | .aminu o => o.pre
  | .amaxu o => o.pre
  | .aand o => o.pre
  | .aor o => o.pre
  | .axor o => o.pre
  | .aswp o => o.pre
  | .acas o => o.pre
  | .redAdd o => o.pre
  | .redMin o => o.pre
  | .redMax o => o.pre
  | .redMinu o => o.pre
  | .redMaxu o => o.pre
  | .redAnd o => o.pre
  | .redOr o => o.pre
  | .redXor o => o.pre
  | .afaddF32 o => o.pre
  | .afaddBf16 o => o.pre
  | .redFaddF32 o => o.pre
  | .redFaddBf16 o => o.pre
  | .taddF32 o => o.pre
  | .taddI32 o => o.pre
  | .taddBf16 o => o.pre
  | .spawn o => o.pre
  | .quit o => o.pre
  | .susp o => o.pre
  | .fld o => o.pre
  | .fldS o => o.pre
  | .ffill o => o.pre
  | .fclr o => o.pre
  | .waitc o => o.pre
  | .armMsg o => o.pre
  | .armInc o => o.pre
  | .disarmMsg o => o.pre
  | .disarmInc o => o.pre
  | .barArrive o => o.pre
  | .barWait o => o.pre
  | .barTest o => o.pre
  | .grow o => o.pre
  | .wquiet o => o.pre
  | .wsplit o => o.pre
  | .ibx o => o.pre
  | .ibxT o => o.pre
  | .vaddRounded o => o.pre
  | .vsub o => o.pre
  | .vmulRounded o => o.pre
  | .vfmaRounded o => o.pre
  | .vfms o => o.pre
  | .vfnma o => o.pre
  | .vdiv o => o.pre
  | .vsqrt o => o.pre
  | .vfmin o => o.pre
  | .vfmax o => o.pre
  | .vfabs o => o.pre
  | .vfneg o => o.pre
  | .vfceq o => o.pre
  | .vfclt o => o.pre
  | .vfcle o => o.pre
  | .vfcun o => o.pre
  | .vceq o => o.pre
  | .vclt o => o.pre
  | .vcltu o => o.pre
  | .viadd o => o.pre
  | .visub o => o.pre
  | .vimul o => o.pre
  | .vimin o => o.pre
  | .vimax o => o.pre
  | .viminu o => o.pre
  | .vimaxu o => o.pre
  | .viaddsat o => o.pre
  | .visubsat o => o.pre
  | .viaddsatu o => o.pre
  | .visubsatu o => o.pre
  | .vinarrow o => o.pre
  | .vinarrowu o => o.pre
  | .vinarrowsu o => o.pre
  | .viwiden o => o.pre
  | .viwidenu o => o.pre
  | .vand o => o.pre
  | .vor o => o.pre
  | .vxor o => o.pre
  | .vandn o => o.pre
  | .vshl o => o.pre
  | .vshr o => o.pre
  | .vsar o => o.pre
  | .vpopc o => o.pre
  | .vclz o => o.pre
  | .vsel o => o.pre
  | .vmov o => o.pre
  | .vbcast o => o.pre
  | .vext o => o.pre
  | .vins o => o.pre
  | .vfcvt o => o.pre
  | .vftoi o => o.pre
  | .vftoiu o => o.pre
  | .vitof o => o.pre
  | .viutof o => o.pre
  | .vfton o => o.pre
  | .vntof o => o.pre
  | .vmxsc o => o.pre
  | .vmxpk o => o.pre
  | .vmxunpk o => o.pre
  | .vexp2 o => o.pre
  | .vlog2 o => o.pre
  | .vrcp o => o.pre
  | .vrsqrt o => o.pre
  | .vsinpi o => o.pre
  | .vcospi o => o.pre
  | .vshuf o => o.pre
  | .vperm o => o.pre
  | .vrot o => o.pre
  | .vvoteAny o => o.pre
  | .vvoteAll o => o.pre
  | .vvoteBallot o => o.pre
  | .vmatch o => o.pre
  | .vredAdd o => o.pre
  | .vredMin o => o.pre
  | .vredMax o => o.pre
  | .vredIadd o => o.pre
  | .vredImin o => o.pre
  | .vredImax o => o.pre
  | .vredIminu o => o.pre
  | .vredImaxu o => o.pre
  | .vredAnd o => o.pre
  | .vredOr o => o.pre
  | .vredXor o => o.pre
  | .vscanAdd o => o.pre
  | .vscanMin o => o.pre
  | .vscanMax o => o.pre
  | .vscanIadd o => o.pre
  | .vscanImin o => o.pre
  | .vscanImax o => o.pre
  | .vscanIminu o => o.pre
  | .vscanImaxu o => o.pre
  | .mma o => o.pre
  | .mmaMx o => o.pre
  | .mmaI8 o => o.pre
  | .mmaI4 o => o.pre
  | .mmsrMinplus o => o.pre
  | .mmsrMaxtimes o => o.pre
  | .mmsrOrand o => o.pre
  | .mzero o => o.pre
  | .mload o => o.pre
  | .mdrain o => o.pre
  | .mdrainAdd o => o.pre
  | .mdrainQ o => o.pre
  | .mwait o => o.pre
  | .mwaitAll o => o.pre
  | .mrd o => o.pre
  | .mcmd o => o.pre
  | .mgrant o => o.pre
  | .mring o => o.pre
  | .mringRecv o => o.pre
  | .mpass o => o.pre
  | .mcap o => o.pre
  | .mfmt o => o.pre
  | .mfmtr o => o.pre
  | .shape o => o.pre
  | .copy o => o.pre
  | .lds o => o.pre
  | .ldso o => o.pre
  | .sts o => o.pre
  | .stso o => o.pre
  | .shinv o => o.pre
  | .cfetch o => o.pre
  | .cfetchNote o => o.pre
  | .ampApply o => o.pre
  | .ampPerm o => o.pre
  | .collRun o => o.pre
  | .collRunReload o => o.pre
  | .baddq o => o.pre
  | .blkq o => o.pre
  | .blkqDone o => o.pre
  | _ => { sw := false, neg := false, pn := 0 }

/-- The row is one that a core issues: the table's rows before the machine's own steps. -/
def isIssued (i : Instr) : Bool := decide (i.ctorIdx < 308)

end Sys2Proof.Machine
end

