-- ==== Sys2Proof/Machine/RunAhead.lean ====
section
/-!
DEFINITION. What a core's turn issues (R39, R396), and run-ahead after a page fault (R411): a thread that waits for its batch to be sent goes on in a
shadow slot under the core's rotation, and nothing that it does there remains but the pages that its probes find absent.
-/
namespace Sys2Proof.Machine

noncomputable section

/-! ## What a value comes from -/

/-- Where an instruction's results come from, beside the general registers that `usesOf` gives: an access, with the registers that its address is
computed from; the vector and predicate registers that it reads and writes; `acc` where what a written vector or predicate register held before stays
in part; `jump` for a control transfer. -/
structure Flow where
  mem : Bool := false
  jump : Bool := false
  acc : Bool := false
  addrG : List GReg := []
  addrV : List VReg := []
  rv : List VReg := []
  wv : List VReg := []
  rp : List PReg := []
  wp : List PReg := []

/-- The registers of an offset. -/
def offRegs : Off → List GReg
  | .reg r => [r]
  | _ => []

def flowMem (o : MemOps) : Flow := { mem := true, addrG := o.base :: offRegs o.off }
def flowVMem (o : VMemOps) : Flow := { mem := true, addrG := o.base :: offRegs o.off }
def flowGath (o : GathOps) : Flow := { mem := true, addrG := [o.base], addrV := [o.idx] }
def flowStp (o : StpOps) : Flow :=
  { mem := true, addrG := [o.base], rv := match o.data with | .v r => [r] | .g _ _ => [] }
def flowVfp (fused : Bool) (o : VFpOps) : Flow := { rv := o.x :: vRegs o.y, wv := [o.vd], acc := fused }

/-- Of the instructions of the pages that run-ahead goes through: 0 to 3 and 5. -/
def flowOf : Instr → Flow
  | .ld o => flowMem o
  | .st o => flowMem o
  | .vld o => { flowVMem o with wv := [o.v] }
  | .vst o => { flowVMem o with rv := [o.v] }
  | .br o => { jump := true, rp := [o.pn] }
  | .call _ => { jump := true }
  | .jmp _ => { jump := true }
  | .ceq o => { wp := [o.pd] }
  | .clt o => { wp := [o.pd] }
  | .cltu o => { wp := [o.pd] }
  | .vadd o => flowVfp false o
  | .vmul o => flowVfp false o
  | .vfma o => flowVfp true o
  | .fceq o => { wp := [o.pd] }
  | .fclt o => { wp := [o.pd] }
  | .fcle o => { wp := [o.pd] }
  | .fcun o => { wp := [o.pd] }
  | .pand o => { rp := [o.x, o.y], wp := [o.pd] }
  | .por o => { rp := [o.x, o.y], wp := [o.pd] }
  | .pxor o => { rp := [o.x, o.y], wp := [o.pd] }
  | .pandn o => { rp := [o.x, o.y], wp := [o.pd] }
  | .pset o => { wp := [o.pd] }
  | .psetg o => { wp := [o.pd] }
  | .pgetg o => { rp := [o.x] }
  | .ppopc o => { rp := [o.x] }
  | .ppack _ => { rp := List.finRange 8 }
  | .punpack _ => { wp := List.finRange 8, acc := true }
  | .psave o => { rp := List.finRange 8, wv := [o.v], acc := true }
  | .prest o => { rv := [o.v], wp := List.finRange 8 }
  | .jov _ => { jump := true }
  | .enter _ => { mem := true, addrG := [2] }
  | .leave _ => { mem := true, addrG := [2] }
  | .bany o => { jump := true, rp := [o.pn] }
  | .ball o => { jump := true, rp := [o.pn] }
  | .tret _ => { jump := true }
  | .ldSigned o => flowMem o
  | .ldo o => flowMem o
  | .ldoSigned o => flowMem o
  | .sto o => flowMem o
  | .vgatherW o => { flowGath o with wv := [o.v] }
  | .vgatherD o => { flowGath o with wv := [o.v] }
  | .vscatterW o => { flowGath o with rv := [o.v] }
  | .vscatterD o => { flowGath o with rv := [o.v] }
  | .ldf o => { mem := true, addrG := [o.base, o.pitch], wv := [o.v] }
  | .getl o => { mem := true, addrG := [o.dst, o.src] }
  | .stp o => flowStp o
  | .aadd o => { mem := true, addrG := [o.base] }
  | .amin o => { mem := true, addrG := [o.base] }
  | .amax o => { mem := true, addrG := [o.base] }
  | .aminu o => { mem := true, addrG := [o.base] }
  | .amaxu o => { mem := true, addrG := [o.base] }
  | .aand o => { mem := true, addrG := [o.base] }
  | .aor o => { mem := true, addrG := [o.base] }
  | .axor o => { mem := true, addrG := [o.base] }
  | .aswp o => { mem := true, addrG := [o.base] }
  | .acas o => { mem := true, addrG := [o.base] }
  | .redAdd o => { mem := true, addrG := [o.base] }
  | .redMin o => { mem := true, addrG := [o.base] }
  | .redMax o => { mem := true, addrG := [o.base] }
  | .redMinu o => { mem := true, addrG := [o.base] }
  | .redMaxu o => { mem := true, addrG := [o.base] }
  | .redAnd o => { mem := true, addrG := [o.base] }
  | .redOr o => { mem := true, addrG := [o.base] }
  | .redXor o => { mem := true, addrG := [o.base] }
  | .afaddF32 o => { mem := true, addrG := [o.base] }
  | .afaddBf16 o => { mem := true, addrG := [o.base] }
  | .redFaddF32 o => { mem := true, addrG := [o.base] }
  | .redFaddBf16 o => { mem := true, addrG := [o.base] }
  | .taddF32 o => { mem := true, addrG := [o.base], rv := [o.v] }
  | .taddI32 o => { mem := true, addrG := [o.base], rv := [o.v] }
  | .taddBf16 o => { mem := true, addrG := [o.base], rv := [o.v] }
  | .vaddRounded o => flowVfp false o
  | .vsub o => flowVfp false o
  | .vmulRounded o => flowVfp false o
  | .vfmaRounded o => flowVfp true o
  | .vfms o => flowVfp true o
  | .vfnma o => flowVfp true o
  | .vdiv o => flowVfp false o
  | .vsqrt o => { rv := [o.x], wv := [o.vd] }
  | .vfmin o => { rv := [o.x, o.y], wv := [o.vd] }
  | .vfmax o => { rv := [o.x, o.y], wv := [o.vd] }
  | .vfabs o => { rv := [o.x], wv := [o.vd] }
  | .vfneg o => { rv := [o.x], wv := [o.vd] }
  | .vfceq o => { rv := o.x :: vRegs o.y, wp := [o.pd], acc := true }
  | .vfclt o => { rv := o.x :: vRegs o.y, wp := [o.pd], acc := true }
  | .vfcle o => { rv := o.x :: vRegs o.y, wp := [o.pd], acc := true }
  | .vfcun o => { rv := o.x :: vRegs o.y, wp := [o.pd], acc := true }
  | .vceq o => { rv := o.x :: vRegs o.y, wp := [o.pd], acc := true }
  | .vclt o => { rv := o.x :: vRegs o.y, wp := [o.pd], acc := true }
  | .vcltu o => { rv := o.x :: vRegs o.y, wp := [o.pd], acc := true }
  | .viadd o => { rv := o.x :: vRegs o.y, wv := [o.vd] }
  | .visub o => { rv := o.x :: vRegs o.y, wv := [o.vd] }
  | .vimul o => { rv := o.x :: vRegs o.y, wv := [o.vd] }
  | .vimin o => { rv := o.x :: vRegs o.y, wv := [o.vd] }
  | .vimax o => { rv := o.x :: vRegs o.y, wv := [o.vd] }
  | .viminu o => { rv := o.x :: vRegs o.y, wv := [o.vd] }
  | .vimaxu o => { rv := o.x :: vRegs o.y, wv := [o.vd] }
  | .viaddsat o => { rv := [o.x, o.y], wv := [o.vd] }
  | .visubsat o => { rv := [o.x, o.y], wv := [o.vd] }
  | .viaddsatu o => { rv := [o.x, o.y], wv := [o.vd] }
  | .visubsatu o => { rv := [o.x, o.y], wv := [o.vd] }
  | .vinarrow o => { rv := [o.x], wv := [o.vd], acc := true }
  | .vinarrowu o => { rv := [o.x], wv := [o.vd], acc := true }
  | .vinarrowsu o => { rv := [o.x], wv := [o.vd], acc := true }
  | .viwiden o => { rv := [o.x], wv := [o.vd], acc := true }
  | .viwidenu o => { rv := [o.x], wv := [o.vd], acc := true }
  | .vand o => { rv := o.x :: vRegs o.y, wv := [o.vd] }
  | .vor o => { rv := o.x :: vRegs o.y, wv := [o.vd] }
  | .vxor o => { rv := o.x :: vRegs o.y, wv := [o.vd] }
  | .vandn o => { rv := o.x :: vRegs o.y, wv := [o.vd] }
  | .vshl o => { rv := o.x :: vRegs o.y, wv := [o.vd] }
  | .vshr o => { rv := o.x :: vRegs o.y, wv := [o.vd] }
  | .vsar o => { rv := o.x :: vRegs o.y, wv := [o.vd] }
  | .vpopc o => { rv := [o.x], wv := [o.vd] }
  | .vclz o => { rv := [o.x], wv := [o.vd] }
  | .vsel o => { rv := [o.x, o.y], rp := [o.k], wv := [o.vd] }
  | .vmov o => { rv := [o.x], wv := [o.vd] }
  | .vbcast o => { wv := [o.vd] }
  | .vext o => { rv := [o.x] }
  | .vins o => { wv := [o.vd], acc := true }
  | .vfcvt o => { rv := [o.x], wv := [o.vd], acc := true }
  | .vftoi o => { rv := [o.x], wv := [o.vd] }
  | .vftoiu o => { rv := [o.x], wv := [o.vd] }
  | .vitof o => { rv := [o.x], wv := [o.vd] }
  | .viutof o => { rv := [o.x], wv := [o.vd] }
  | .vfton o => { rv := [o.x], wv := [o.vd], acc := true }
  | .vntof o => { rv := [o.x], wv := [o.vd], acc := true }
  | .vmxsc o => { rv := [o.x] }
  | .vmxpk o => { rv := [o.x], wv := [o.vd], acc := true }
  | .vmxunpk o => { rv := [o.x], wv := [o.vd], acc := true }
  | .vexp2 o => { rv := [o.x], wv := [o.vd] }
  | .vlog2 o => { rv := [o.x], wv := [o.vd] }
  | .vrcp o => { rv := [o.x], wv := [o.vd] }
  | .vrsqrt o => { rv := [o.x], wv := [o.vd] }
  | .vsinpi o => { rv := [o.x], wv := [o.vd] }
  | .vcospi o => { rv := [o.x], wv := [o.vd] }
  | .vshuf o => { rv := [o.x, o.y], wv := [o.vd] }
  | .vperm o => { rv := [o.x], wv := [o.vd] }
  | .vrot o => { rv := [o.x], wv := [o.vd] }
  | .vvoteAny o => { rp := [o.x], wp := [o.pd], acc := true }
  | .vvoteAll o => { rp := [o.x], wp := [o.pd], acc := true }
  | .vvoteBallot o => { rp := [o.x] }
  | .vmatch o => { rv := [o.x], wv := [o.vd] }
  | .vredAdd o => { rv := [o.x], wv := [o.vd], acc := true }
  | .vredMin o => { rv := [o.x], wv := [o.vd], acc := true }
  | .vredMax o => { rv := [o.x], wv := [o.vd], acc := true }
  | .vredIadd o => { rv := [o.x], wv := [o.vd], acc := true }
  | .vredImin o => { rv := [o.x], wv := [o.vd], acc := true }
  | .vredImax o => { rv := [o.x], wv := [o.vd], acc := true }
  | .vredIminu o => { rv := [o.x], wv := [o.vd], acc := true }
  | .vredImaxu o => { rv := [o.x], wv := [o.vd], acc := true }
  | .vredAnd o => { rv := [o.x], wv := [o.vd], acc := true }
  | .vredOr o => { rv := [o.x], wv := [o.vd], acc := true }
  | .vredXor o => { rv := [o.x], wv := [o.vd], acc := true }
  | .vscanAdd o => { rv := [o.x], wv := [o.vd] }
  | .vscanMin o => { rv := [o.x], wv := [o.vd] }
  | .vscanMax o => { rv := [o.x], wv := [o.vd] }
  | .vscanIadd o => { rv := [o.x], wv := [o.vd] }
  | .vscanImin o => { rv := [o.x], wv := [o.vd] }
  | .vscanImax o => { rv := [o.x], wv := [o.vd] }
  | .vscanIminu o => { rv := [o.x], wv := [o.vd] }
  | .vscanImaxu o => { rv := [o.x], wv := [o.vd] }
  | _ => {}

/-! ## Invalid registers -/

def badGs (a : Ahead) (l : List GReg) : Bool := l.any (fun r => a.badG.contains r.val)
def badVs (a : Ahead) (l : List VReg) : Bool := l.any (fun r => a.badV.contains r.val)
def badPs (a : Ahead) (l : List PReg) : Bool := l.any (fun r => a.badP.contains r.val)

/-- Whether the instruction runs is not known: its governing predicate is invalid. -/
def badPre (a : Ahead) (i : Instr) : Bool := badPs a [(preOf i).pn]

/-- A register that the instruction reads is invalid. -/
def readsBad (a : Ahead) (i : Instr) : Bool :=
  badPre a i || badGs a ((usesOf i).rg.map (·.1)) || badVs a (flowOf i).rv || badPs a (flowOf i).rp

/-- The address of an access cannot be computed. -/
def addrBad (a : Ahead) (i : Instr) : Bool := badPre a i || badGs a (flowOf i).addrG || badVs a (flowOf i).addrV

/-- Numbers marked, or no longer. -/
def mark (bad : Bool) (l old : List Nat) : List Nat := old.filter (fun x => !l.contains x) ++ (if bad then l else [])

/-- Every register that the instruction writes is marked. -/
def markAll (a : Ahead) (i : Instr) : Ahead :=
  { a with
    badG := mark true (((usesOf i).wg.map (·.1) ++ (usesOf i).lg).filter (· ≠ 0) |>.map (·.val)) a.badG
    badV := mark true ((flowOf i).wv.map (·.val)) a.badV
    badP := mark true (((flowOf i).wp.filter (· ≠ 0)).map (·.val)) a.badP }

/-- A written register's mark: invalid where a source is, or where it keeps a part of an invalid value. -/
def markFixed (bad keeps : Bool) (l old : List Nat) : List Nat :=
  l.foldl (fun o r => mark (bad || (keeps && o.contains r)) [r] o) old

/-- The marks after an instruction that has run (R411): variable-latency results are invalid, the others as their sources are. -/
def markRun (a : Ahead) (i : Instr) (outs : List Out) : Ahead :=
  let bad := readsBad a i
  let keeps := (flowOf i).acc || decide ((preOf i).pn ≠ 0)
  let late := outs.map (fun o => o.dst)
  { a with
    badG := mark true (late.filterMap (fun d => match d with | .g r => some r.val | _ => none))
      (markFixed bad (decide ((preOf i).pn ≠ 0)) (((usesOf i).wg.map (·.1)).filter (· ≠ 0) |>.map (·.val)) a.badG)
    badV := mark true (late.filterMap (fun d => match d with | .v r => some r.val | _ => none)) (markFixed bad keeps ((flowOf i).wv.map (·.val)) a.badV)
    badP := markFixed bad keeps (((flowOf i).wp.filter (· ≠ 0)).map (·.val)) a.badP }

/-! ## The course of run-ahead -/

/-- The opcode page that an instruction's words name (R141): 0 without PAGE. -/
def pageOfWords (ws : List Nat) : Nat :=
  match ws.find? (fun w => decide (w / 2 ^ 10 % 2 ^ 5 = 30)) with
  | some w => w % 8
  | none => 0

/-- The pages whose instructions end run-ahead. -/
def endsAhead (ws : List Nat) : Bool := ([4, 6, 7] : List Nat).contains (pageOfWords ws)

/-- The fault of a thread that waits for its batch, with a shadow slot. -/
def aheadOf (s : State) (c : CoreId) (slot : Nat) : Option FaultWait :=
  (getT s c slot).bind (fun t => (getPkg s c.pkg).waits.find? (fun f =>
    decide (f.core = c ∧ f.slot = slot ∧ t.run = .held (.ticket f.ticket)) && !f.sent && f.shadow))

/-- The batch's first page: that of the fault. -/
def faultPage (f : FaultWait) : Probe :=
  { write := f.write, addr := f.addr, pkg := pkgOf f.core f.addr, page := f.page, homePkg := f.homePkg, homeFp := f.homeFp }

/-- Run-ahead begins with the faulting instruction, which does not count; one of page 4, 6 or 7 is passed over, its results invalid. What is
outstanding then is invalid too. DESIGN CHOICE: log entry 52. -/
def startAhead (t : Thread) (f : FaultWait) : Ahead :=
  let ws := f.words.map (·.toNat)
  let dsts := t.out.map (fun o => o.dst)
  let a : Ahead := {
    regs := t.regs, pc := t.pc, seg := t.seg, badG := dsts.filterMap (fun d => match d with | .g r => some r.val | _ => none),
    badV := dsts.filterMap (fun d => match d with | .v r => some r.val | _ => none), badP := [], left := 129, pages := [faultPage f], ended := false }
  if endsAhead ws then { markAll a (decode ws).instr with pc := t.pc + 2 * ws.length, left := 128 } else a

/-- How far a thread has run ahead. -/
def aheadNow (s : State) (f : FaultWait) : Option Ahead := f.ahead.or ((getT s f.core f.slot).map (fun t => startAhead t f))

/-- Run-ahead has ended: by itself, with 16 pages, after 128 instructions, or after 4,096 cycles. -/
def aheadOver (s : State) (f : FaultWait) : Bool :=
  decide (f.since + 4096 ≤ s.clock) || f.ahead.any (fun a => a.ended || decide (a.left = 0) || decide (16 ≤ a.pages.length))

/-- A slot's thread may run ahead now. -/
def mayAhead (s : State) (c : CoreId) (slot : Nat) : Bool :=
  let k := getCore s c
  match aheadOf s c slot, getT s c slot with
  | some f, some t => !aheadOver s f && !k.halted && !t.halted && (match aheadNow s f with
    | some a => isResident k a.seg
    | none => false)
  | _, _ => false

def putAhead (s : State) (f : FaultWait) (a : Ahead) : State :=
  modPkg s f.core.pkg (fun k => { k with waits := k.waits.map (fun x => if x = f then { x with ahead := some a } else x) })

/-- A probe (R411): a page that is absent joins the batch, once, and not beyond 16. -/
def probePage (s : State) (w : Who) (l : List Probe) (x : Dword × Bool) : List Probe :=
  match (xlate s w x.1 x.2).2 with
  | .fault p _ pg hp hf =>
    if 16 ≤ l.length ∨ l.any (fun y => decide (y.pkg = p ∧ y.page = pg)) = true then l
    else l ++ [{ write := x.2, addr := x.1, pkg := p, page := pg, homePkg := hp, homeFp := hf }]
  | _ => l

/-- The first and the last byte of each access that an instruction of the shadow slot would make, and whether it writes. -/
def probesOf (s1 s2 : State) (u : Thread) : List (Dword × Bool) :=
  let ends := fun (write : Bool) (r : Dword × Nat) => [(r.1, write), (r.1 + dw (r.2 - 1), write)]
  u.acc.flatMap (fun x => x.op.ranges.flatMap (ends (isWrite x.op))) ++
    (s2.items.filter (fun i => decide (s1.itemSeq ≤ i.id))).flatMap (fun i => match i.op with
      | .getl _ _ => []
      | _ => i.ranges.flatMap (ends true))

/-- The instruction in hand ends run-ahead: it traps, or it cannot go on. -/
def aheadStops (t u : Thread) : Bool := u.trap.isSome || (u.inHandler && !t.inHandler) || decide (u.run ≠ .ready)

/-- What an instruction of the shadow slot leaves, of all that it did. -/
def aheadRun (s1 s2 : State) (f : FaultWait) (a : Ahead) (i : Instr) : Ahead :=
  match getT s1 f.core f.slot, getT s2 f.core f.slot with
  | some t, some u =>
    if aheadStops t u then { a with ended := true }
    else
      let b := if isOff t (preOf i) (usesOf i) && !badPre a i then a else markRun a i u.out
      { b with
        regs := u.regs, pc := u.pc, seg := u.seg, left := a.left - 1
        pages := (probesOf s1 s2 u).foldl (probePage s1 (whoOf f.core t)) a.pages }
  | _, _ => { a with ended := true }

/-! ## A core's turn (R396) -/

/-- The slot first in rotation after the one that issued last, of those that can issue or run ahead. -/
def turnSlot (s : State) (c : CoreId) : Option Nat :=
  let k := getCore s c
  ((List.range 16).map (fun i => (k.last + 1 + i) % 16)).find? (fun i => canIssue c k i || mayAhead s c i)

/-- The instruction at a PC in a core's instruction memory, in hand for a slot's thread. -/
def inHandAt (s : State) (c : CoreId) (slot pc : Nat) : State × Instr :=
  let ws := fetchWords (getCore s c).imem pc 5
  let d := decode ws
  let s1 := { modCore s c (fun k => { k with last := slot }) with cur := { core := c, slot := slot, words := (ws.take d.nwords).map (BitVec.ofNat 16) } }
  (s1, refine s1 d.instr)

/-- A turn of the shadow slot: the thread stands in its slot as the shadow has it, with nothing outstanding. An instruction that ends run-ahead does
not run, nor does an access whose address is invalid, whose results are invalid. -/
def aheadIssue (s : State) (c : CoreId) (slot : Nat) (f : FaultWait) (a : Ahead) : State × Option Instr :=
  let ws := fetchWords (getCore s c).imem a.pc 5
  let i := (decode ws).instr
  let n := (decode ws).nwords
  let last := fun (s : State) => modCore s c (fun k => { k with last := slot })
  if endsAhead (ws.take n) || ((flowOf i).jump && readsBad a i) then (putAhead (last s) f { a with ended := true }, none)
  else if (flowOf i).mem && addrBad a i then (putAhead (last s) f { markAll a i with pc := a.pc + 2 * n, left := a.left - 1 }, none)
  else
    let r := inHandAt (modT s c slot (fun t => { t with
      regs := a.regs, pc := a.pc, seg := a.seg, run := .ready, marker := false, out := [], acc := [], trap := none, woken := none })) c slot a.pc
    (r.1, some r.2)

/-- What a core's turn issues: the state with the instruction in hand, and the instruction. None where no slot can issue. -/
def coreIssue (s : State) (c : CoreId) : State × Option Instr :=
  let s1 := refresh s c
  match turnSlot s1 c with
  | none => (s1, none)
  | some slot =>
    match getT s1 c slot, (aheadOf s1 c slot).bind (fun f => (aheadNow s1 f).map (fun a => (f, a))) with
    | none, _ => (s1, none)
    | some _, some (f, a) => aheadIssue s1 c slot f a
    | some t, none => let r := inHandAt s1 c slot t.pc; (r.1, some r.2)

/-- The state after an instruction that a core's turn has issued: of one in a shadow slot nothing remains but how far run-ahead is. -/
def afterIssue (s : State) (c : CoreId) (i : Instr) (s1 s2 : State) : State :=
  let slot := s1.cur.slot
  match aheadOf s c slot with
  | some f => (match aheadNow s f with
    | some a => putAhead (modCore s c (fun k => { k with last := slot })) f (aheadRun s1 s2 f a i)
    | none => s)
  | none => keepLast (getCore s c).last s1 s2

/-! ## The batch (R408, R411) -/

/-- The records of a batch under one ticket: LAST on the final one for each home (R408, R411). -/
def batchRecs (w : Who) (ticket : Nat) : List Probe → List FaultRec
  | [] => []
  | b :: l =>
    let last := !l.any (fun x => decide (x.homePkg = b.homePkg ∧ x.homeFp = b.homeFp))
    { homePkg := b.homePkg, homeFp := b.homeFp, pid := w.pid,
      d0 := dw (bit last 61 + bit b.write 60 + w.pid * 2 ^ 56 + w.asid * 2 ^ 40 + ticket), page := dw b.page, addr := dw (locOf b.addr),
      rq := dw (w.core.pkg * 2 ^ 48 + w.core.n % 2 ^ 13), sender := senderAt w.core.pkg (coreHub w.core.n) } :: batchRecs w ticket l

/-- The pages of a batch: with no shadow slot the faulting page alone. -/
def batchPages (f : FaultWait) : List Probe := match f.ahead with
  | some a => a.pages
  | none => [faultPage f]

/-- RUN_AHEAD_END (R411): run-ahead being over, or the thread having no shadow slot, the batch is sent; its thread stands as R410 left it, and the
shadow slot is free. A thread that waits no more sends nothing. DESIGN CHOICE: log entry 52. -/
def execRunAheadEnd (c : CoreId) (slot ticket : Nat) (s : State) : Host.Outcome State Fault Refusal :=
  match (getPkg s c.pkg).waits.find? (fun w => decide (w.core = c ∧ w.slot = slot ∧ w.ticket = ticket) && !w.sent) with
  | none => .next s
  | some f =>
    match (getT s c slot).filter (fun t => decide (t.run = .held (.ticket f.ticket))) with
    | none => .next (modPkg s c.pkg (fun k => { k with waits := k.waits.filter (fun x => decide (x ≠ f)) }))
    | some t =>
      if f.shadow && !aheadOver s f then .next s
      else .next (drainRecs (modPkg s c.pkg (fun k => { k with
        waits := k.waits.map (fun x => if x = f then { x with sent := true, shadow := false, ahead := none } else x)
        recs := k.recs ++ batchRecs (whoOf c t) f.ticket (batchPages f) })))

end

end Sys2Proof.Machine
end

