-- ==== Sys2Proof/Machine/Digest.lean ====
section
/-!
DEFINITION. The algorithms that R2 names for the trust die and R445 and R446 use: SHA-384, and ECDSA with it over the 384-bit Brainpool curve of
RFC 5639. The spec gives their names; their numbers and steps are those of FIPS 180-4, FIPS 186 and RFC 5639. PRESUMED: log entry 82.
-/
namespace Sys2Proof.Machine

/-! ## SHA-384 -/

/-- The round constants. -/
def shaRound : List Dword :=
  [0x428A2F98D728AE22, 0x7137449123EF65CD, 0xB5C0FBCFEC4D3B2F, 0xE9B5DBA58189DBBC, 0x3956C25BF348B538,
    0x59F111F1B605D019, 0x923F82A4AF194F9B, 0xAB1C5ED5DA6D8118, 0xD807AA98A3030242, 0x12835B0145706FBE,
    0x243185BE4EE4B28C, 0x550C7DC3D5FFB4E2, 0x72BE5D74F27B896F, 0x80DEB1FE3B1696B1, 0x9BDC06A725C71235,
    0xC19BF174CF692694, 0xE49B69C19EF14AD2, 0xEFBE4786384F25E3, 0x0FC19DC68B8CD5B5, 0x240CA1CC77AC9C65] ++
   [0x2DE92C6F592B0275, 0x4A7484AA6EA6E483, 0x5CB0A9DCBD41FBD4, 0x76F988DA831153B5, 0x983E5152EE66DFAB,
    0xA831C66D2DB43210, 0xB00327C898FB213F, 0xBF597FC7BEEF0EE4, 0xC6E00BF33DA88FC2, 0xD5A79147930AA725,
    0x06CA6351E003826F, 0x142929670A0E6E70, 0x27B70A8546D22FFC, 0x2E1B21385C26C926, 0x4D2C6DFC5AC42AED,
    0x53380D139D95B3DF, 0x650A73548BAF63DE, 0x766A0ABB3C77B2A8, 0x81C2C92E47EDAEE6, 0x92722C851482353B] ++
   [0xA2BFE8A14CF10364, 0xA81A664BBC423001, 0xC24B8B70D0F89791, 0xC76C51A30654BE30, 0xD192E819D6EF5218,
    0xD69906245565A910, 0xF40E35855771202A, 0x106AA07032BBD1B8, 0x19A4C116B8D2D0C8, 0x1E376C085141AB53,
    0x2748774CDF8EEB99, 0x34B0BCB5E19B48A8, 0x391C0CB3C5C95A63, 0x4ED8AA4AE3418ACB, 0x5B9CCA4F7763E373,
    0x682E6FF3D6B2B8A3, 0x748F82EE5DEFB2FC, 0x78A5636F43172F60, 0x84C87814A1F0AB72, 0x8CC702081A6439EC] ++
   [0x90BEFFFA23631E28, 0xA4506CEBDE82BDE9, 0xBEF9A3F7B2C67915, 0xC67178F2E372532B, 0xCA273ECEEA26619C,
    0xD186B8C721C0C207, 0xEADA7DD6CDE0EB1E, 0xF57D4F7FEE6ED178, 0x06F067AA72176FBA, 0x0A637DC5A2C898A6,
    0x113F9804BEF90DAE, 0x1B710B35131C471B, 0x28DB77F523047D84, 0x32CAAB7B40C72493, 0x3C9EBE0A15C9BEBC,
    0x431D67C49C100D4C, 0x4CC5D4BECB3E42B6, 0x597F299CFC657E2A, 0x5FCB6FAB3AD6FAEC, 0x6C44198C4A475817]

/-- The eight words of a hash value. -/
structure ShaState where
  a : Dword
  b : Dword
  c : Dword
  d : Dword
  e : Dword
  f : Dword
  g : Dword
  h : Dword
deriving DecidableEq, Repr, Inhabited

/-- The initial hash value. -/
def shaInit : ShaState :=
  {
    a := 0xCBBB9D5DC1059ED8, b := 0x629A292A367CD507, c := 0x9159015A3070DD17, d := 0x152FECD8F70E5939,
    e := 0x67332667FFC00B31, f := 0x8EB44A8768581511, g := 0xDB0C2E0D64F98FA7, h := 0x47B5481DBEFA4FA4 }

/-- n more words of a message schedule, the newest word first. -/
def shaWords : Nat → List Dword → List Dword
  | 0, l => l
  | n + 1, l =>
    let x := l.getD 14 0
    let y := l.getD 1 0
    let w := ((y.rotateRight 19) ^^^ (y.rotateRight 61) ^^^ (y >>> 6)) + l.getD 6 0 + ((x.rotateRight 1) ^^^ (x.rotateRight 8) ^^^ (x >>> 7)) + l.getD 15 0
    shaWords n (w :: l)

/-- One round, with its constant and its word of the schedule. -/
def shaStep (s : ShaState) (x : Dword × Dword) : ShaState :=
  let t := s.h + ((s.e.rotateRight 14) ^^^ (s.e.rotateRight 18) ^^^ (s.e.rotateRight 41)) + ((s.e &&& s.f) ^^^ (~~~s.e &&& s.g)) + x.1 + x.2
  let u := ((s.a.rotateRight 28) ^^^ (s.a.rotateRight 34) ^^^ (s.a.rotateRight 39)) + ((s.a &&& s.b) ^^^ (s.a &&& s.c) ^^^ (s.b &&& s.c))
  { a := t + u, b := s.a, c := s.b, d := s.c, e := s.d + t, f := s.e, g := s.f, h := s.g }

/-- A number of whole words, the first one high. -/
def beNat (l : List Byte) : Nat := l.foldl (fun x b => 256 * x + b.toNat) 0

/-- The bytes of a number, the highest one first. -/
def beBytes (n x : Nat) : List Byte := (leBytes n x).reverse

/-- A block of 128 bytes taken in. -/
def shaBlock (s : ShaState) (block : List Byte) : ShaState :=
  let ws := (List.range 16).map (fun i => BitVec.ofNat 64 (beNat ((block.drop (8 * i)).take 8)))
  let r := (shaRound.zip (shaWords 64 ws.reverse).reverse).foldl shaStep s
  {
    a := s.a + r.a, b := s.b + r.b, c := s.c + r.c, d := s.d + r.d, e := s.e + r.e, f := s.f + r.f, g := s.g + r.g, h := s.h + r.h }

/-- A message with its padding: a one bit, zeros, and its length in bits. -/
def shaPadded (m : List Byte) : List Byte := m ++ 0x80#8 :: List.replicate ((239 - m.length % 128) % 128) 0#8 ++ beBytes 16 (8 * m.length)

/-- The blocks of a padded message. -/
def shaBlocks : Nat → List Byte → ShaState → ShaState
  | 0, _, s => s
  | n + 1, m, s => shaBlocks n (m.drop 128) (shaBlock s (m.take 128))

/-- SHA-384 of some bytes. -/
def sha384 (m : List Byte) : Digest :=
  let p := shaPadded m
  let s := shaBlocks (p.length / 128) p shaInit
  s.a ++ s.b ++ s.c ++ s.d ++ s.e ++ s.f

/-- The bytes of a digest, and of a signature: r, then s. -/
def digestBytes (d : Digest) : List Byte := beBytes 48 d.toNat
def signatureBytes (x : Signature) : List Byte := beBytes 96 x.toNat

/-! ## The curve brainpoolP384r1 (RFC 5639) -/

/-- Its field, its coefficient A, the order of its group, and its base point. -/
def curveP : Nat := 0x8CB91E82A3386D280F5D6F7E50E641DF152F7109ED5456B412B1DA197FB71123ACD3A729901D1A71874700133107EC53
def curveA : Nat := 0x7BC382C63D8C150C3C72080ACE05AFA0C2BEA28E4FB22787139165EFBA91F90F8AA5814A503AD4EB04A8C7DD22CE2826
def curveQ : Nat := 0x8CB91E82A3386D280F5D6F7E50E641DF152F7109ED5456B31F166E6CAC0425A7CF3AB6AF6B7FC3103B883202E9046565
def curveG : CurvePoint :=
  {
    x := 0x1D1C64F068CF45FFA2A63A81B7C13F6B8847A3E77EF14FE3DB7FCAFE0CBD10E8E826E03436D646AAEF87B2E247D4AF1E
    y := 0x8ABE1D7520F9C2A45CB1EB8E95CFD55262B70B29FEEC5864E19C054FF99129280E4646217791811142820341263C5315 }

/-- A power of a number below 2^384, by a modulus. -/
def powMod (m b e : Nat) : Nat :=
  (List.range 384).foldl (fun r i => if e.testBit (383 - i) then r * r % m * b % m else r * r % m) 1

/-- An inverse by a prime modulus. -/
def invMod (m x : Nat) : Nat := powMod m x (m - 2)

/-- A difference by a modulus of numbers below it. -/
def subMod (m x y : Nat) : Nat := (x + m - y) % m

/-- The point of a slope through a point, with the first coordinate of another. -/
def chord (p : CurvePoint) (x2 slope : Nat) : CurvePoint :=
  let x := subMod curveP (subMod curveP (slope * slope % curveP) p.x) x2
  { x := x, y := subMod curveP (slope * subMod curveP p.x x % curveP) p.y }

/-- The sum of two points; none is the point at infinity. -/
def addPoints : Option CurvePoint → Option CurvePoint → Option CurvePoint
  | none, q => q
  | p, none => p
  | some p, some q =>
    if p.x = q.x then
      if (p.y + q.y) % curveP = 0 then none
      else some (chord p q.x ((3 * p.x * p.x + curveA) * invMod curveP (2 * p.y % curveP) % curveP))
    else some (chord p q.x (subMod curveP q.y p.y * invMod curveP (subMod curveP q.x p.x) % curveP))

/-- A multiple of a point by a number below 2^384. -/
def mulPoint (n : Nat) (p : CurvePoint) : Option CurvePoint :=
  (List.range 384).foldl (fun r i => if n.testBit (383 - i) then addPoints (addPoints r r) (some p) else addPoints r r) none

/-! ## ECDSA -/

/-- A signature checks against a public key, for a digest (R445). -/
def ecdsaVerifies (key : CurvePoint) (d : Digest) (sig : Signature) : Bool :=
  let r := sig.toNat / 2 ^ 384
  let s := sig.toNat % 2 ^ 384
  let w := invMod curveQ (s % curveQ)
  decide (0 < r ∧ r < curveQ ∧ 0 < s ∧ s < curveQ) &&
    (match addPoints (mulPoint (d.toNat * w % curveQ) curveG) (mulPoint (r * w % curveQ) key) with
     | some x => decide (x.x % curveQ = r)
     | none => false)

/-- The signature of a digest under a private key, with its random number (R446). -/
def ecdsaSign (priv nonce : Nat) (d : Digest) : Signature :=
  let r := match mulPoint nonce curveG with
    | some x => x.x % curveQ
    | none => 0
  BitVec.ofNat 768 (r * 2 ^ 384 + invMod curveQ nonce * ((d.toNat + r * priv) % curveQ) % curveQ)

end Sys2Proof.Machine
end

