-- ==== Sys2Proof/Machine/Trust.lean ====
section
/-!
DEFINITION. The trust die (spec/19): PF 0, boot and reset, partitions and their keys, the job, retention, power, and the SPDM responder.
-/
namespace Sys2Proof.Machine

/-! ## PF 0 (R450) -/

/-- PCAP as it reads. -/
def pcapOf (s : State) (p : Nat) : Dword := dw ((getPkg s p).clkstep * 2 ^ 24 + (getPkg s p).cap)

/-- RETMAP j: bit c is 1 when cluster 64j + c sleeps, from the start of entry to the end of exit (R451). -/
def retmapOf (s : State) (p j : Nat) : Dword :=
  dw (((List.range 64).map (fun c => if isAwake (getHub s p (64 * j + c)).ret then 0 else 2 ^ c)).foldl (· + ·) 0)

/-- What the host reads at an 8-aligned offset of BAR 0 of PF 0: none completes with Unsupported Request. -/
def pf0Register (s : State) (p off : Nat) : Option Dword :=
  if off % 8 ≠ 0 then none
  else if off = 0 then some (getPkg s p).bootstat
  else if off = 8 then some (getPkg s p).qtab
  else if off = 16 then some 0
  else if off = 24 then some (pcapOf s p)
  else if 0x100 ≤ off ∧ off < 0x140 then some (retmapOf s p ((off - 0x100) / 8))
  else if 0x8000 ≤ off ∧ off < 0xA000 then
    some (dw (((List.range 8).map (fun i => (getCore s { pkg := p, n := off - 0x8000 + i }).maxRows * 2 ^ (8 * i))).foldl (· + ·) 0))
  else none

/-- QTAB written (R450): discarded while any descriptor of the table is VALID. -/
def qtabWrite (s : State) (p : Nat) (v : Dword) : State :=
  if (List.range (2 ^ 16)).any (fun q => descValid (descBits s p q)) then s else modPkg s p (fun k => { k with qtab := v &&& 0xFFFFFFFFFFC0#64 })

/-! ## Power and clock (R453) -/

/-- A millisecond of the reference clock. -/
def millisecond : Nat := 1900000

/-- CLOCK_STEP (R453): once per millisecond, the power of the last one against CAP. DESIGN CHOICE: log entry 68. -/
def execClockStep (pkg watts : Nat) (s : State) : Host.Outcome State Fault Refusal :=
  if s.clock < (getPkg s pkg).lastStep + millisecond then .next s
  else .next (modPkg s pkg (fun k => { k with
    lastStep := s.clock
    clkstep := if k.cap < watts then k.clkstep - 1 else if 100 * watts < 95 * k.cap then Nat.min 15 (k.clkstep + 1) else k.clkstep }))

/-! ## Boot (R444, R445, R448, R449) -/

/-- The firmware of the Delian die (0) or of a compute die (1 + die): the stored image, or the one the package came with. -/
def firmwareOf (k : Pkg) (p i : Nat) : FwImage := ((k.firmware[i]?).join).getD (Config.bootFirmware p i)

/-- ERR of an image: 1 where its signature checks against no key of the key store, 2 rollback, 0 verified (R445). DESIGN CHOICE: log entry 11. -/
def imageErr (f : FwImage) : Nat :=
  if Config.keyStore.any (fun k => ecdsaVerifies k (sha384 f.payload) f.sig) = false then 1 else if f.version < Config.antiRollback then 2 else 0

/-- A measurement extended with some bytes (R446: index i is kept at place i - 1): SHA-384 of the old digest and the bytes. DESIGN CHOICE: log entry 11. -/
def extendMeasure (k : Pkg) (i : Nat) (x : List Byte) : Pkg :=
  { k with measures := k.measures.setIfInBounds (i - 1) (sha384 (digestBytes (k.measures[i - 1]?.getD 0) ++ x)) }

/-- BOOTSTAT with a stage reached, the dies released and the first error kept. -/
def bootstatOf (old stage err dieok : Nat) (ready : Bool) : Dword :=
  dw ((if ready then 2 ^ 63 else 0) + dieok * 2 ^ 16 + stage * 2 ^ 8 + (if old % 2 ^ 8 = 0 then err else old % 2 ^ 8))

def setBoot (k : Pkg) (stage err : Nat) (die : Option Nat) (ready : Bool) : Pkg :=
  let old := k.bootstat.toNat
  let dies := old / 2 ^ 16 % 16 + (match die with | some d => 2 ^ d | none => 0)
  { k with bootstat := bootstatOf old stage err dies ready }

/-- The defective physical cores of a cluster, as its die's fuses name them. -/
def defectsOf (bin : BootIn) (k : Nat) : List Nat := ((bin.defects.filter (fun x => decide (x.1 = k) && decide (x.2 < 17))).map (fun x => x.2)).eraseDups

/-- A cluster of a die is beyond repair: it has two or more defective cores (R448). -/
def beyondRepair (bin : BootIn) (d : Nat) : Bool := (List.range 128).any (fun i => decide (2 ≤ (defectsOf bin (128 * d + i)).length))

/-- The spare map of a die (R17, R448): the defective core of each cluster whose spare is in use. -/
def sparesOf (bin : BootIn) (d : Nat) : List (Nat × Nat) :=
  (List.range 128).filterMap (fun i => ((defectsOf bin (128 * d + i)).head?).map (fun c => (128 * d + i, c)))

/-- MAXROWS of a core as its fuses give it (R313). DESIGN CHOICE: log entry 65. -/
def maxRowsOf (bin : BootIn) (n : Nat) : Nat :=
  match bin.harvest.find? (fun x => decide (x.1 = n)) with
  | some x => if x.2 = 8 ∨ x.2 = 12 then x.2 else 16
  | none => 16

/-- Steps 2 and 3 for a die (R444). DESIGN CHOICE: log entry 65. -/
def bootDie (bin : BootIn) (s : State) (p d : Nat) : State :=
  let k := getPkg s p
  let f := firmwareOf k p (1 + d)
  if imageErr f ≠ 0 then setPkg s p (setBoot k 2 (imageErr f) none false)
  else
    let k1 := { extendMeasure k (2 + d) f.payload with spares := k.spares ++ sparesOf bin d }
    if beyondRepair bin d then setPkg s p (setBoot k1 2 4 none false)
    else
      let s1 := setPkg s p { setBoot k1 3 0 (some d) false with dieRelease := k1.dieRelease.setIfInBounds d s.clock }
      bin.harvest.foldl (fun s x => if x.1 / 2048 = d ∧ x.1 < 8192 then
        modCore s { pkg := p, n := x.1 } (fun c => { c with maxRows := maxRowsOf bin x.1 }) else s) s1

/-- The thread of a fault processor at the release of its die: slot 0, its program's first word, and the format presets that every thread has
(R119, R122). DESIGN CHOICE: log entry 3. -/
def fpThread : Thread :=
  {
    regs := { Regs.zero with nf := Vector.ofFn (fun i => nfPresets.getD i.val 0) }, allot := { g := 64, v := 32, a := 0 }, net := false, pc := 0, seg := 0, pid := 0,
    asid := 0, gslot := none, kernel := 0, domain := 0, weight := 0, group := 0, tid := 0, crew := 0, prio := 0, slim := 0, inHandler := false, run := .ready,
    marker := false, seq := 0, out := [], acc := [], trap := none, woken := none, halted := false, parkedAt := 0 }

/-- The fault processors of the released dies get the privileged software that boot found. DESIGN CHOICE: log entry 3. -/
def bootFps (bin : BootIn) (s : State) (p : Nat) : State :=
  if bin.fpCode = [] then s
  else ((List.range 16).filter (fun i => dieOk s p (i / 4))).foldl (fun s i =>
    modCore s { pkg := p, n := 8192 + i } (fun c => { setSlot c 0 (some fpThread) with imem := bin.fpCode })) s

/-- The spare map and the matrix harvest of every core, as measurement 6 takes them in: per cluster the core that its spare replaces (17 for none), then
per core its MAXROWS. DESIGN CHOICE: log entry 11. -/
def fuseBytes (s : State) (p : Nat) : List Byte :=
  (List.range 512).map (fun c => BitVec.ofNat 8 ((((getPkg s p).spares.find? (fun x => decide (x.1 = c))).map (fun x => x.2)).getD 17)) ++
    (List.range 8192).map (fun n => BitVec.ofNat 8 (getCore s { pkg := p, n := n }).maxRows)

/-- The steps of R444, from the state of a module reset. DESIGN CHOICE: log entry 65. -/
def boot (bin : BootIn) (s0 : State) (p : Nat) : State :=
  let s := modPkg s0 p (fun k => { k with fuses := some bin })
  let k := getPkg s p
  let f := firmwareOf k p 0
  if imageErr f ≠ 0 then setPkg s p (setBoot k 1 (imageErr f) none false)
  else
    let s1 := setPkg s p (setBoot (extendMeasure k 1 f.payload) 1 0 none false)
    let s2 := (List.range 4).foldl (fun s d => bootDie bin s p d) s1
    let bad := bin.badStacks.filter (· < 16)
    let s3 := modPkg s2 p (fun k => { setBoot k 4 (if bad = [] then 0 else 3) none false with badStacks := bad })
    let s4 := modPkg s3 p (fun k => { setBoot (extendMeasure k 6 (fuseBytes s3 p)) 5 0 none true with booted := true, lastStep := s.clock })
    bootFps bin s4 p

/-! ## Reset (R443, R444, R453) -/

/-- Images that a firmware update left take their places (R445): only those that verify. -/
def newFirmware (k : Pkg) : List (Option FwImage) :=
  (List.range 5).map (fun i => match k.nextFw.find? (fun x => decide (x.1 = i) && decide (imageErr x.2 = 0)) with
    | some x => some x.2
    | none => (k.firmware[i]?).join)

/-- The host's reads that are outstanding, each completed with Completer Abort (R443). -/
def abortAll (k : Pkg) : List HostOut :=
  k.hostOut ++ k.hostReqs.filterMap (fun r => match r.op with | .inr _ => some .aborted | .inl _ => none)

/-- A module reset: every grid of the package ends without a DONE arrival, and every part is as at power-good; what HBM and SRAM held is gone. DESIGN
CHOICE: log entry 65. -/
def resetModule (s : State) (p : Nat) : State :=
  let k := getPkg s p
  let k1 := { Pkg.reset with firmware := newFirmware k, epoch := k.epoch + 1, hostOut := abortAll k, fuses := k.fuses }
  let lo := p * 2 ^ 48
  let out := fun (a : Nat) => decide (a < lo) || decide (lo + 2 ^ 48 ≤ a)
  let here := fun (w : Who) => decide (w.core.pkg = p)
  {
    s with
    mem := memForget s.mem lo (lo + 2 ^ 48)
    empty := s.empty.filter out
    poison := s.poison.filter out
    cores := s.cores.filter (fun x => decide (x.1.pkg ≠ p))
    hubs := s.hubs.filter (fun x => decide (x.1.1 ≠ p))
    pkgs := aPut s.pkgs p k1
    redirects := s.redirects.filter (fun r => decide (r.pkg ≠ p))
    wbuf := s.wbuf.filter (fun b => !here b.who)
    items := s.items.filter (fun i => !here i.who)
    arrivals := s.arrivals.filter (fun i => !here i.who)
    arms := s.arms.filter (fun m => !here m.who && decide (pkgOf m.who.core m.flag ≠ p))
    copies := s.copies.filter (fun j => !here j.job.who)
    walks := s.walks.filter (fun w => decide (w.pkg ≠ p))
    nwords := s.nwords.filter (fun w => decide (w.pkg ≠ p))
    reelArr := s.reelArr.filter (fun m => decide (m.pkg ≠ p))
    reelRel := s.reelRel.filter (fun m => decide (m.pkg ≠ p))
    remotes := s.remotes.filter (fun m => !here m.who)
    shoots := s.shoots.filter (fun x => !here x.who)
    lates := s.lates.filter (fun l => out l.img)
    lateAccs := s.lateAccs.filter (fun l => !here l.who)
    cmds := s.cmds.filter (fun x => out x.1)
    lines := s.lines.filter (fun x => out x.1)
    watches := s.watches.filter (fun w => decide (w.pkg ≠ p))
    owed := s.owed.filter (fun o => !here o.who) }

/-- A reset of a module, and the steps of R444 that follow it with the same fuses. -/
def restart (s : State) (p : Nat) : State :=
  let s1 := resetModule s p
  match (getPkg s1 p).fuses with
  | some bin => boot bin s1 p
  | none => s1

/-- MODULE_RESET (R443, R444). -/
def execModuleReset (pkg : Nat) (s : State) : Host.Outcome State Fault Refusal := .next (restart s pkg)

/-- THERMAL_TRIP (R453): every thread stops and the module is reset, as from the management port (R443). DESIGN CHOICE: log entry 65. -/
def execThermalTrip (pkg _die : Nat) (s : State) : Host.Outcome State Fault Refusal := .next (restart s pkg)

/-- FIRMWARE_UPDATE (R443, R445): in effect at the next module reset, and only by passing its check. -/
def execFirmwareUpdate (pkg : Nat) (die : Option Nat) (img : FwImage) (s : State) : Host.Outcome State Fault Refusal :=
  let i := match die with
    | some d => d + 1
    | none => 0
  .next (modPkg s pkg (fun k => { k with nextFw := k.nextFw.filter (fun x => decide (x.1 ≠ i)) ++ [(i, img)] }))

/-- POWER_GOOD (R444). -/
def execPowerGood (pkg : Nat) (bin : BootIn) (s : State) : Host.Outcome State Fault Refusal :=
  if pkg = 0 ∨ 4096 ≤ pkg then .next s else .next (boot bin (resetModule s pkg) pkg)

/-! ## Partitions (R357, R401, R447) -/

/-- What the stacks of a mask of reaches hold is forgotten: under a fresh key no old value can be read. -/
def forgetStacks (s : State) (p mask : Nat) : State :=
  (List.range 16).foldl (fun s r => if mask / 2 ^ r % 2 = 1 then
    { s with mem := memForget s.mem (devPhys p (2 ^ 36 * r)) (devPhys p (2 ^ 36 * (r + 1))) } else s) s

/-- What hubs and ports cache of a partition. -/
def forgetCaches (s : State) (p pid mask : Nat) : State :=
  let s1 := modPkg s p (fun k => {
    k with tlb := k.tlb.filter (fun t => decide (t.pid ≠ pid)), transits := k.transits.filter (fun t => decide (t.pid ≠ pid)) })
  { s1 with hubs := s1.hubs.map (fun h => if h.1.1 = p then
      (h.1, { h.2 with ranges := h.2.ranges.filter (fun e => decide (e.pid ≠ pid)), shard := if mask / 2 ^ reachOfCluster h.1.2 % 2 = 1 then [] else h.2.shard })
    else h) }

/-- A reach may be given to a new partition. DESIGN CHOICE: log entry 66. -/
def reachFree (s : State) (p r : Nat) : Bool := serves s p true r && (pidOfReach s p r).isNone

/-- PARTITION_CREATE (R357, R401, R447): without effect where the PID is in use or a reach is not to be had. DEDUCED: log entry 5. DESIGN CHOICE: log entry 66. -/
def execPartitionCreate (pkg pid : Nat) (reaches fpmap : Half) (notify : Nat) (s : State) : Host.Outcome State Fault Refusal :=
  let mask := reaches.toNat
  if 16 ≤ pid ∨ mask = 0 ∨ (getPkg s pkg).booted = false ∨ created s pkg pid = true ∨
      (List.range 16).any (fun r => decide (mask / 2 ^ r % 2 = 1) && !reachFree s pkg r) = true then .next s
  else
    let s1 := forgetStacks s pkg mask
    let e := (getPkg s1 pkg).epoch + 1
    let b : PBlock := {
      PBlock.reset with
      pctl := dw (2 ^ 63 + mask * 2 ^ 32 + pkg), fpmap := dw (notify % 16 * 2 ^ 16 + fpmap.toNat), key := e }
    let s2 := modPkg s1 pkg (fun k => { k with epoch := e, blocks := k.blocks.setIfInBounds pid b })
    .next (writeNat s2 none (devPhys pkg (transBlock s2 pkg pid)) 4096 0)

/-- PARTITION_DESTROY (R447): only while no grid of the partition is live. DESIGN CHOICE: log entry 66. -/
def execPartitionDestroy (pkg pid : Nat) (s : State) : Host.Outcome State Fault Refusal :=
  if 16 ≤ pid ∨ created s pkg pid = false ∨ partLive s pkg pid = true then .next s
  else
    let mask := reaches s pkg pid
    let s1 := forgetCaches (forgetStacks s pkg mask) pkg pid mask
    .next (modPkg s1 pkg (fun k => { k with epoch := k.epoch + 1, blocks := k.blocks.setIfInBounds pid PBlock.reset }))

/-! ## The job (R436, R439, R446, R447) -/

/-- The number of the key of a channel, as a fabric link's session gives it: both ends name the link by the end of lower package number. -/
def linkKey (s : State) (p port q chan : Nat) : Nat := 1 + chan + 8 * (if p < q then 8 * p + port else 8 * q + opposite port) + 2 ^ 18 * s.tick

/-- A package's links as the job leaves them (R439, R447): the modes that level M sets, and a session's key for each channel of a link that leads to a
package of the job. -/
def jobLinks (s : State) (j : Job4) (p : Nat) (auth : List LinkClass) : Vector Link 8 :=
  Vector.ofFn (fun (n : Fin 8) => {
    auth := Vector.ofFn (fun (c : Fin 4) => auth.contains { pkg := p, port := n.val, cls := c.val })
    chans := Vector.ofFn (fun (c : Fin 8) => {
      key := match peerOf j p n.val with
        | some q => linkKey s p n.val q c.val
        | none => 0
      flits := 0 }) })

/-- The bytes of job sizes and coordinates, as measurement 7 takes them in. -/
def jobBytes (j : Job4) (p : Nat) : List Byte := ([j.na, j.nb, j.nc, j.nd] ++ coords j p).map (BitVec.ofNat 8)

/-- JOB_FORMATION (R436, R439, R447): sizes within their limits, of packages that have booted; each extends measurement 7 with them and its coordinates, and
its links get their modes and keys. DESIGN CHOICE: log entry 66. -/
def execJobFormation (na nb nc nd : JobAxis) (s : State) : Host.Outcome State Fault Refusal :=
  let j : Job4 := { na := na.size, nb := nb.size, nc := nc.size, nd := nd.size }
  let total := j.na * j.nb * j.nc * j.nd
  let auth := na.auth ++ nb.auth ++ nc.auth ++ nd.auth
  let ps := (List.range total).map (· + 1)
  if j.na = 0 ∨ 64 < j.na ∨ j.nb = 0 ∨ 64 < j.nb ∨ j.nc = 0 ∨ 2 < j.nc ∨ j.nd = 0 ∨ 2 < j.nd ∨ 4095 < total ∨
      ps.any (fun p => !((aGet s.pkgs p).isSome && (getPkg s p).booted)) = true then .next s
  else
    .next (ps.foldl (fun s p => modPkg s p (fun k => { extendMeasure k 7 (jobBytes j p) with links := jobLinks s j p auth })) { s with job := some j })

/-! ## Retention (R451, R452) -/

/-- An address, resolved at its issuer's core, lies in a cluster's scratchpads or pool. DESIGN CHOICE: log entry 67. -/
def towards (p k : Nat) (w : Who) (a : Dword) : Bool := inCluster p k (physOf w.core a)

/-- The record heap of a cluster holds a record: a slot whose STATE is not zero (R54, R60). -/
def heapUsed (s : State) (p k : Nat) : Bool :=
  match pidOfReach s p (reachOfCluster k) with
  | none => false
  | some pid => (List.range (heapOf s p pid).2).any (fun i => decide (readNat s none (heapAt s p pid k i + 63) 1 ≠ 0))

/-- Addresses that an amplitude operation still has to touch. -/
def ampTouches (j : AmpJob) : List Dword :=
  if j.perm then (permOld j ++ permNew j ++ permRecord j).map (·.1)
  else (((List.range (dword j.blk.toNat 4)).filter (fun g => decide (dword j.blk.toNat 3 ≤ g) && !j.doneGroups.contains g)).flatMap
    (fun g => (groupMembers j g).map (·.1))) ++ (ampUni j).map (·.1)

/-- Addresses that a step of a braid touches. -/
def stepTouches (r : BraidRun) (x : Step) : List Dword :=
  match x.kind with
  | 0 | 6 => []
  | 5 => [stepDst r x]
  | _ => (stepParts x (stepSrc r x) ++ stepParts x (stepDst r x)).map (·.1)

/-- A run with its steps, those of one that has not started as it would find them. -/
def runAsRead (s : State) (p cluster : Nat) (r : BraidRun) : BraidRun :=
  if r.started then r
  else match (readBraid s p cluster r).2 with
    | .inl (some steps) => r.begin_ steps
    | _ => r

/-- A braid run of a hub still has something to do at cluster k of package q: bytes to touch, blocks to push there, or its braid to read. -/
def runTowards (s : State) (q k p cluster : Nat) (r : BraidRun) : Bool :=
  let y := runAsRead s p cluster r
  (!r.started && towards q k r.job.who r.addr) || (y.steps.zip y.st).any (fun x => !x.2.done &&
    ((stepTouches y x.1).any (towards q k r.job.who) || (decide (x.1.kind = 6) && decide (p = q) && decide (x.1.len / 2 ^ 16 % 2 ^ 9 = k))))

/-- A copy still has to touch bytes of a cluster. -/
def copyTowards (q k : Nat) (j : CopyJob) : Bool :=
  (copyRows j.rcd.toNat j.src j.dst).any (fun x => x.2.any (fun e => towards q k j.job.who e.1 || towards q k j.job.who e.2))

/-- An overlay load is to fill a cluster's instruction memories, or reads there. -/
def loadTowards (q k : Nat) (c : CoreId) (l : SegLoad) : Bool :=
  (decide (c.pkg = q) && decide (c.n < 8192) && decide (clusterOf c.n = k)) || (sectorParts l.seg.size l.image l.seg.size).any (fun x => towards q k (weirWho c l.pid l.asid) x.1)

/-- Nothing keeps a cluster awake (R451): no tenancy, no record, and no engine operation, redirect entry or item in flight towards it; the operations of
its own engines count. DESIGN CHOICE: log entry 67. -/
def quietCluster (s : State) (p k : Nat) : Bool :=
  let h := getHub s p k
  (List.range 16).all (fun i => (getCore s { pkg := p, n := 16 * k + i }).tenancy.isNone) &&
  h.ring.isEmpty && !heapUsed s p k && h.amps.isEmpty && h.runs.isEmpty && h.blocks.isEmpty &&
  !s.hubs.any (fun x => x.2.amps.any (fun j => (ampTouches j).any (towards p k j.job.who)) ||
    x.2.runs.any (runTowards s p k x.1.1 x.1.2)) &&
  !s.redirects.any (fun r => decide (r.pkg = p) && decide (clusterOf r.core = k)) &&
  !s.items.any (fun x => (x.reaches ++ x.ranges.map (·.1)).any (towards p k x.who)) &&
  !s.arrivals.any (fun x => towards p k x.who x.flag) &&
  !s.copies.any (copyTowards p k) &&
  !s.cores.any (fun c => c.2.loads.any (loadTowards p k c.1) || c.2.mq.any (fun m => match drainRange m with
    | some r => towards p k m.who r.1
    | none => false)) &&
  !s.remotes.any (fun x => decide (x.target.pkg = p) && decide (x.target.n < 8192) && decide (clusterOf x.target.n = k)) &&
  !s.walks.any (fun x => decide (x.pkg = p ∧ x.cluster = k))

/-- RETCTL OP 1 (R451): discarded unless the cluster is quiet. DESIGN CHOICE: log entry 67. -/
def enterRetention (s : State) (p cluster : Nat) : State :=
  if cluster < 512 ∧ (getHub s p cluster).ret = .awake ∧ quietCluster s p cluster = true then
    modHub s p cluster (fun h => { h with ret := .entering (s.clock + retentionCycles) false })
  else s

/-- A cluster's re-encoding is over in this cycle. -/
def reencodeDue (s : State) (p cluster : Nat) : Bool :=
  match (getHub s p cluster).ret with
  | .entering till _ | .exiting till => decide (till ≤ s.clock)
  | _ => false

/-- The soft errors that a re-encoding has met (R452): those corrected are counted, the others leave an entry with SRC 1 or 2. DESIGN CHOICE: log entry 67. -/
def reencodeErrors (s : State) (p cluster : Nat) : State :=
  modHub ((s.poison.filter (inCluster p cluster)).foldl poisonEntry s) p cluster (fun h => { h with corrected := h.corrected + Config.softErrors s.tick })

/-- Entry or exit of a cluster ends once its time has gone by; an entry that a request met is followed by exit (R451, R452). -/
def reencoded (s : State) (p cluster : Nat) : State :=
  let s1 := if reencodeDue s p cluster then reencodeErrors s p cluster else s
  modHub s1 p cluster (fun h => { h with ret := match h.ret with
    | .entering till wake => if s.clock < till then .entering till wake else if wake then .exiting (s.clock + retentionCycles) else .asleep
    | .exiting till => if s.clock < till then .exiting till else .awake
    | x => x })

/-- The host writes the register at an offset of BAR 0 of PF 0 (R450); what is read-only is ignored (R7), as are OP 0 and 3 of RETCTL. -/
def pf0Write (s : State) (p off : Nat) (v : Dword) : State :=
  if off = 8 then qtabWrite s p v
  else if off = 16 then (if fld v 63 62 = 1 then enterRetention s p (fld v 8 0) else if fld v 63 62 = 2 then wakeCluster s p (fld v 8 0) else s)
  else if off = 24 then setCap s p (fld v 11 0)
  else s

/-! ## The SPDM responder (R446) -/

/-- An answer of the responder: bytes that the spec gives, after bytes of its own for a request with an SPDM code. DESIGN CHOICE: log entries 11, 69. -/
def spdmAnswer (s : State) (p code : Nat) (bytes : List Byte) : State := answerHost s p (.read (Config.spdm code s.tick ++ bytes))

/-- What the device identity key signs, with its signature (R446): SHA-384 is every hash. -/
def signed (s : State) (p : Nat) (bytes : List Byte) : List Byte :=
  bytes ++ signatureBytes (ecdsaSign (Config.deviceKey p) (Config.nonce s.tick) (sha384 bytes))

/-- The certificate of a package's device identity. DESIGN CHOICE: log entry 11. -/
def certificate (p : Nat) : List Byte := Config.spdm 0x82 p

/-- GET_VERSION: SPDM 1.3, whichever transport carries the request. DESIGN CHOICE: log entry 69. -/
def execGetVersion (pkg : Nat) (_overDoe : Bool) (s : State) : Host.Outcome State Fault Refusal :=
  .next (answerHost s pkg (.read [0x13]))

/-- GET_CAPABILITIES. -/
def execGetCapabilities (pkg : Nat) (_overDoe : Bool) (s : State) : Host.Outcome State Fault Refusal := .next (spdmAnswer s pkg 0xE1 [])

/-- NEGOTIATE_ALGORITHMS: SHA-384, whose algorithm numbers in SPDM are bit 1 of the base hashes and 4 of the measurement hashes. PRESUMED: log entry 79. -/
def execNegotiateAlgorithms (pkg : Nat) (_overDoe : Bool) (s : State) : Host.Outcome State Fault Refusal := .next (spdmAnswer s pkg 0xE3 [2, 4])

/-- GET_DIGESTS: SHA-384 of the certificate. -/
def execGetDigests (pkg : Nat) (_overDoe : Bool) (s : State) : Host.Outcome State Fault Refusal :=
  .next (spdmAnswer s pkg 0x81 (digestBytes (sha384 (certificate pkg))))

/-- GET_CERTIFICATE. -/
def execGetCertificate (pkg : Nat) (_overDoe : Bool) (s : State) : Host.Outcome State Fault Refusal := .next (spdmAnswer s pkg 0x82 (certificate pkg))

/-- CHALLENGE: the nonce, signed with the device identity key. -/
def execChallenge (pkg : Nat) (_overDoe : Bool) (nonce : Dword) (s : State) : Host.Outcome State Fault Refusal :=
  .next (answerHost s pkg (.read (signed s pkg (leBytes 8 nonce.toNat))))

/-- GET_MEASUREMENTS: index 1 to 7 of the table of R446, signed. -/
def execGetMeasurements (pkg : Nat) (_overDoe : Bool) (index : Nat) (s : State) : Host.Outcome State Fault Refusal :=
  if index = 0 ∨ 7 < index then .next (answerHost s pkg .unsupported)
  else .next (answerHost s pkg (.read (signed s pkg (digestBytes ((getPkg s pkg).measures[index - 1]?.getD 0)))))

/-- KEY_EXCHANGE: a session opens; the exchanged data are signed. DESIGN CHOICE: log entry 69. -/
def execKeyExchange (pkg : Nat) (_overDoe : Bool) (s : State) : Host.Outcome State Fault Refusal :=
  .next (answerHost (modPkg s pkg (fun k => { k with session := 1 })) pkg (.read (signed s pkg (Config.spdm 0xE4 s.tick))))

/-- FINISH: the session of a KEY_EXCHANGE is complete; without one it is no request that the responder takes. DESIGN CHOICE: log entry 69. -/
def execFinish (pkg : Nat) (_overDoe : Bool) (s : State) : Host.Outcome State Fault Refusal :=
  if (getPkg s pkg).session = 1 then .next (spdmAnswer (modPkg s pkg (fun k => { k with session := 2 })) pkg 0xE5 [])
  else .next (answerHost s pkg .unsupported)

end Sys2Proof.Machine
end

