-- ==== Sys2Proof/Machine/Windows.lean ====
section
/-!
DEFINITION. The host's accesses in their order (R428 to R431, R452): through the windows and to the registers of a function. One that meets a sleeping
cluster is held, and those of its function behind it.
-/
namespace Sys2Proof.Machine

/-! ## Registers (R430, R450) -/

/-- What the host reads in BAR 0 of a function, of n bytes at an offset: none completes with Unsupported Request. -/
def registerRead (s : State) (p fn off n : Nat) : Option Dword :=
  if n ≠ 8 ∨ off % 8 ≠ 0 ∨ 0x10000 ≤ off ∨ 16 < fn then none
  else if 0x1000 ≤ off ∧ off < 0x1088 then some (msixRead s p fn off)
  else if fn = 0 then pf0Register s p off
  else hostRegister s p (fn - 1) (off / 8)

/-- The host writes bytes at an offset of BAR 0 of a function; an access that is not 8 bytes wide and 8-aligned completes with Unsupported Request. -/
def registerWrite (s : State) (p fn off : Nat) (bytes : List Byte) : State :=
  let v := dw (leNat bytes)
  if bytes.length ≠ 8 ∨ off % 8 ≠ 0 ∨ 0x10000 ≤ off ∨ 16 < fn then answerHost s p .unsupported
  else if 0x1000 ≤ off ∧ off < 0x1088 then msixWrite s p fn off v
  else if fn = 0 then pf0Write s p off v
  else vfWrite s p (fn - 1) (off / 8) v

/-! ## Order (R431, R452) -/

/-- A host request performed. -/
def hostPerform (s : State) (p : Nat) (r : HostReq) : State :=
  match r.bar, r.op with
  | .regs, .inl bs => registerWrite s p r.fn r.off bs
  | .regs, .inr n => answerHost s p (match registerRead s p r.fn r.off n with
    | some v => .read (leBytes 8 v.toNat)
    | none => .unsupported)
  | .hbm, .inl bs => windowWrite s p r.fn true r.off bs
  | .hbm, .inr n => windowRead s p r.fn true r.off n
  | .sram, .inl bs => windowWrite s p r.fn false r.off bs
  | .sram, .inr n => windowRead s p r.fn false r.off n

/-- The clusters that a host request must wait for: the sleeping ones that a permitted access touches. -/
def hostWaits (s : State) (p : Nat) (r : HostReq) : List Nat :=
  let n := match r.op with
    | .inl bs => bs.length
    | .inr n => n
  match r.bar with
  | .sram => if (windowAt s p r.fn false r.off n).isSome then windowAsleep s p false r.off n else []
  | _ => []

/-- A host request arrives (R431): behind a held one of its function it is held too; one that meets a sleeping cluster wakes it and is held (R452). -/
def hostAccess (s : State) (p : Nat) (r : HostReq) : State :=
  let hold := fun (s : State) => modPkg s p (fun k => { k with hostReqs := k.hostReqs ++ [r] })
  if (getPkg s p).hostReqs.any (fun x => decide (x.fn = r.fn)) then hold s
  else match hostWaits s p r with
    | [] => hostPerform s p r
    | l => hold (l.foldl (fun s k => wakeCluster s p k) s)

/-- The held requests of a package, in their order, as far as their clusters are awake. -/
def serveHost (s : State) (p : Nat) : State :=
  (getPkg s p).hostReqs.foldl (fun s r => hostAccess s p r) (modPkg s p (fun k => { k with hostReqs := [] }))

/-- A register of a function written by the host. -/
def hostWrite (s : State) (p fn off : Nat) (v : Dword) : State :=
  hostAccess s p { fn := fn, bar := .regs, off := off, op := .inl (leBytes 8 v.toNat) }

/-! ## The steps -/

/-- HOST_WINDOW_WRITE (R429 to R431). DESIGN CHOICE: log entry 64. -/
def execHostWindowWrite (pkg fn : Nat) (bar : HostBar) (off : Dword) (bytes : List Byte) (s : State) : Host.Outcome State Fault Refusal :=
  .next (hostAccess s pkg { fn := fn, bar := bar, off := off.toNat, op := .inl bytes })

/-- HOST_WINDOW_READ (R429 to R431). DEDUCED: log entry 37. DESIGN CHOICE: log entry 64. -/
def execHostWindowRead (pkg fn : Nat) (bar : HostBar) (off : Dword) (n : Nat) (s : State) : Host.Outcome State Fault Refusal :=
  .next (hostAccess s pkg { fn := fn, bar := bar, off := off.toNat, op := .inr n })

/-- REGISTER_WRITE (R430): the register at offset 8k of VF pid + 1. -/
def execRegisterWrite (pkg pid k : Nat) (v : Dword) (s : State) : Host.Outcome State Fault Refusal := .next (hostWrite s pkg (pid + 1) (8 * k) v)

/-- HMBX_WRITE (R430, R361). -/
def execHmbxWrite (pkg pid : Nat) (v : Dword) (s : State) : Host.Outcome State Fault Refusal := .next (hostWrite s pkg (pid + 1) 0x100 v)

/-- HFAULT_DOORBELL (R434): the record's dwords, the one at 0x178 last. -/
def execHfaultDoorbell (pkg pid : Nat) (r : HFaultRec) (s : State) : Host.Outcome State Fault Refusal :=
  let put := fun (s : State) (x : Nat × Dword) => hostWrite s pkg (pid + 1) (0x140 + 8 * x.1) x.2
  .next ([(0, r.d0), (1, r.page), (2, r.addr), (3, r.rpkg), (7, 0)].foldl put s)

/-- FORDMAP_WRITE (R442). -/
def execFordmapWrite (pkg pid port : Nat) (v : Dword) (s : State) : Host.Outcome State Fault Refusal :=
  if 8 ≤ port then .next s else .next (hostWrite s pkg (pid + 1) (0x200 + 8 * port) v)

/-- QTAB_WRITE (R450). -/
def execQtabWrite (pkg : Nat) (v : Dword) (s : State) : Host.Outcome State Fault Refusal := .next (hostWrite s pkg 0 8 v)

/-- PCAP_WRITE (R450). -/
def execPcapWrite (pkg : Nat) (v : Dword) (s : State) : Host.Outcome State Fault Refusal := .next (hostWrite s pkg 0 24 v)

/-- RETENTION_ENTER (R450, R451): OP 1 of RETCTL. -/
def execRetentionEnter (pkg cluster : Nat) (s : State) : Host.Outcome State Fault Refusal :=
  if 512 ≤ cluster then .next s else .next (hostWrite s pkg 0 16 (dw (2 ^ 62 + cluster)))

/-- RETENTION_EXIT (R450 to R452): OP 2 of RETCTL. -/
def execRetentionExit (pkg cluster : Nat) (s : State) : Host.Outcome State Fault Refusal :=
  if 512 ≤ cluster then .next s else .next (hostWrite s pkg 0 16 (dw (2 ^ 63 + cluster)))

/-- REENCODE_COMPLETE (R451, R452): the requests of the host that were held are performed in their order. -/
def execReencodeComplete (pkg cluster : Nat) (s : State) : Host.Outcome State Fault Refusal := .next (serveHost (reencoded s pkg cluster) pkg)

end Sys2Proof.Machine
end

