-- ==== Sys2Proof/Machine/Dispatch.lean ====
section
/-!
DEFINITION. What each instruction does: one arm per constructor of Instr.
-/
namespace Sys2Proof.Machine

def exec (i : Instr) (s : State) : Host.Outcome State Fault Refusal :=
  match i with
  | .add o => Sys2Proof.Machine.execAdd o s
  | .sub o => Sys2Proof.Machine.execSub o s
  | .and o => Sys2Proof.Machine.execAnd o s
  | .or o => Sys2Proof.Machine.execOr o s
  | .xor o => Sys2Proof.Machine.execXor o s
  | .shl o => Sys2Proof.Machine.execShl o s
  | .shr o => Sys2Proof.Machine.execShr o s
  | .sar o => Sys2Proof.Machine.execSar o s
  | .mul o => Sys2Proof.Machine.execMul o s
  | .mov o => Sys2Proof.Machine.execMov o s
  | .ld o => Sys2Proof.Machine.execLd o s
  | .st o => Sys2Proof.Machine.execSt o s
  | .vld o => Sys2Proof.Machine.execVld o s
  | .vst o => Sys2Proof.Machine.execVst o s
  | .br o => Sys2Proof.Machine.execBr o s
  | .call o => Sys2Proof.Machine.execCall o s
  | .jmp o => Sys2Proof.Machine.execJmp o s
  | .ceq o => Sys2Proof.Machine.execCeq o s
  | .clt o => Sys2Proof.Machine.execClt o s
  | .cltu o => Sys2Proof.Machine.execCltu o s
  | .fadd o => Sys2Proof.Machine.execFadd o s
  | .fmul o => Sys2Proof.Machine.execFmul o s
  | .ffma o => Sys2Proof.Machine.execFfma o s
  | .fsub o => Sys2Proof.Machine.execFsub o s
  | .vadd o => Sys2Proof.Machine.execVadd o s
  | .vmul o => Sys2Proof.Machine.execVmul o s
  | .vfma o => Sys2Proof.Machine.execVfma o s
  | .div o => Sys2Proof.Machine.execDiv o s
  | .divu o => Sys2Proof.Machine.execDivu o s
  | .rem o => Sys2Proof.Machine.execRem o s
  | .remu o => Sys2Proof.Machine.execRemu o s
  | .mulh o => Sys2Proof.Machine.execMulh o s
  | .mulhu o => Sys2Proof.Machine.execMulhu o s
  | .mulhsu o => Sys2Proof.Machine.execMulhsu o s
  | .bfx o => Sys2Proof.Machine.execBfx o s
  | .bfxu o => Sys2Proof.Machine.execBfxu o s
  | .bfi o => Sys2Proof.Machine.execBfi o s
  | .clz o => Sys2Proof.Machine.execClz o s
  | .ctz o => Sys2Proof.Machine.execCtz o s
  | .popc o => Sys2Proof.Machine.execPopc o s
  | .bswap o => Sys2Proof.Machine.execBswap o s
  | .sextB o => Sys2Proof.Machine.execSextB o s
  | .sextH o => Sys2Proof.Machine.execSextH o s
  | .sextW o => Sys2Proof.Machine.execSextW o s
  | .zextB o => Sys2Proof.Machine.execZextB o s
  | .zextH o => Sys2Proof.Machine.execZextH o s
  | .zextW o => Sys2Proof.Machine.execZextW o s
  | .min o => Sys2Proof.Machine.execMin o s
  | .max o => Sys2Proof.Machine.execMax o s
  | .minu o => Sys2Proof.Machine.execMinu o s
  | .maxu o => Sys2Proof.Machine.execMaxu o s
  | .addsat o => Sys2Proof.Machine.execAddsat o s
  | .subsat o => Sys2Proof.Machine.execSubsat o s
  | .addsatu o => Sys2Proof.Machine.execAddsatu o s
  | .subsatu o => Sys2Proof.Machine.execSubsatu o s
  | .addsh o => Sys2Proof.Machine.execAddsh o s
  | .movh o => Sys2Proof.Machine.execMovh o s
  | .faddRounded o => Sys2Proof.Machine.execFaddRounded o s
  | .fsubRounded o => Sys2Proof.Machine.execFsubRounded o s
  | .fmulRounded o => Sys2Proof.Machine.execFmulRounded o s
  | .ffmaRounded o => Sys2Proof.Machine.execFfmaRounded o s
  | .ffms o => Sys2Proof.Machine.execFfms o s
  | .fnma o => Sys2Proof.Machine.execFnma o s
  | .fdiv o => Sys2Proof.Machine.execFdiv o s
  | .fsqrt o => Sys2Proof.Machine.execFsqrt o s
  | .fmin o => Sys2Proof.Machine.execFmin o s
  | .fmax o => Sys2Proof.Machine.execFmax o s
  | .fabs o => Sys2Proof.Machine.execFabs o s
  | .fneg o => Sys2Proof.Machine.execFneg o s
  | .fceq o => Sys2Proof.Machine.execFceq o s
  | .fclt o => Sys2Proof.Machine.execFclt o s
  | .fcle o => Sys2Proof.Machine.execFcle o s
  | .fcun o => Sys2Proof.Machine.execFcun o s
  | .fclass o => Sys2Proof.Machine.execFclass o s
  | .fcvt o => Sys2Proof.Machine.execFcvt o s
  | .ftoi o => Sys2Proof.Machine.execFtoi o s
  | .ftoiu o => Sys2Proof.Machine.execFtoiu o s
  | .itof o => Sys2Proof.Machine.execItof o s
  | .iutof o => Sys2Proof.Machine.execIutof o s
  | .fton o => Sys2Proof.Machine.execFton o s
  | .ntof o => Sys2Proof.Machine.execNtof o s
  | .fexp2 o => Sys2Proof.Machine.execFexp2 o s
  | .flog2 o => Sys2Proof.Machine.execFlog2 o s
  | .frcp o => Sys2Proof.Machine.execFrcp o s
  | .frsqrt o => Sys2Proof.Machine.execFrsqrt o s
  | .fsinpi o => Sys2Proof.Machine.execFsinpi o s
  | .fcospi o => Sys2Proof.Machine.execFcospi o s
  | .pand o => Sys2Proof.Machine.execPand o s
  | .por o => Sys2Proof.Machine.execPor o s
  | .pxor o => Sys2Proof.Machine.execPxor o s
  | .pandn o => Sys2Proof.Machine.execPandn o s
  | .pset o => Sys2Proof.Machine.execPset o s
  | .psetg o => Sys2Proof.Machine.execPsetg o s
  | .pgetg o => Sys2Proof.Machine.execPgetg o s
  | .ppopc o => Sys2Proof.Machine.execPpopc o s
  | .ppack o => Sys2Proof.Machine.execPpack o s
  | .punpack o => Sys2Proof.Machine.execPunpack o s
  | .psave o => Sys2Proof.Machine.execPsave o s
  | .prest o => Sys2Proof.Machine.execPrest o s
  | .jov o => Sys2Proof.Machine.execJov o s
  | .enter o => Sys2Proof.Machine.execEnter o s
  | .leave o => Sys2Proof.Machine.execLeave o s
  | .trap o => Sys2Proof.Machine.execTrap o s
  | .brk o => Sys2Proof.Machine.execBrk o s
  | .bany o => Sys2Proof.Machine.execBany o s
  | .ball o => Sys2Proof.Machine.execBall o s
  | .tret o => Sys2Proof.Machine.execTret o s
  | .srr o => Sys2Proof.Machine.execSrr o s
  | .srw o => Sys2Proof.Machine.execSrw o s
  | .mbxs o => Sys2Proof.Machine.execMbxs o s
  | .mbxr o => Sys2Proof.Machine.execMbxr o s
  | .wfi o => Sys2Proof.Machine.execWfi o s
  | .ecall o => Sys2Proof.Machine.execEcall o s
  | .tlbsdInval o => Sys2Proof.Machine.execTlbsdInval o s
  | .tlbsdTransit o => Sys2Proof.Machine.execTlbsdTransit o s
  | .tlbsdLand o => Sys2Proof.Machine.execTlbsdLand o s
  | .tlbsdDiscard o => Sys2Proof.Machine.execTlbsdDiscard o s
  | .tlbsdRanges o => Sys2Proof.Machine.execTlbsdRanges o s
  | .tlbsdResume o => Sys2Proof.Machine.execTlbsdResume o s
  | .tlbsdRefuse o => Sys2Proof.Machine.execTlbsdRefuse o s
  | .ldSigned o => Sys2Proof.Machine.execLdSigned o s
  | .ldo o => Sys2Proof.Machine.execLdo o s
  | .ldoSigned o => Sys2Proof.Machine.execLdoSigned o s
  | .sto o => Sys2Proof.Machine.execSto o s
  | .vgatherW o => Sys2Proof.Machine.execVgatherW o s
  | .vgatherD o => Sys2Proof.Machine.execVgatherD o s
  | .vscatterW o => Sys2Proof.Machine.execVscatterW o s
  | .vscatterD o => Sys2Proof.Machine.execVscatterD o s
  | .ldf o => Sys2Proof.Machine.execLdf o s
  | .fence o => Sys2Proof.Machine.execFence o s
  | .fenceSc o => Sys2Proof.Machine.execFenceSc o s
  | .getl o => Sys2Proof.Machine.execGetl o s
  | .stp o => Sys2Proof.Machine.execStp o s
  | .aadd o => Sys2Proof.Machine.execAadd o s
  | .amin o => Sys2Proof.Machine.execAmin o s
  | .amax o => Sys2Proof.Machine.execAmax o s
  | .aminu o => Sys2Proof.Machine.execAminu o s
  | .amaxu o => Sys2Proof.Machine.execAmaxu o s
  | .aand o => Sys2Proof.Machine.execAand o s
  | .aor o => Sys2Proof.Machine.execAor o s
  | .axor o => Sys2Proof.Machine.execAxor o s
  | .aswp o => Sys2Proof.Machine.execAswp o s
  | .acas o => Sys2Proof.Machine.execAcas o s
  | .redAdd o => Sys2Proof.Machine.execRedAdd o s
  | .redMin o => Sys2Proof.Machine.execRedMin o s
  | .redMax o => Sys2Proof.Machine.execRedMax o s
  | .redMinu o => Sys2Proof.Machine.execRedMinu o s
  | .redMaxu o => Sys2Proof.Machine.execRedMaxu o s
  | .redAnd o => Sys2Proof.Machine.execRedAnd o s
  | .redOr o => Sys2Proof.Machine.execRedOr o s
  | .redXor o => Sys2Proof.Machine.execRedXor o s
  | .afaddF32 o => Sys2Proof.Machine.execAfaddF32 o s
  | .afaddBf16 o => Sys2Proof.Machine.execAfaddBf16 o s
  | .redFaddF32 o => Sys2Proof.Machine.execRedFaddF32 o s
  | .redFaddBf16 o => Sys2Proof.Machine.execRedFaddBf16 o s
  | .taddF32 o => Sys2Proof.Machine.execTaddF32 o s
  | .taddI32 o => Sys2Proof.Machine.execTaddI32 o s
  | .taddBf16 o => Sys2Proof.Machine.execTaddBf16 o s
  | .spawn o => Sys2Proof.Machine.execSpawn o s
  | .quit o => Sys2Proof.Machine.execQuit o s
  | .susp o => Sys2Proof.Machine.execSusp o s
  | .fld o => Sys2Proof.Machine.execFld o s
  | .fldS o => Sys2Proof.Machine.execFldS o s
  | .ffill o => Sys2Proof.Machine.execFfill o s
  | .fclr o => Sys2Proof.Machine.execFclr o s
  | .waitc o => Sys2Proof.Machine.execWaitc o s
  | .armMsg o => Sys2Proof.Machine.execArmMsg o s
  | .armInc o => Sys2Proof.Machine.execArmInc o s
  | .disarmMsg o => Sys2Proof.Machine.execDisarmMsg o s
  | .disarmInc o => Sys2Proof.Machine.execDisarmInc o s
  | .barArrive o => Sys2Proof.Machine.execBarArrive o s
  | .barWait o => Sys2Proof.Machine.execBarWait o s
  | .barTest o => Sys2Proof.Machine.execBarTest o s
  | .grow o => Sys2Proof.Machine.execGrow o s
  | .wquiet o => Sys2Proof.Machine.execWquiet o s
  | .wsplit o => Sys2Proof.Machine.execWsplit o s
  | .ibx o => Sys2Proof.Machine.execIbx o s
  | .ibxT o => Sys2Proof.Machine.execIbxT o s
  | .vaddRounded o => Sys2Proof.Machine.execVaddRounded o s
  | .vsub o => Sys2Proof.Machine.execVsub o s
  | .vmulRounded o => Sys2Proof.Machine.execVmulRounded o s
  | .vfmaRounded o => Sys2Proof.Machine.execVfmaRounded o s
  | .vfms o => Sys2Proof.Machine.execVfms o s
  | .vfnma o => Sys2Proof.Machine.execVfnma o s
  | .vdiv o => Sys2Proof.Machine.execVdiv o s
  | .vsqrt o => Sys2Proof.Machine.execVsqrt o s
  | .vfmin o => Sys2Proof.Machine.execVfmin o s
  | .vfmax o => Sys2Proof.Machine.execVfmax o s
  | .vfabs o => Sys2Proof.Machine.execVfabs o s
  | .vfneg o => Sys2Proof.Machine.execVfneg o s
  | .vfceq o => Sys2Proof.Machine.execVfceq o s
  | .vfclt o => Sys2Proof.Machine.execVfclt o s
  | .vfcle o => Sys2Proof.Machine.execVfcle o s
  | .vfcun o => Sys2Proof.Machine.execVfcun o s
  | .vceq o => Sys2Proof.Machine.execVceq o s
  | .vclt o => Sys2Proof.Machine.execVclt o s
  | .vcltu o => Sys2Proof.Machine.execVcltu o s
  | .viadd o => Sys2Proof.Machine.execViadd o s
  | .visub o => Sys2Proof.Machine.execVisub o s
  | .vimul o => Sys2Proof.Machine.execVimul o s
  | .vimin o => Sys2Proof.Machine.execVimin o s
  | .vimax o => Sys2Proof.Machine.execVimax o s
  | .viminu o => Sys2Proof.Machine.execViminu o s
  | .vimaxu o => Sys2Proof.Machine.execVimaxu o s
  | .viaddsat o => Sys2Proof.Machine.execViaddsat o s
  | .visubsat o => Sys2Proof.Machine.execVisubsat o s
  | .viaddsatu o => Sys2Proof.Machine.execViaddsatu o s
  | .visubsatu o => Sys2Proof.Machine.execVisubsatu o s
  | .vinarrow o => Sys2Proof.Machine.execVinarrow o s
  | .vinarrowu o => Sys2Proof.Machine.execVinarrowu o s
  | .vinarrowsu o => Sys2Proof.Machine.execVinarrowsu o s
  | .viwiden o => Sys2Proof.Machine.execViwiden o s
  | .viwidenu o => Sys2Proof.Machine.execViwidenu o s
  | .vand o => Sys2Proof.Machine.execVand o s
  | .vor o => Sys2Proof.Machine.execVor o s
  | .vxor o => Sys2Proof.Machine.execVxor o s
  | .vandn o => Sys2Proof.Machine.execVandn o s
  | .vshl o => Sys2Proof.Machine.execVshl o s
  | .vshr o => Sys2Proof.Machine.execVshr o s
  | .vsar o => Sys2Proof.Machine.execVsar o s
  | .vpopc o => Sys2Proof.Machine.execVpopc o s
  | .vclz o => Sys2Proof.Machine.execVclz o s
  | .vsel o => Sys2Proof.Machine.execVsel o s
  | .vmov o => Sys2Proof.Machine.execVmov o s
  | .vbcast o => Sys2Proof.Machine.execVbcast o s
  | .vext o => Sys2Proof.Machine.execVext o s
  | .vins o => Sys2Proof.Machine.execVins o s
  | .vfcvt o => Sys2Proof.Machine.execVfcvt o s
  | .vftoi o => Sys2Proof.Machine.execVftoi o s
  | .vftoiu o => Sys2Proof.Machine.execVftoiu o s
  | .vitof o => Sys2Proof.Machine.execVitof o s
  | .viutof o => Sys2Proof.Machine.execViutof o s
  | .vfton o => Sys2Proof.Machine.execVfton o s
  | .vntof o => Sys2Proof.Machine.execVntof o s
  | .vmxsc o => Sys2Proof.Machine.execVmxsc o s
  | .vmxpk o => Sys2Proof.Machine.execVmxpk o s
  | .vmxunpk o => Sys2Proof.Machine.execVmxunpk o s
  | .vexp2 o => Sys2Proof.Machine.execVexp2 o s
  | .vlog2 o => Sys2Proof.Machine.execVlog2 o s
  | .vrcp o => Sys2Proof.Machine.execVrcp o s
  | .vrsqrt o => Sys2Proof.Machine.execVrsqrt o s
  | .vsinpi o => Sys2Proof.Machine.execVsinpi o s
  | .vcospi o => Sys2Proof.Machine.execVcospi o s
  | .vshuf o => Sys2Proof.Machine.execVshuf o s
  | .vperm o => Sys2Proof.Machine.execVperm o s
  | .vrot o => Sys2Proof.Machine.execVrot o s
  | .vvoteAny o => Sys2Proof.Machine.execVvoteAny o s
  | .vvoteAll o => Sys2Proof.Machine.execVvoteAll o s
  | .vvoteBallot o => Sys2Proof.Machine.execVvoteBallot o s
  | .vmatch o => Sys2Proof.Machine.execVmatch o s
  | .vredAdd o => Sys2Proof.Machine.execVredAdd o s
  | .vredMin o => Sys2Proof.Machine.execVredMin o s
  | .vredMax o => Sys2Proof.Machine.execVredMax o s
  | .vredIadd o => Sys2Proof.Machine.execVredIadd o s
  | .vredImin o => Sys2Proof.Machine.execVredImin o s
  | .vredImax o => Sys2Proof.Machine.execVredImax o s
  | .vredIminu o => Sys2Proof.Machine.execVredIminu o s
  | .vredImaxu o => Sys2Proof.Machine.execVredImaxu o s
  | .vredAnd o => Sys2Proof.Machine.execVredAnd o s
  | .vredOr o => Sys2Proof.Machine.execVredOr o s
  | .vredXor o => Sys2Proof.Machine.execVredXor o s
  | .vscanAdd o => Sys2Proof.Machine.execVscanAdd o s
  | .vscanMin o => Sys2Proof.Machine.execVscanMin o s
  | .vscanMax o => Sys2Proof.Machine.execVscanMax o s
  | .vscanIadd o => Sys2Proof.Machine.execVscanIadd o s
  | .vscanImin o => Sys2Proof.Machine.execVscanImin o s
  | .vscanImax o => Sys2Proof.Machine.execVscanImax o s
  | .vscanIminu o => Sys2Proof.Machine.execVscanIminu o s
  | .vscanImaxu o => Sys2Proof.Machine.execVscanImaxu o s
  | .mma o => Sys2Proof.Machine.execMma o s
  | .mmaMx o => Sys2Proof.Machine.execMmaMx o s
  | .mmaI8 o => Sys2Proof.Machine.execMmaI8 o s
  | .mmaI4 o => Sys2Proof.Machine.execMmaI4 o s
  | .mmsrMinplus o => Sys2Proof.Machine.execMmsrMinplus o s
  | .mmsrMaxtimes o => Sys2Proof.Machine.execMmsrMaxtimes o s
  | .mmsrOrand o => Sys2Proof.Machine.execMmsrOrand o s
  | .mzero o => Sys2Proof.Machine.execMzero o s
  | .mload o => Sys2Proof.Machine.execMload o s
  | .mdrain o => Sys2Proof.Machine.execMdrain o s
  | .mdrainAdd o => Sys2Proof.Machine.execMdrainAdd o s
  | .mdrainQ o => Sys2Proof.Machine.execMdrainQ o s
  | .mwait o => Sys2Proof.Machine.execMwait o s
  | .mwaitAll o => Sys2Proof.Machine.execMwaitAll o s
  | .mrd o => Sys2Proof.Machine.execMrd o s
  | .mcmd o => Sys2Proof.Machine.execMcmd o s
  | .mgrant o => Sys2Proof.Machine.execMgrant o s
  | .mring o => Sys2Proof.Machine.execMring o s
  | .mringRecv o => Sys2Proof.Machine.execMringRecv o s
  | .mpass o => Sys2Proof.Machine.execMpass o s
  | .mcap o => Sys2Proof.Machine.execMcap o s
  | .mfmt o => Sys2Proof.Machine.execMfmt o s
  | .mfmtr o => Sys2Proof.Machine.execMfmtr o s
  | .shape o => Sys2Proof.Machine.execShape o s
  | .copy o => Sys2Proof.Machine.execCopy o s
  | .lds o => Sys2Proof.Machine.execLds o s
  | .ldso o => Sys2Proof.Machine.execLdso o s
  | .sts o => Sys2Proof.Machine.execSts o s
  | .stso o => Sys2Proof.Machine.execStso o s
  | .shinv o => Sys2Proof.Machine.execShinv o s
  | .cfetch o => Sys2Proof.Machine.execCfetch o s
  | .cfetchNote o => Sys2Proof.Machine.execCfetchNote o s
  | .ampApply o => Sys2Proof.Machine.execAmpApply o s
  | .ampPerm o => Sys2Proof.Machine.execAmpPerm o s
  | .collRun o => Sys2Proof.Machine.execCollRun o s
  | .collRunReload o => Sys2Proof.Machine.execCollRunReload o s
  | .baddq o => Sys2Proof.Machine.execBaddq o s
  | .blkq o => Sys2Proof.Machine.execBlkq o s
  | .blkqDone o => Sys2Proof.Machine.execBlkqDone o s
  | .resultLanding c slot k => Sys2Proof.Machine.execResultLanding c slot k s
  | .accessAcceptance c slot k => Sys2Proof.Machine.execAccessAcceptance c slot k s
  | .runAheadEnd c slot ticket => Sys2Proof.Machine.execRunAheadEnd c slot ticket s
  | .refusedRequestRetry k => Sys2Proof.Machine.execRefusedRequestRetry k s
  | .postedItemDelivery k => Sys2Proof.Machine.execPostedItemDelivery k s
  | .countedArrival k => Sys2Proof.Machine.execCountedArrival k s
  | .heldInboxRecordEntry c => Sys2Proof.Machine.execHeldInboxRecordEntry c s
  | .deferredListWalk k => Sys2Proof.Machine.execDeferredListWalk k s
  | .waitcPoll c slot => Sys2Proof.Machine.execWaitcPoll c slot s
  | .wquietPoll c slot => Sys2Proof.Machine.execWquietPoll c slot s
  | .neighbourWordArrival k => Sys2Proof.Machine.execNeighbourWordArrival k s
  | .reelArrivalCombine k => Sys2Proof.Machine.execReelArrivalCombine k s
  | .reelRelease k => Sys2Proof.Machine.execReelRelease k s
  | .matrixCommandStart c => Sys2Proof.Machine.execMatrixCommandStart c s
  | .matrixTileWrite c => Sys2Proof.Machine.execMatrixTileWrite c s
  | .remoteCommandArrival k => Sys2Proof.Machine.execRemoteCommandArrival k s
  | .copyRun c => Sys2Proof.Machine.execCopyRun c s
  | .cfetchLoadComplete c => Sys2Proof.Machine.execCfetchLoadComplete c s
  | .ampGroup pkg cluster g => Sys2Proof.Machine.execAmpGroup pkg cluster g s
  | .ampPermRun pkg cluster => Sys2Proof.Machine.execAmpPermRun pkg cluster s
  | .braidRunStart pkg cluster => Sys2Proof.Machine.execBraidRunStart pkg cluster s
  | .braidStepComplete pkg cluster run step => Sys2Proof.Machine.execBraidStepComplete pkg cluster run step s
  | .queueStepPush pkg cluster run step => Sys2Proof.Machine.execQueueStepPush pkg cluster run step s
  | .shootdownAtRoot => Sys2Proof.Machine.execShootdownAtRoot s
  | .shootdownAtNode pkg => Sys2Proof.Machine.execShootdownAtNode pkg s
  | .hubShootdownAck pkg cluster => Sys2Proof.Machine.execHubShootdownAck pkg cluster s
  | .shinvCompletion => Sys2Proof.Machine.execShinvCompletion s
  | .kernelPacket pkg q => Sys2Proof.Machine.execKernelPacket pkg q s
  | .copyPacket pkg q => Sys2Proof.Machine.execCopyPacket pkg q s
  | .braidPacket pkg q => Sys2Proof.Machine.execBraidPacket pkg q s
  | .ampPacket pkg q => Sys2Proof.Machine.execAmpPacket pkg q s
  | .waitflagPacket pkg q => Sys2Proof.Machine.execWaitflagPacket pkg q s
  | .signalPacket pkg q => Sys2Proof.Machine.execSignalPacket pkg q s
  | .descriptorNotification pkg q => Sys2Proof.Machine.execDescriptorNotification pkg q s
  | .gridAdmission pkg q => Sys2Proof.Machine.execGridAdmission pkg q s
  | .groupPlacement pkg die => Sys2Proof.Machine.execGroupPlacement pkg die s
  | .ageingPromotion pkg gslot => Sys2Proof.Machine.execAgeingPromotion pkg gslot s
  | .eviction pkg die => Sys2Proof.Machine.execEviction pkg die s
  | .groupRestore pkg die => Sys2Proof.Machine.execGroupRestore pkg die s
  | .gridDoneArrival pkg gslot => Sys2Proof.Machine.execGridDoneArrival pkg gslot s
  | .runQueuePickup pkg cluster => Sys2Proof.Machine.execRunQueuePickup pkg cluster s
  | .headSegmentLoad pkg cluster => Sys2Proof.Machine.execHeadSegmentLoad pkg cluster s
  | .userTrapEntry c slot => Sys2Proof.Machine.execUserTrapEntry c slot s
  | .trapDelivery c slot => Sys2Proof.Machine.execTrapDelivery c slot s
  | .trapRecordAppend pkg pid => Sys2Proof.Machine.execTrapRecordAppend pkg pid s
  | .mailboxNotificationEntry pkg q => Sys2Proof.Machine.execMailboxNotificationEntry pkg q s
  | .timerWake c slot => Sys2Proof.Machine.execTimerWake c slot s
  | .preemptHaltGrid pkg pid gslot => Sys2Proof.Machine.execPreemptHaltGrid pkg pid gslot s
  | .preemptHaltPartition pkg pid => Sys2Proof.Machine.execPreemptHaltPartition pkg pid s
  | .preemptHaltCrews pkg pid gslot core => Sys2Proof.Machine.execPreemptHaltCrews pkg pid gslot core s
  | .preemptResume pkg pid => Sys2Proof.Machine.execPreemptResume pkg pid s
  | .haltComplete pkg pid => Sys2Proof.Machine.execHaltComplete pkg pid s
  | .saveComplete pkg pid => Sys2Proof.Machine.execSaveComplete pkg pid s
  | .lateResultLanding k => Sys2Proof.Machine.execLateResultLanding k s
  | .imgctlRestore pkg pid img => Sys2Proof.Machine.execImgctlRestore pkg pid img s
  | .imgctlDiscard pkg pid img => Sys2Proof.Machine.execImgctlDiscard pkg pid img s
  | .registerWrite pkg pid k v => Sys2Proof.Machine.execRegisterWrite pkg pid k v s
  | .uncorrectableError pkg site => Sys2Proof.Machine.execUncorrectableError pkg site s
  | .correctedErrorReport pkg cluster => Sys2Proof.Machine.execCorrectedErrorReport pkg cluster s
  | .scrubPass pkg cluster => Sys2Proof.Machine.execScrubPass pkg cluster s
  | .linkReplay pkg link => Sys2Proof.Machine.execLinkReplay pkg link s
  | .linkDown pkg link => Sys2Proof.Machine.execLinkDown pkg link s
  | .fabricResend pkg link => Sys2Proof.Machine.execFabricResend pkg link s
  | .channelRekey pkg channel => Sys2Proof.Machine.execChannelRekey pkg channel s
  | .hostWindowWrite pkg fn bar off bytes => Sys2Proof.Machine.execHostWindowWrite pkg fn bar off bytes s
  | .hostWindowRead pkg fn bar off n => Sys2Proof.Machine.execHostWindowRead pkg fn bar off n s
  | .hmbxWrite pkg pid v => Sys2Proof.Machine.execHmbxWrite pkg pid v s
  | .hfaultDoorbell pkg pid rec => Sys2Proof.Machine.execHfaultDoorbell pkg pid rec s
  | .fordmapWrite pkg pid port v => Sys2Proof.Machine.execFordmapWrite pkg pid port v s
  | .qtabWrite pkg v => Sys2Proof.Machine.execQtabWrite pkg v s
  | .retentionEnter pkg cluster => Sys2Proof.Machine.execRetentionEnter pkg cluster s
  | .retentionExit pkg cluster => Sys2Proof.Machine.execRetentionExit pkg cluster s
  | .reencodeComplete pkg cluster => Sys2Proof.Machine.execReencodeComplete pkg cluster s
  | .pcapWrite pkg v => Sys2Proof.Machine.execPcapWrite pkg v s
  | .clockStep pkg watts => Sys2Proof.Machine.execClockStep pkg watts s
  | .thermalTrip pkg die => Sys2Proof.Machine.execThermalTrip pkg die s
  | .powerGood pkg bin => Sys2Proof.Machine.execPowerGood pkg bin s
  | .partitionCreate pkg pid reaches fpmap notify => Sys2Proof.Machine.execPartitionCreate pkg pid reaches fpmap notify s
  | .partitionDestroy pkg pid => Sys2Proof.Machine.execPartitionDestroy pkg pid s
  | .jobFormation na nb nc nd => Sys2Proof.Machine.execJobFormation na nb nc nd s
  | .getVersion pkg overDoe => Sys2Proof.Machine.execGetVersion pkg overDoe s
  | .getCapabilities pkg overDoe => Sys2Proof.Machine.execGetCapabilities pkg overDoe s
  | .negotiateAlgorithms pkg overDoe => Sys2Proof.Machine.execNegotiateAlgorithms pkg overDoe s
  | .getDigests pkg overDoe => Sys2Proof.Machine.execGetDigests pkg overDoe s
  | .getCertificate pkg overDoe => Sys2Proof.Machine.execGetCertificate pkg overDoe s
  | .challenge pkg overDoe nonce => Sys2Proof.Machine.execChallenge pkg overDoe nonce s
  | .getMeasurements pkg overDoe index => Sys2Proof.Machine.execGetMeasurements pkg overDoe index s
  | .keyExchange pkg overDoe => Sys2Proof.Machine.execKeyExchange pkg overDoe s
  | .finish pkg overDoe => Sys2Proof.Machine.execFinish pkg overDoe s
  | .mgmtReadSensors pkg => Sys2Proof.Machine.execMgmtReadSensors pkg s
  | .mgmtReadErrorLog pkg pid => Sys2Proof.Machine.execMgmtReadErrorLog pkg pid s
  | .mgmtSetPowerCap pkg cap => Sys2Proof.Machine.execMgmtSetPowerCap pkg cap s
  | .mgmtPreempt pkg pid => Sys2Proof.Machine.execMgmtPreempt pkg pid s
  | .moduleReset pkg => Sys2Proof.Machine.execModuleReset pkg s
  | .firmwareUpdate pkg die img => Sys2Proof.Machine.execFirmwareUpdate pkg die img s
  | .undefinedInstruction e => Sys2Proof.Machine.execUndefinedInstruction e s

end Sys2Proof.Machine
end

