-- ==== Sys2Proof/Machine/Place.lean ====
section
/-!
DEFINITION. A thread placed in a booted package, as privileged software and the weir would leave it after a launch (R38, R385): what
State.withFetchWord stands for.
-/
namespace Sys2Proof.Machine

/-- The kernel header of the placed grid: G = 64, V = 32, A = 8 and a stack of 4,096 bytes (R34, R166). DESIGN CHOICE: log entry 2. -/
def placedHeader : Header :=
  { net := false, reel := false, conf := false, coloc := false, g := 64, v := 32, a := 8, roles := 0, spad := 4096, stack := 4096, pool := 0,
    trapen := 0, trapvec := 0, entry := 0, baseSize := 64, segtab := 0, segcount := 0, segs := [] }

/-- DESIGN CHOICE: log entry 2. -/
def placedGrid : Grid :=
  { st := .running, before := .running, pid := 0, asid := 0, prio := 0, queue := 0, index := 0, packet := 0, khdr := 0, hdr := placedHeader,
    args := [0, 0, 0, 0], domain := 0, wexp := 0, level := 0, coloc := false, crew := 1, gcount := 1, next := 1, done := 0, kernel := 0,
    reserve := 0, live := 1,
    groups := [{ index := 0, crews := [{ core := 0, crew := 0, live := 1, slots := [0] }], out := false, alloc := none, since := 0,
                 leftAt := 0, restorable := false }]
    failed := false, pools := [], lastDie := 0, pendSince := 0, raised := false, reserved := [], takenAt := 0 }

/-- A thread as launch creates it (R38), in slot 0 with crew index 0. DESIGN CHOICE: log entry 2. -/
def placedThread : Thread :=
  { regs := { Regs.zero with g := (Vector.replicate 64 0).set 2 0x800200080000#64 |>.set 3 0x800200000000#64,
                             nf := ((((Vector.replicate 8 0).set 0 0xB074#16).set 1 0xB4F8#16).set 2 0x6810#16).set 3 0x6C30#16 |>.set 4 0x2810#16 }
    allot := { g := 64, v := 32, a := 8 }, net := false, pc := 0, seg := 0, pid := 0, asid := 0, gslot := some 0, kernel := 0, domain := 0,
    weight := 0, group := 0, tid := 0, crew := 0, prio := 0, slim := 0x80020007F000#64, inHandler := false, run := .ready, marker := false,
    seq := 0, out := [], acc := [], trap := none, woken := none, halted := false, parkedAt := 0 }

/-- Words in instruction memory from address 0. -/
def imemOf : Nat → List Half → List Host.Cell
  | _, [] => []
  | a, w :: ws => (a, w.setWidth 8) :: (a + 1, (w >>> 8).setWidth 8) :: imemOf (a + 2) ws

/-- DESIGN CHOICE: log entry 2. -/
def placedCore (ws : List Half) : Core :=
  { Core.reset with slots := Core.reset.slots.set 0 (some placedThread), tenancy := some 0, base := some (0, 64), imem := imemOf 0 ws }

/-- DESIGN CHOICE: log entry 2. -/
def placedPkg (k : Pkg) : Pkg :=
  { k with booted := true, bootstat := 0x80000000000F0500#64, grids := k.grids.set 0 (some placedGrid)
           blocks := k.blocks.set 0 { PBlock.reset with pctl := 0x8000FFFF00000001#64, fpmap := 0xFFFF#64 } }

/-- The core's turn comes next, with the words at its thread's PC. DESIGN CHOICE: log entry 2. -/
def placeThread (s : State) (ws : List Half) : State :=
  let s1 := modPkg s 1 placedPkg
  { setCore s1 { pkg := 1, n := 0 } (placedCore ws) with agenda := { dt := 1, act := .core { pkg := 1, n := 0 } } :: s.agenda }

end Sys2Proof.Machine
end

