-- ==== Sys2Proof/Machine/Step.lean ====
section
/-!
DEFINITION. One step of the LX9: the turn at the head of the agenda, or the free turn of Config, is taken.
-/
namespace Sys2Proof.Machine

/-- The turn that is taken next. DESIGN CHOICE: log entry 1. -/
def State.turn (s : State) : Turn := s.agenda.headD (Config.turn s.tick)

/-- The state in which the turn's action happens: the clock and the number of turns have moved on. DESIGN CHOICE: log entries 1, 13. -/
def State.started (s : State) : State :=
  { s with agenda := s.agenda.drop 1, tick := s.tick + 1, clock := s.clock + s.turn.dt }

noncomputable section

/-- One step: a core issues one instruction (R396), or one of the machine's own steps happens (spec/95). DESIGN CHOICE: log entries 1, 15. -/
def step (s : State) : Host.Outcome State Fault Refusal :=
  match s.turn.act with
  | .event i => exec i (settleBefore i s.started)
  | .core c =>
    if coreExists s c then
      match coreIssue (drainSome s.started) c with
      | (s1, none) => .next s1
      | (s1, some i) => match exec i s1 with
        | .next s2 => .next (afterIssue (drainSome s.started) c i s1 s2)
        | r => r
    else .fault .noSuchCore

/-- The state with an instruction placed where core 0 of package 1 fetches next: the package booted, a grid of one thread live in
partition 0, its thread READY in slot 0, the words at address 0, and that core's turn next. DESIGN CHOICE: log entry 2. -/
def State.withFetchWord (s : State) (nbits w : Nat) : State := placeThread s ((tableWords nbits w ++ [0, 0, 0]).map (BitVec.ofNat 16))

end

end Sys2Proof.Machine
end

