-- ==== Sys2Proof/Machine/Order.lean ====
section
/-!
DEFINITION. The memory model of spec/03 (R79 to R107) on finite programs: which outcomes are allowed, forbidden or undefined. The machine of
Step.lean performs accesses one by one at their homes; what this file forbids or allows speaks of executions as the spec does.
-/
namespace Sys2Proof.Machine

/-! ## Events -/

/-- What an event of an execution is; `op` is an operation that touches no byte of memory. -/
inductive EvKind where
  | read | write | rmw | fence | fenceSc | op
deriving DecidableEq, Repr, Inhabited

/-- What an event is to the pairs of R88. Numbers name what the two sides share; an item or transfer is the event's own `xfer`. -/
inductive Role where
  | none
  /-- The instruction that issues an item, with the order and scope of its `.rel` option (R93). -/
  | issues
  /-- The counted arrival of an item, with INC set where it failed (R92, R95); or of a fired `arm.inc` (R250). -/
  | arrives (failed : Bool := false)
  /-- A `waitc`, or a fired arm, that reads its flag with its condition met (R94, R97). -/
  | waits
  /-- A filling write (R61), an `ffill` or one of an item, by the filling of its line that it makes or adds to. -/
  | fills (filling : Nat := 0)
  /-- An `fld` that finds its line full, by that filling (R60). -/
  | futureReads (filling : Nat := 0)
  /-- An `ibx` that dequeues the message of an engine operation (R103), and one that dequeues the record of a firing (R251). -/
  | dequeues
  | takesFiring
  /-- A push of a value into a neighbour queue, and the pop that takes it (R63). -/
  | pushes (value : Nat)
  | pops (value : Nat)
  /-- An arrival at a barrier of these cores towards a phase, and a wait or a test that finds PHASE (R66). -/
  | barArrives (cores : List CoreId) (phase : Nat)
  | barPasses (cores : List CoreId) (found : Nat)
  /-- A `spawn`, and the first instruction of the thread that it creates. -/
  | spawns (thr : Nat)
  | starts
  /-- A record written by `susp` or a suspending future read, and its pickup. -/
  | suspends (record : Nat)
  | picksUp (record : Nat)
  /-- A return of weight to a domain's root, and the wake of `wquiet` there (R72, R73): JOB of the domain's entry. -/
  | returns (job : Bool)
  | wakes (job : Bool)
  /-- A `grow` that leaves a grid's count, and a read of sr.gcount that returns one (R29). -/
  | grows (grid count : Nat)
  | readsCount (grid count : Nat)
  /-- The publication of a launch packet, and the first instruction of a group of the launch. -/
  | publishes (launch : Nat)
  | begins (launch : Nat)
  /-- The weir's admission borrow for a grid, and the first instruction of a thread of that grid (R350). -/
  | borrows (grid : Nat)
  | enters (grid : Nat)
  /-- The send of a mailbox's dword, and its pop (R361). -/
  | mails (dword : Nat)
  | takesMail (dword : Nat)
  /-- A write of a request made under the old entry of a shoot-down, and the initiator's completion of `shinv` (R106). -/
  | underOld (shoot : Nat)
  | completes (shoot : Nat)
deriving DecidableEq, Repr, Inhabited

/-- An access of bytes [lo, lo + n), a fence, or an operation (R80). `item` marks an access of a posted or engine item, which stands outside the program
order of its thread (R84); `xfer` numbers the item, drain, vector store or engine transfer that an event belongs to or issues. A write stores
`val`; a read-modify-write applies `how` to what it reads and to `val`. -/
structure Event where
  thr : Nat
  core : CoreId
  kind : EvKind
  strong : Bool
  ord : Order
  scope : Scope
  lo : Nat
  n : Nat
  item : Bool := false
  /-- An access of an engine's item, a copy, drain, amplitude operation or collective step (R100). -/
  engine : Bool := false
  xfer : Option Nat := none
  role : Role := .none
  val : Nat := 0
  how : RmwOp := .add
deriving DecidableEq, Repr, Inhabited

def Event.isFence (x : Event) : Bool := match x.kind with | .fence | .fenceSc => true | _ => false
def Event.reads (x : Event) : Bool := match x.kind with | .read | .rmw => true | _ => false
def Event.writes (x : Event) : Bool := match x.kind with | .write | .rmw => true | _ => false
def Event.access (x : Event) : Bool := x.reads || x.writes
def Event.touches (x : Event) (b : Nat) : Bool := x.access && decide (x.lo ≤ b) && decide (b < x.lo + x.n)
def Event.meets (x y : Event) : Bool := x.access && y.access && decide (x.lo < y.lo + y.n) && decide (y.lo < x.lo + x.n)
def Event.acq (x : Event) : Bool := match x.ord with | .acq | .ar => true | _ => false
def Event.rel (x : Event) : Bool := match x.ord with | .rel | .ar => true | _ => false

/-- An arrival on a flag. -/
def Role.isArrival : Role → Bool
  | .arrives _ => true
  | _ => false

/-- A write of an item's data: not its arrival, nor its return of weight. -/
def Event.itemWrite (x : Event) : Bool :=
  x.item && x.writes && (match x.role with
    | .none | .fills _ => true
    | _ => false)

/-- Two events of one item or transfer. -/
def Event.together (x y : Event) : Bool := x.xfer.isSome && decide (x.xfer = y.xfer)

/-! ## Scopes (R79) -/

/-- The scope instance of a thread on core u holds a thread on core v. -/
def inScope (s : Scope) (u v : CoreId) : Bool :=
  match s with
  | .core => decide (u = v)
  | .clu => decide (u.pkg = v.pkg) && decide (clusterOf u.n = clusterOf v.n)
  | .die => decide (u.pkg = v.pkg) && decide (dieOf u.n = dieOf v.n)
  | .dev => decide (u.pkg = v.pkg)
  | .sys => true

def scopeRank : Scope → Nat
  | .core => 0
  | .clu => 1
  | .die => 2
  | .dev => 3
  | .sys => 4

/-- The narrower of two scopes. -/
def narrower (a b : Scope) : Scope := if scopeRank a ≤ scopeRank b then a else b

/-- The smallest scope of a core that holds every core of a list. -/
def smallest (u : CoreId) (l : List CoreId) : Scope :=
  ([Scope.core, .clu, .die, .dev].find? (fun s => l.all (inScope s u))).getD .sys

/-- Each of two threads stands in the other's scope instance. -/
def eachHolds (s : Scope) (u v : CoreId) : Bool := inScope s u v && inScope s v u

/-- The scope of an event as an acquire (R84): an acquire read, or an operation of the acquire side of R88. -/
def Event.acquire (x : Event) : Option Scope :=
  match x.role with
  | .waits => some .sys
  | .futureReads _ => some .clu
  | .dequeues => some .core
  | .takesFiring => some .sys
  | .pops _ => some .dev
  | .barPasses l _ => some (smallest x.core l)
  | .starts => some .dev
  | .picksUp _ => some .clu
  | .wakes job => some (domainScope job)
  | .readsCount _ _ => some .dev
  | .begins _ => some .sys
  | .enters _ => some .sys
  | .takesMail _ => some .sys
  | .completes _ => some .sys
  | _ => if x.reads && x.acq then some x.scope else none

/-- The scope of an event as a release (R84): a release write, or an operation of the release side of R88. -/
def Event.release (x : Event) : Option Scope :=
  match x.role with
  | .pushes _ => some .dev
  | .barArrives l _ => some (smallest x.core l)
  | .spawns _ => some .dev
  | .suspends _ => some .clu
  | .returns job => some (domainScope job)
  | .grows _ _ => some .dev
  | .publishes _ => some .sys
  | .borrows _ => some .sys
  | .mails _ => some .sys
  | .issues => if x.rel then some x.scope else none
  | _ => if x.writes && x.rel then some x.scope else none

/-! ## Executions (R82, R83) -/

/-- An execution: the program's events, each thread's in program order; per byte, the write that each read returns (none: the initial value); and the
pairs of each byte's coherence order. -/
structure Execution where
  evs : List Event
  rf : List (Nat × Nat × Nat)
  co : List (Nat × Nat × Nat)
deriving DecidableEq, Repr, Inhabited

def Execution.ev (e : Execution) (i : Nat) : Event := e.evs[i]?.getD default
def Execution.size (e : Execution) : Nat := e.evs.length

/-- Program order (R84). -/
def Execution.po (e : Execution) (i j : Nat) : Bool :=
  decide (i < j) && decide ((e.ev i).thr = (e.ev j).thr) && !(e.ev i).item && !(e.ev j).item

/-- The write that a read returns at a byte. -/
def Execution.source (e : Execution) (b r : Nat) : Option Nat := (e.rf.find? (fun x => decide (x.1 = b ∧ x.2.2 = r))).map (fun x => x.2.1)

def Execution.coBefore (e : Execution) (b i j : Nat) : Bool := e.co.contains (b, i, j)

/-- fr: a read and every write after the one that it read (R82). -/
def Execution.fr (e : Execution) (b r w : Nat) : Bool :=
  (e.ev r).reads && (e.ev r).touches b && (e.ev w).writes && (e.ev w).touches b && decide (r ≠ w) && (match e.source b r with
    | some w0 => e.coBefore b w0 w
    | none => true)

/-- Every byte that some event touches. -/
def bytesOf (evs : List Event) : List Nat := (evs.flatMap (fun x => if x.access then (List.range x.n).map (x.lo + ·) else [])).eraseDups

def Execution.bytes (e : Execution) : List Nat := bytesOf e.evs

/-- Pairs of event numbers. -/
def Execution.pairs (e : Execution) : List (Nat × Nat) :=
  (List.range e.size).flatMap (fun i => (List.range e.size).map (fun j => (i, j)))

/-- A read-modify-write reads the write that immediately precedes its own (R82). -/
def Execution.atomic (e : Execution) : Bool :=
  e.bytes.all (fun b => (List.range e.size).all (fun i => !((e.ev i).touches b && decide ((e.ev i).kind = .rmw)) || (match e.source b i with
    | some w => e.coBefore b w i && (List.range e.size).all (fun k => !(e.coBefore b w k && e.coBefore b k i))
    | none => (List.range e.size).all (fun k => !e.coBefore b k i))))

/-! ## Cycles -/

/-- The nodes reached from a list within a number of steps. -/
def reachFrom (edges : List (Nat × Nat)) : Nat → List Nat → List Nat
  | 0, l => l
  | k + 1, l => reachFrom edges k (l ++ ((edges.filter (fun x => l.contains x.1 && !l.contains x.2)).map (fun x => x.2)).eraseDups)

/-- What an event leads to by one edge or more. -/
def after (n : Nat) (edges : List (Nat × Nat)) (i : Nat) : List Nat :=
  reachFrom edges n ((edges.filter (fun x => decide (x.1 = i))).map (fun x => x.2)).eraseDups

def cyclic (n : Nat) (edges : List (Nat × Nat)) : Bool := (List.range n).any (fun i => (after n edges i).contains i)

/-- rf, co and fr at a byte. -/
def Execution.comm (e : Execution) (b : Nat) : List (Nat × Nat) :=
  (e.rf.filter (fun x => decide (x.1 = b))).map (fun x => x.2) ++ (e.co.filter (fun x => decide (x.1 = b))).map (fun x => x.2) ++
    e.pairs.filter (fun p => e.fr b p.1 p.2)

/-- R83: for each byte, po on its accesses, rf, co and fr have no cycle; and R82 of read-modify-writes. DESIGN CHOICE: log entry 72. -/
def Execution.coherent (e : Execution) : Bool :=
  e.atomic &&
    e.bytes.all (fun b => !cyclic e.size (e.comm b ++ e.pairs.filter (fun p => e.po p.1 p.2 && (e.ev p.1).touches b && (e.ev p.2).touches b)))

/-! ## Ordering edges -/

/-- The rows of R84 that a fence between two events provides. -/
def fenceJoins (f a b : Event) : Bool :=
  match f.kind with
  | .fenceSc => true
  | _ => (f.acq && a.reads) || (f.rel && b.writes)

/-- The scopes of the edges of R84 that join two events of a thread. -/
def Execution.edges (e : Execution) (i j : Nat) : List Scope :=
  let a := e.ev i
  let b := e.ev j
  if e.po i j = false ∨ a.isFence = true ∨ b.isFence = true then []
  else
    (if a.meets b then [Scope.sys] else []) ++ a.acquire.toList ++ b.release.toList ++
    (if a.strong && a.reads && b.strong && b.access && decide (a.scope ≠ .sys) && decide (b.scope ≠ .sys) then [narrower a.scope b.scope] else []) ++
    ((List.range e.size).filter (fun k => (e.ev k).isFence && e.po i k && e.po k j && fenceJoins (e.ev k) a b)).map (fun k => (e.ev k).scope)

/-- Two sector writes of one transfer in one 256-byte block, the first below (R85). -/
def Event.below (x y : Event) : Bool :=
  x.together y && decide (x.kind = .write) && decide (y.kind = .write) && decide (x.lo / 256 = y.lo / 256) && decide (x.lo < y.lo)

/-- The edges outside a thread's program order: R85, of system scope; an item's writes before its arrival (R92), likewise, and before its return of weight, at
the domain's scope, which the arrival of an item that failed comes before as well (R72); and with `.rel` the issuer's earlier accesses before the item's
writes (R93). -/
def Execution.joins (e : Execution) (i j : Nat) : List Scope :=
  let a := e.ev i
  let b := e.ev j
  (if a.below b then [Scope.sys] else []) ++
  (if a.together b && a.item then (match b.role with
    | .arrives _ => if a.itemWrite then [.sys] else []
    | .returns job => if a.itemWrite || decide (a.role = .arrives true) then [domainScope job] else []
    | _ => []) else []) ++
  (if b.itemWrite && a.access then
    ((List.range e.size).filter (fun k => decide ((e.ev k).role = .issues) && (e.ev k).rel && (e.ev k).together b && e.po i k)).map
      (fun k => (e.ev k).scope) else [])

/-- Every ordering edge. -/
def Execution.ordering (e : Execution) : List (Nat × Nat × Scope) :=
  e.pairs.flatMap (fun p => (e.edges p.1 p.2 ++ e.joins p.1 p.2).map (fun s => (p.1, p.2, s)))

/-! ## Synchronisation (R87, R88) -/

/-- A write belongs to the release sequence of another (R87). -/
def Execution.inSequence (e : Execution) (b head : Nat) : Nat → Nat → Bool
  | 0, w => decide (w = head)
  | k + 1, w => decide (w = head) || (decide ((e.ev w).kind = .rmw) && (match e.source b w with
    | some w0 => e.inSequence b head k w0
    | none => false))

/-- The scopes at which a write is a release, by its own order or a fence before it. -/
def Execution.releases (e : Execution) (i : Nat) : List Scope :=
  (if (e.ev i).rel then [(e.ev i).scope] else []) ++
    ((List.range e.size).filter (fun k => e.po k i && (match (e.ev k).kind with | .fenceSc => true | .fence => (e.ev k).rel | _ => false))).map
      (fun k => (e.ev k).scope)

/-- The scopes at which a read is an acquire. -/
def Execution.acquires (e : Execution) (j : Nat) : List Scope :=
  (e.ev j).acquire.toList ++
    ((List.range e.size).filter (fun k => e.po j k && (match (e.ev k).kind with | .fenceSc => true | .fence => (e.ev k).acq | _ => false))).map
      (fun k => (e.ev k).scope)

/-- A release and an acquire synchronise (R87). -/
def Execution.synchronise (e : Execution) (i j : Nat) : Bool :=
  (e.ev i).writes && (e.ev j).reads &&
    e.rf.any (fun x => decide (x.2.2 = j) && (e.ev i).touches x.1 && e.inSequence x.1 i e.size x.2.1) &&
    (e.releases i).any (fun s => inScope s (e.ev i).core (e.ev j).core) && (e.acquires j).any (fun s => inScope s (e.ev j).core (e.ev i).core)

/-- A read has seen a write of the same word: it returns that write, or one after it in coherence order (R94). -/
def Execution.seen (e : Execution) (i j : Nat) : Bool :=
  (e.ev i).writes && (e.ev j).reads && (e.ev i).touches (e.ev j).lo && (match e.source (e.ev j).lo j with
    | some w => decide (w = i) || e.coBefore (e.ev j).lo i w
    | none => false)

/-- A wait has counted the arrival of an event's item. -/
def Execution.countedBy (e : Execution) (i j : Nat) : Bool :=
  decide ((e.ev j).role = .waits) && (List.range e.size).any (fun k =>
    (e.ev k).role.isArrival && (e.ev k).together (e.ev i) && e.seen k j)

/-- A future read found its line full by a filling write: that of the filling which it names, or one of which it returns a byte. -/
def Execution.filled (e : Execution) (i j : Nat) : Bool :=
  match (e.ev i).role, (e.ev j).role with
  | .fills n, .futureReads m => decide ((e.ev i).lo / 128 = (e.ev j).lo / 128) && (decide (n = m) || e.rf.any (fun x => decide (x.2 = (i, j))))
  | _, _ => false

/-- The rows of R88, with those of R251, R350 and R361: the event i, on the release side, and j synchronise. What an arrival, a fill or a completion
releases of its own item stands as a pair of each of the item's writes; R100 adds the item's reads, for its issuer. A firing and what it sets off, its
record or its own arrival, share the number of their arm. DESIGN CHOICE: log entry 72. -/
def Execution.pair (e : Execution) (i j : Nat) : Bool :=
  let a := e.ev i
  let b := e.ev j
  let own := a.together b && a.item
  (match b.role with
    | .arrives _ => (own && a.itemWrite) || (decide (a.role = .waits) && a.together b)
    | .waits => (a.role.isArrival && e.seen i j) ||
        (decide (a.role = .issues) && a.rel && inScope a.scope a.core b.core && e.countedBy i j) ||
        (a.item && a.reads && decide (a.thr = b.thr) && !a.role.isArrival && e.countedBy i j)
    | .futureReads _ => (inScope .clu a.core b.core && e.filled i j && (a.item || inScope a.scope a.core b.core)) ||
        (a.item && a.writes && (List.range e.size).any (fun k => (e.ev k).item && (e.ev k).together a && e.filled k j &&
          decide (a.lo / 128 = b.lo / 128) && inScope .clu (e.ev k).core b.core))
    | .dequeues => own && inScope .core a.core b.core && (a.writes || decide (a.thr = b.thr))
    | .takesFiring => decide (a.role = .waits) && a.together b
    | .pops v => decide (a.role = .pushes v) && eachHolds .dev a.core b.core
    | .barPasses l f => (match a.role with
        | .barArrives l0 p => decide (l0 = l) && l.contains a.core && l.contains b.core && decide (1 ≤ (f + 65536 - p) % 65536) &&
            decide ((f + 65536 - p) % 65536 ≤ 32767)
        | _ => false)
    | .starts => decide (a.role = .spawns b.thr) && eachHolds .dev a.core b.core
    | .picksUp r => decide (a.role = .suspends r) && eachHolds .clu a.core b.core
    | .wakes job => decide (a.role = .returns job) && e.seen i j && eachHolds (domainScope job) a.core b.core
    | .returns _ => own && a.itemWrite
    | .readsCount g n => decide (a.role = .grows g n) && eachHolds .dev a.core b.core
    | .begins l => decide (a.role = .publishes l)
    | .enters g => decide (a.role = .borrows g)
    | .takesMail d => decide (a.role = .mails d)
    | .completes k => decide (a.role = .underOld k)
    | _ => false) ||
  (b.acquire.isSome && b.strong && (List.range e.size).any (fun k =>
    (decide (i = k) || a.below (e.ev k)) && (e.ev k).strong && (e.ev k).xfer.isSome && decide ((e.ev k).kind = .write) &&
      e.rf.any (fun x => decide (x.2 = (k, j)))))

/-- Every list made by leaving out elements. -/
def subsets {α : Type} : List α → List (List α)
  | [] => [[]]
  | x :: l => let r := subsets l; r ++ r.map (x :: ·)

/-- The cycle that R86 forbids: for some set of cores, of events on them, whose ordering edges all have scopes that hold the whole set. The two sides of a
pair of R88 stand in it as a write and the read that returns it. DESIGN CHOICE: log entry 72. -/
def Execution.forbiddenCycle (e : Execution) : Bool :=
  let cores := ((e.evs.filter (fun x => !x.isFence)).map (fun x => x.core)).eraseDups
  let order := e.ordering
  let comm := e.bytes.flatMap e.comm ++ e.pairs.filter (fun p => e.pair p.1 p.2)
  (subsets cores).any (fun t =>
    let inside := fun (i : Nat) => t.contains (e.ev i).core
    let o := (order.filter (fun x => inside x.1 && inside x.2.1 && t.all (fun v => inScope x.2.2 (e.ev x.1).core v))).map (fun x => (x.1, x.2.1))
    cyclic e.size (o ++ comm.filter (fun x => inside x.1 && inside x.2)))

/-- R100: what an engine item reads comes after all that happens before the instruction that issues it. -/
def Execution.issuedBefore (e : Execution) (i j : Nat) : Bool :=
  decide ((e.ev i).role = .issues) && (e.ev i).together (e.ev j) && (e.ev j).item && decide ((e.ev j).kind = .read)

/-! ## Races (R89, R90) -/

/-- The edges of happens-before: program order and the synchronising pairs. -/
def Execution.hbEdges (e : Execution) : List (Nat × Nat) :=
  e.pairs.filter (fun p => e.po p.1 p.2 || e.synchronise p.1 p.2 || e.pair p.1 p.2 || e.issuedBefore p.1 p.2)

/-- Happens-before (R89). -/
def Execution.happensBefore (e : Execution) (i j : Nat) : Bool := (after e.size e.hbEdges i).contains j

/-- The completion of an item was acquired before another item was issued. -/
def Execution.acquiredFirst (e : Execution) (i j : Nat) : Bool :=
  (List.range e.size).any (fun k => decide ((e.ev k).role = .issues) && (e.ev k).together (e.ev j) && e.happensBefore i k)

/-- Two accesses conflict (R89): an engine's item counts among its issuer's accesses (R100), so that two of one issuer conflict too. -/
def Execution.conflict (e : Execution) (i j : Nat) : Bool :=
  let a := e.ev i
  let b := e.ev j
  a.meets b && (a.writes || b.writes) && decide (i ≠ j) &&
    (decide (a.thr ≠ b.thr) || (a.item != b.item) ||
      (a.item && b.item && (a.engine || b.engine) && !a.together b && !e.acquiredFirst i j && !e.acquiredFirst j i))

/-- A plain data race (R89). -/
def Execution.race (e : Execution) (i j : Nat) : Bool :=
  let a := e.ev i
  let b := e.ev j
  e.conflict i j && !e.happensBefore i j && !e.happensBefore j i &&
    (!(a.strong && b.strong) || (!(decide (a.kind = .rmw) && decide (b.kind = .rmw)) &&
      (decide (a.lo ≠ b.lo) || decide (a.n ≠ b.n) || !inScope a.scope a.core b.core || !inScope b.scope b.core a.core)))

def Execution.racy (e : Execution) : Bool := e.pairs.any (fun p => e.race p.1 p.2)

/-- R90: each plain read returns the last write in happens-before; with none before it, the initial value. -/
def Execution.readsLatest (e : Execution) : Bool :=
  (List.range e.size).all (fun r => (e.ev r).strong || !(e.ev r).reads || e.bytes.all (fun b => !(e.ev r).touches b ||
    (let before := (List.range e.size).filter (fun w => (e.ev w).writes && (e.ev w).touches b && e.happensBefore w r)
     match e.source b r with
     | some w0 => before.contains w0 && before.all (fun w => decide (w = w0) || e.happensBefore w w0)
     | none => before.isEmpty)))

/-- R29: a read of sr.gcount that a `grow` comes before returns its count or a later one. -/
def Execution.countsLatest (e : Execution) : Bool :=
  e.pairs.all (fun p => match (e.ev p.1).role, (e.ev p.2).role with
    | .grows g n, .readsCount g0 m => decide (g ≠ g0) || decide (n ≤ m) || !e.happensBefore p.1 p.2
    | _, _ => true)

/-! ## Outcomes (R86) -/

/-- Every list that takes one element of each list. -/
def choices {α : Type} : List (List α) → List (List α)
  | [] => [[]]
  | x :: l => let r := choices l; x.flatMap (fun a => r.map (a :: ·))

/-- An element put at every place of a list. -/
def insertions {α : Type} (x : α) : List α → List (List α)
  | [] => [[x]]
  | y :: l => (x :: y :: l) :: (insertions x l).map (y :: ·)

/-- Every order of a list. -/
def orders {α : Type} : List α → List (List α)
  | [] => [[]]
  | x :: l => (orders l).flatMap (insertions x)

/-- The pairs of a list, the earlier first. -/
def inOrder {α : Type} : List α → List (α × α)
  | [] => []
  | x :: l => l.map (fun y => (x, y)) ++ inOrder l

def writersOf (evs : List Event) (b : Nat) : List Nat :=
  (List.range evs.length).filter (fun i => let x := evs[i]?.getD default; x.writes && x.touches b)

/-- The executions of a program's events (R82): each read takes a write of each of its bytes, or the initial value, and the writes of each byte stand in
some order. -/
def executionsOf (evs : List Event) : List Execution :=
  let reads := (List.range evs.length).flatMap (fun i => let x := evs[i]?.getD default
    if x.reads then (List.range x.n).map (fun k => (i, x.lo + k)) else [])
  let rfs := choices (reads.map (fun r => none :: ((writersOf evs r.2).filter (· ≠ r.1)).map (fun w => some (r.2, w, r.1))))
  let cos := choices ((bytesOf evs).map (fun b => (orders (writersOf evs b)).map (fun l => (inOrder l).map (fun p => (b, p.1, p.2)))))
  rfs.flatMap (fun rf => cos.map (fun co => { evs := evs, rf := rf.filterMap id, co := co.flatten }))

/-- The value that an event's bytes have, of the bytes that a function gives. -/
def Event.gather (x : Event) (f : Nat → Nat) : Nat := ((List.range x.n).map (fun k => f (x.lo + k) * 256 ^ k)).foldl (· + ·) 0

/-- The byte that a write leaves, through as many read-modify-writes as there are events. Every location starts at 0. -/
def Execution.byteOf (e : Execution) : Nat → Option Nat → Nat → Nat
  | _, none, _ => 0
  | 0, _, _ => 0
  | k + 1, some i, b =>
    let x := e.ev i
    let v := if x.kind = .rmw then rmwNew x.how x.n (x.gather (fun c => e.byteOf k (e.source c i) c)) x.val 0 else x.val
    v / 256 ^ (b - x.lo) % 256

/-- The value that a read returns. -/
def Execution.valueOf (e : Execution) (r : Nat) : Nat := (e.ev r).gather (fun b => e.byteOf e.size (e.source b r) b)

/-- The last write of a byte in its coherence order. -/
def Execution.lastOf (e : Execution) (b : Nat) : Option Nat := (writersOf e.evs b).find? (fun i => e.co.all (fun x => decide (x.1 ≠ b ∨ x.2.1 ≠ i)))

/-- The values that some reads return, by event, and that some bytes hold at the end. -/
structure Result where
  reads : List (Nat × Nat)
  final : List (Nat × Nat) := []
deriving DecidableEq, Repr, Inhabited

def Execution.produces (e : Execution) (o : Result) : Bool :=
  o.reads.all (fun x => decide (e.valueOf x.1 = x.2)) && o.final.all (fun x => decide (e.byteOf e.size (e.lastOf x.1) x.1 = x.2))

/-- The coherent executions that produce an outcome. -/
def producing (evs : List Event) (o : Result) : List Execution := (executionsOf evs).filter (fun e => e.produces o && e.coherent)

/-- R86: every coherent execution that produces the outcome holds such a cycle. -/
def isForbidden (evs : List Event) (o : Result) : Bool := (producing evs o).all Execution.forbiddenCycle

/-- What the spec says of an outcome (R12, R86, R89). -/
inductive Verdict where
  | allowed | forbidden | undefined
deriving DecidableEq, Repr, Inhabited

/-- An outcome that no cycle forbids is undefined where an execution that produces it races (R89, R12); it does not come about where every one goes against
R90 or R29. DESIGN CHOICE: log entries 15, 72. -/
def verdict (evs : List Event) (o : Result) : Verdict :=
  let l := (producing evs o).filter (fun e => !e.forbiddenCycle)
  if l.any Execution.racy then .undefined
  else if l.any (fun e => e.readsLatest && e.countsLatest) then .allowed
  else .forbidden

end Sys2Proof.Machine
end

