-- ==== Sys2Proof/Machine/Litmus.lean ====
section
/-!
DEFINITION. The litmus tables of R108 to R112, and two tests more (R73, R350): for each row its program's accesses and what the spec says of the outcome that it examines. Locations are
single bytes: 0 is x or d, 1 is y or f. Reads are named by their place in the program.
-/
namespace Sys2Proof.Machine

/-- A core of die d of package 1, the k-th of its cluster. -/
def coreOf (d k : Nat) : CoreId := { pkg := 1, n := 2048 * d + k }

/-- A strong access of one byte, with the value stored or added. -/
def sAcc (thr : Nat) (c : CoreId) (k : EvKind) (o : Order) (sc : Scope) (loc v : Nat) : Event :=
  { thr := thr, core := c, kind := k, strong := true, ord := o, scope := sc, lo := loc, n := 1, val := v }

/-- A plain access of one byte. -/
def pAcc (thr : Nat) (c : CoreId) (k : EvKind) (loc v : Nat) : Event :=
  { thr := thr, core := c, kind := k, strong := false, ord := .rlx, scope := .core, lo := loc, n := 1, val := v }

/-- A fence, or an operation that touches no byte. -/
def opEv (thr : Nat) (c : CoreId) (k : EvKind) (o : Order) (sc : Scope) : Event :=
  { thr := thr, core := c, kind := k, strong := false, ord := o, scope := sc, lo := 0, n := 0 }

def t0 : CoreId := coreOf 0 0
def t1 : CoreId := coreOf 1 0

/-! ## Message passing (R108): a = 1, b = 0 -/

def mpDevice : Verdict :=
  verdict [pAcc 0 t0 .write 0 1, sAcc 0 t0 .write .rel .dev 1 1, sAcc 1 t1 .read .acq .dev 1 0, pAcc 1 t1 .read 0 0] { reads := [(2, 1), (3, 0)] }

def mpNarrowFence : Verdict :=
  verdict [sAcc 0 t0 .write .rlx .dev 0 1, opEv 0 t0 .fence .rel .clu, sAcc 0 t0 .write .rlx .dev 1 1, sAcc 1 t1 .read .acq .dev 1 0,
    sAcc 1 t1 .read .rlx .dev 0 0] { reads := [(3, 1), (4, 0)] }

def mpNarrowStore : Verdict :=
  verdict [sAcc 0 t0 .write .rlx .dev 0 1, sAcc 0 t0 .write .rel .clu 1 1, sAcc 1 t1 .read .acq .dev 1 0, sAcc 1 t1 .read .rlx .dev 0 0]
    { reads := [(2, 1), (3, 0)] }

def mpRelaxed : Verdict :=
  verdict [sAcc 0 t0 .write .rlx .dev 0 1, sAcc 0 t0 .write .rlx .dev 1 1, sAcc 1 t1 .read .rlx .dev 1 0, sAcc 1 t1 .read .rlx .dev 0 0]
    { reads := [(2, 1), (3, 0)] }

/-- The posted store's write and its arrival (R92), and a `waitc` that has seen it (R94): b = 0. -/
def mpPosted : Verdict :=
  verdict [
    { sAcc 0 t0 .write .rlx .sys 0 1 with item := true, xfer := some 0 },
    { sAcc 0 t0 .rmw .rlx .sys 1 1 with item := true, xfer := some 0, role := .arrives },
    { sAcc 1 t1 .read .acq .sys 1 0 with role := .waits }, pAcc 1 t1 .read 0 0] { reads := [(2, 1), (3, 0)] }

/-- The flag goes through an atomic add of a third thread: a = 2. -/
def mpSequence : Verdict :=
  verdict [pAcc 0 t0 .write 0 1, sAcc 0 t0 .write .rel .dev 1 1, sAcc 2 (coreOf 2 0) .rmw .rlx .dev 1 1, sAcc 1 t1 .read .acq .dev 1 0,
    pAcc 1 t1 .read 0 0] { reads := [(3, 2), (4, 0)] }

/-- One 64-byte store of a record: D in its first sector, S in its last (R85). -/
def mpTrailing : Verdict :=
  verdict [{ sAcc 0 t0 .write .rlx .sys 0 1 with xfer := some 0 }, { sAcc 0 t0 .write .rlx .sys 32 1 with xfer := some 0 },
    sAcc 1 t1 .read .acq .sys 32 0, pAcc 1 t1 .read 0 0] { reads := [(2, 1), (3, 0)] }

/-! ## Write-to-read causality (R109): a = 1, b = 1, c = 0 -/

/-- X's store, Y's accesses, of which the first reads x, and Z's two loads. -/
def wrc (y : List Event) (zord : Order) : Verdict :=
  verdict ([sAcc 0 (coreOf 0 0) .write .rlx .dev 0 1] ++ y ++ [sAcc 2 t1 .read zord .dev 1 0, sAcc 2 t1 .read .rlx .dev 0 0])
    { reads := [(1, 1), (1 + y.length, 1), (2 + y.length, 0)] }

def wrcRelaxed : Verdict := wrc [sAcc 1 (coreOf 0 1) .read .rlx .dev 0 0, sAcc 1 (coreOf 0 1) .write .rlx .dev 1 1] .rlx
def wrcCluster : Verdict :=
  wrc [sAcc 1 (coreOf 0 1) .read .rlx .clu 0 0, opEv 1 (coreOf 0 1) .fence .rel .clu, sAcc 1 (coreOf 0 1) .write .rlx .dev 1 1] .acq
def wrcDevice : Verdict := wrc [sAcc 1 (coreOf 0 1) .read .rlx .dev 0 0, sAcc 1 (coreOf 0 1) .write .rel .dev 1 1] .acq

/-! ## Two threads (R110) -/

/-- 2+2W, final x = 1 and y = 1. -/
def twoTwo (o : Order) : Verdict :=
  verdict [sAcc 0 t0 .write .rlx .dev 0 1, sAcc 0 t0 .write o .dev 1 2, sAcc 1 t1 .write .rlx .dev 1 1, sAcc 1 t1 .write o .dev 0 2]
    { reads := [], final := [(0, 1), (1, 1)] }

/-- S, a = 1 and final x = 2. -/
def sTest (o : Order) : Verdict :=
  verdict [sAcc 0 t0 .write .rlx .dev 0 2, sAcc 0 t0 .write o .dev 1 1, sAcc 1 t1 .read .rlx .dev 1 0, sAcc 1 t1 .write .rlx .dev 0 1]
    { reads := [(2, 1)], final := [(0, 2)] }

/-- LB, a = 1 and b = 1. -/
def lbTest : Verdict :=
  verdict [sAcc 0 t0 .read .rlx .dev 0 0, sAcc 0 t0 .write .rlx .dev 1 1, sAcc 1 t1 .read .rlx .dev 1 0, sAcc 1 t1 .write .rlx .dev 0 1]
    { reads := [(0, 1), (2, 1)] }

/-- SB, a = 0 and b = 0. -/
def sbTest : Verdict :=
  verdict [sAcc 0 t0 .write .rlx .dev 0 1, sAcc 0 t0 .read .rlx .dev 1 0, sAcc 1 t1 .write .rlx .dev 1 1, sAcc 1 t1 .read .rlx .dev 0 0]
    { reads := [(1, 0), (3, 0)] }

def sbFenced : Verdict :=
  verdict [sAcc 0 t0 .write .rlx .dev 0 1, opEv 0 t0 .fenceSc .rlx .dev, sAcc 0 t0 .read .rlx .dev 1 0,
    sAcc 1 t1 .write .rlx .dev 1 1, opEv 1 t1 .fenceSc .rlx .dev, sAcc 1 t1 .read .rlx .dev 0 0] { reads := [(2, 0), (5, 0)] }

/-! ## Independent reads of independent writes (R111) -/

/-- The two writers, and each reader with a fence between its loads where there is one. -/
def iriw (sc : Scope) (fence : Bool) : Verdict :=
  let f := fun (thr : Nat) (c : CoreId) => if fence then [opEv thr c .fenceSc .rlx .sys] else []
  let k := if fence then 1 else 0
  verdict ([sAcc 0 (coreOf 2 0) .write .rlx sc 0 1, sAcc 1 (coreOf 3 0) .write .rlx sc 1 1, sAcc 2 t0 .read .rlx sc 0 0] ++ f 2 t0 ++
    [sAcc 2 t0 .read .rlx sc 1 0, sAcc 3 t1 .read .rlx sc 1 0] ++ f 3 t1 ++ [sAcc 3 t1 .read .rlx sc 0 0])
    { reads := [(2, 1), (3 + k, 0), (4 + k, 1), (5 + 2 * k, 0)] }

/-! ## Completion through the inbox (R112) -/

/-- Core 0 issues a copy of a buffer's byte, 0, dequeues its completion, and stores f := 1; another core reads f = 1 and then the buffer, as `b`. -/
def inboxTest (w r : Order) (b : Nat) : Verdict :=
  verdict [{ opEv 0 t0 .op .rlx .core with xfer := some 0, role := .issues }, { sAcc 0 t0 .write .rlx .sys 0 1 with item := true, xfer := some 0 },
    { opEv 0 t0 .op .rlx .core with xfer := some 0, role := .dequeues }, sAcc 0 t0 .write w .dev 1 1,
    sAcc 1 (coreOf 0 1) .read r .dev 1 0, pAcc 1 (coreOf 0 1) .read 0 0] { reads := [(4, 1), (5, b)] }

/-! ## Returns and borrows of weight (R72, R73, R350) -/

/-- An item's write and its return of weight, and a `wquiet` that has seen the return: a strong load then misses the write. -/
def quietTest : Verdict :=
  verdict [
    { sAcc 0 t0 .write .rlx .sys 0 1 with item := true, xfer := some 0 },
    { sAcc 0 t0 .rmw .rlx .dev 1 1 with item := true, xfer := some 0, role := .returns false },
    { sAcc 1 t1 .read .acq .dev 1 0 with role := .wakes false }, sAcc 1 t1 .read .rlx .dev 0 0] { reads := [(2, 1), (3, 0)] }

/-- The weir's borrow for a grid, and a thread of the grid whose load of the root misses it. -/
def borrowTest : Verdict :=
  verdict [{ sAcc 0 t0 .rmw .rlx .sys 0 1 with role := .borrows 0 }, { opEv 1 t1 .op .rlx .core with role := .enters 0 },
    sAcc 1 t1 .read .rlx .dev 0 0] { reads := [(2, 0)] }

end Sys2Proof.Machine
end

