-- ==== Sys2Proof/Safety.lean ====
section
/-!
DEFINITION. What a safe run is, and the terms in which the statements about the LX9 are written: which instruction is in hand, what it names and
needs, when it has everything it needs, and the state in which it ends.
-/
namespace Sys2Proof.Machine

/-! ## Safe runs -/

/-- A step that neither faults nor is refused. -/
def goesOn (s : State) : Prop := ∃ t, step s = .next t

/-- A run of n steps is safe: every one gives a next state. -/
def safeRun (n : Nat) (s : State) : Prop := ∃ t, Host.Core.run core n s = .next t

/-- The turn names a core that exists, or an event: what the LX9's agenda always does. -/
def turnOk (s : State) : Bool :=
  match s.turn.act with
  | .core c => coreExists s c
  | .event _ => true

/-- Every cluster of a package that has booted has had its scrubber pass within the interval of R420: what the LX9's agenda always does. -/
def timely (s : State) : Bool := s.pkgs.all (fun k => !k.2.booted || (List.range 512).all (scrubInTime s k.1))

/-- A safe run all of whose states are timely. -/
def timelyRun (n : Nat) (s : State) : Prop := safeRun n s ∧ ∀ k ≤ n, ∀ t, Host.Core.run core k s = .next t → timely t = true

/-! ## The instruction in hand -/

/-- t is the thread that issues: it stands in the slot of `State.cur`. -/
def inHand (s : State) (t : Thread) : Prop := getT s s.cur.core s.cur.slot = some t

/-- The address after the instruction (R140). -/
def nextPc (s : State) (t : Thread) : Nat := t.pc + 2 * s.cur.words.length

/-- The trap of the instruction in hand (R347, R455). -/
def trapOf (s : State) (t : Thread) (cls cause : Nat) (addr aux : Dword) : TrapInfo :=
  { cls := cls, cause := cause, addr := addr, aux := aux, pc := t.pc, seg := t.seg, words := s.cur.words }

/-- The state after the instruction in hand has raised a trap. -/
def trapped (s : State) (t : Thread) (cls cause : Nat) (addr aux : Dword) : State :=
  takeTrap s s.cur.core s.cur.slot (trapOf s t cls cause addr aux)


/-- The thread with a change to it, its PC past the instruction, the switch marker as the instruction sets it (R147). -/
def past (s : State) (t : Thread) (sw : Bool) (f : Thread → Thread) : Thread :=
  { (f t).advance (nextPc s t) sw with seg := t.seg }

/-! ## What an instruction finds -/

/-- The fields alone raise no trap (R154, R259, R320, R327, R338, R358). DESIGN CHOICE: log entries 17, 18. -/
def fieldsOk (s : State) : Instr → Bool
  | .srr o => (srFault s.cur.core o.num false).isNone
  | .srw o => (srFault s.cur.core o.num true).isNone
  | .ibx o => decide (o.rd ≠ 0) && decide (o.rd.val % 4 = 0)
  | .ibxT o => decide (o.rd ≠ 0) && decide (o.rd.val % 4 = 0)
  | .blkq o => decide (o.rd ≠ 0) && decide (o.rd.val % 4 = 0)
  | .copy o => decide (o.b ≠ 0) && decide (o.b.val % 4 = 0) && !(netHere s && decide (60 ≤ o.b.val))
  | .lds o => decide (o.c.val % 2 = 0)
  | .ldso o => decide (o.c.val % 2 = 0)
  | .sts o => decide (o.c.val % 2 = 0)
  | .stso o => decide (o.c.val % 2 = 0)
  | _ => true

/-- The switch marker that the instruction leaves: `leave` and `spawn` apply it whatever their S bit (R205, R238). -/
def markerOf (t : Thread) (i : Instr) : Bool :=
  match i with
  | .leave o => o.pre.sw || runs t o.pre
  | .spawn o => o.pre.sw || runs t o.pre
  | j => (preOf j).sw

/-- Its level and its kind of core may issue it (R210, R356). DESIGN CHOICE: log entry 17. -/
def levelOk (s : State) (i : Instr) : Bool :=
  (!(usesOf i).priv || isFp s.cur.core) && (!(usesOf i).noFp || !isFp s.cur.core)

/-- Every register that it names is allotted (R35). -/
def allotted (t : Thread) (i : Instr) : Bool := !beyond t.allot (usesOf i)

/-- Its predicate lets it run (R145, R265). -/
def running (t : Thread) (i : Instr) : Bool := !isOff t (preOf i) (usesOf i)

/-- The words and the room of its ports are there (R62, R63). -/
def portsReady (s : State) (t : Thread) (i : Instr) : Prop := portCheck s s.cur.core s.cur.slot t (usesOf i) = none

/-- Earlier accesses are accepted where it has an effect outside the registers (R152), and its results fit among those outstanding (R368). -/
def roomOk (t : Thread) (i : Instr) : Prop :=
  ((usesOf i).eff = true → t.acc = []) ∧ ((usesOf i).lat = 0 ∨ t.out.length + (usesOf i).lat ≤ 32)

/-- An earlier result of the core holds the divide unit or the transcendental unit that the instruction uses, or another thread waits for it longer (R172). -/
def unitTaken (s : State) (t : Thread) (i : Instr) : Bool :=
  (usesOf i).unit.any (fun x => unitBusy s s.cur.core x || lineTaken (getCore s s.cur.core) s.cur.slot t (.unit x))

/-- THE INSTRUCTION IS READY: nothing of the checks and waits that all instructions share stops it. -/
structure Ready (s : State) (t : Thread) (i : Instr) : Prop where
  hand : inHand s t
  level : levelOk s i = true
  fields : fieldsOk s i = true
  regs : allotted t i = true
  runs : running t i = true
  ports : portsReady s t i
  room : roomOk t i
  unit : unitTaken s t i = false

/-- The values of the general registers it reads, in order: a port gives the words at the head of its queue (R62). -/
def operands (s : State) (t : Thread) (i : Instr) : List Dword := readAll s.tick t (usesOf i).rg (getCore s s.cur.core).nq

/-- The n-th of them. -/
def operand (s : State) (t : Thread) (i : Instr) (n : Nat) : Dword := (operands s t i).getD n 0

/-- A thread that waits to issue the instruction again, with its place among those that use the same ports or unit (R39, R62, R172). -/
def waits (z : State) (c : CoreId) (t : Thread) (i : Instr) (w : HeldOn) (u : Thread) : Thread :=
  { u with run := .held w, claims := keepClaims z.tick u (claimsOf z c t (usesOf i) (some w)) }

/-- The instruction in hand waits, and has done nothing else. -/
def heldAt (s : State) (t : Thread) (i : Instr) (w : HeldOn) : State := setT s s.cur.core s.cur.slot (some (waits s s.cur.core t i w t))

/-- The instruction in hand waits, in the state given. -/
def heldIn (s : State) (t : Thread) (i : Instr) (z : State) (w : HeldOn) : State := modT z s.cur.core s.cur.slot (waits z s.cur.core t i w)

/-- A second source: the n-th operand, or the immediate (R144). -/
def sourceAt (s : State) (t : Thread) (i : Instr) (n : Nat) : Src → Dword
  | .reg _ => operand s t i n
  | .imm v => BitVec.ofInt 64 v

/-- The state in which its own effect starts: earlier stores of the thread are performed where it is ordered after them (R84, R93). -/
def settled (s : State) (i : Instr) : State :=
  if (usesOf i).eff && !(usesOf i).loose then drainThread s s.cur.core s.cur.slot else s

/-- The context of its meaning. -/
def ctxOf (s : State) (t : Thread) (i : Instr) : Ctx :=
  { c := s.cur.core, slot := s.cur.slot, t := t, x := operands s t i, next := nextPc s t }

/-- THE STATE IN WHICH AN INSTRUCTION ENDS NORMALLY, from the state that its own effect leaves: the words of its port reads leave their queues and those
of its port writes set out (R62), and the thread stands past it. -/
def ended (s : State) (t : Thread) (i : Instr) (s2 : State) : State :=
  modT (commitPorts s2 s.cur.core s.cur.slot t.seq (usesOf i) t.net) s.cur.core s.cur.slot
    (fun x => { x.advance (nextPc s t) (markerOf t i) with seg := t.seg })

/-- The end of an instruction that only changes its thread. -/
def retired (s : State) (t : Thread) (i : Instr) (f : Thread → Thread) : State :=
  ended s t i (modT (settled s i) s.cur.core s.cur.slot f)

/-! ## Other ends of an instruction -/

/-- The state in which an instruction that transfers control ends: as `retired`, at another address and segment (R197). -/
def jumped (s : State) (t : Thread) (i : Instr) (f : Thread → Thread) (pc seg : Nat) : State :=
  modT (commitPorts (modT (settled s i) s.cur.core s.cur.slot f) s.cur.core s.cur.slot t.seq (usesOf i) t.net) s.cur.core s.cur.slot
    (fun x => { x.advance pc (markerOf t i) with seg := seg })

/-- A synchronous access as an instruction starts it (R152, R410): with the registers of its issue. -/
def accessOf (s : State) (t : Thread) (op : AccOp) (strong : Bool) (os : OrdSc) : Access :=
  { seq := t.seq, no := s.itemSeq, op := op, strong := strong, os := os, pc := t.pc, seg := t.seg, words := s.cur.words, ck := t.regs,
    ckHandler := t.inHandler, pops := [], buffered := false, shard := none }

/-- The end of an instruction that starts a synchronous access. -/
def started (s : State) (t : Thread) (i : Instr) (f : Thread → Thread) : State :=
  ended s t i (numbered (modT (settled s i) s.cur.core s.cur.slot f))

/-- The thread with an access on its way. -/
def withAccess (s : State) (t : Thread) (op : AccOp) (strong : Bool) (os : OrdSc) (u : Thread) : Thread :=
  { u with acc := u.acc ++ [accessOf s t op strong os] }

/-- The thread with a result outstanding whose value is not known yet (R147). -/
def awaiting (s : State) (d : Dst) (u : Thread) : Thread := pushOut (keepV s.tick u d) d .none {} false

/-- The item that an instruction sends off (R223). -/
def itemOf (s : State) (t : Thread) (id kind : Nat) (op : ItemOp) (a f : Dword) (share : Nat) : Item :=
  { id := id, who := whoOf s.cur.core t, kind := kind, op := op, addr := a, flag := f, share := share, domain := t.domain, note := false,
    stage := .sent }

/-- An access that an instruction makes at its issue reaches its home (R152): no earlier request of the core for its page is held, and it is performed at
a physical address, from the state given. -/
def reachesHome (s : State) (t : Thread) (z : State) (a : Dword) (n : Nat) (kind : AKind) (z1 : State) (ph : Nat) : Prop :=
  portBehind z (whoOf s.cur.core t) a (.issue s.cur.core s.cur.slot t.seq) = none ∧ ∃ host, judge z (whoOf s.cur.core t) a n kind = (z1, .ok ph host)

/-- The item on its way; `pub` marks a `.rel` at system scope (R93, R382). -/
def itemSent (s : State) (t : Thread) (kind : Nat) (op : ItemOp) (a f : Dword) (share : Nat) (z : State) (pub : Bool := false) : State :=
  { z with items := z.items ++ [{ itemOf s t z.itemSeq kind op a f share with pub := pub }], itemSeq := z.itemSeq + 1 }

/-- A variable-latency status or value, ready at once (R234). -/
def answered (s : State) (rd : GReg) (x : Dword) (z : State) : State :=
  modT z s.cur.core s.cur.slot (fun u => pushOut u (.g rd) (.dword x) {} true)

/-- The thread parks (R46), with an entry of its core's table where one is free (R61). -/
def parks (s : State) (t : Thread) (i : Instr) (z : State) (w : ParkOn) : State :=
  modT z s.cur.core s.cur.slot (fun u => {
    u with
    run := .parked w (takesEntry z (whoOf s.cur.core u) w), parkedAt := z.clock
    claims := keepClaims z.tick u (claimsOf z s.cur.core t (usesOf i) none) })

/-- A wait of an instruction with a switch marker first waits for the thread's results (R147, R150). -/
def mayPark (t : Thread) (i : Instr) : Prop := markerOf t i = false ∨ (t.out = [] ∧ t.acc = [])

/-! ## Ports -/

/-- The directions of the ports it uses, reads first (R62). -/
def portDirs (t : Thread) (i : Instr) : List Nat :=
  (portReads t.net (usesOf i)).map (fun x => x.1) ++ (portWrites t.net (usesOf i)).map (fun x => x.2.1)

/-- A port has no neighbour within the mesh and the grid's tenancy (R63); a core that a crew of the grid has left for its image is within it (R48). -/
def leadsNowhere (s : State) (t : Thread) (d : Nat) : Bool :=
  match neighbour s.cur.core.n d with
  | none => true
  | some n => decide ((getCore s { s.cur.core with n := n }).tenancy ≠ t.gslot) && !crewOff s s.cur.core.pkg n t.gslot

/-- A queue from which the instruction pops lacks words, holds words that an access not yet accepted has read, or is another thread's first (R62). -/
def popsShort (s : State) (t : Thread) (i : Instr) : Bool :=
  let k := getCore s s.cur.core
  let rs := portReads t.net (usesOf i)
  rs.any (fun x => popsPending s s.cur.core x.1 || lineTaken k s.cur.slot t (.pop x.1 0) || decide ((k.nq[x.1]?.getD []).length < needFrom rs x.1))

/-- A queue into which it pushes lacks room for its words, is another thread's first, or is stopped (R62, R369). -/
def pushFull (s : State) (t : Thread) (i : Instr) : Bool :=
  (portWrites t.net (usesOf i)).any (fun w => match neighbour s.cur.core.n w.2.1 with
    | none => false
    | some n => decide (8 < nqUsed s s.cur.core.pkg n (oppositeDir w.2.1) + portWords w.2.2) ||
        lineTaken (getCore s s.cur.core) s.cur.slot t (.push n (oppositeDir w.2.1) 0) || netStopped s s.cur.core.pkg n t.gslot)

/-- No general register that the instruction names is a port (R62). -/
def noPorts (t : Thread) (i : Instr) : Prop :=
  portReads t.net (usesOf i) = [] ∧ portWrites t.net (usesOf i) = [] ∧ (usesOf i).lg.any (fun r => (portDir t.net r).isSome) = false

end Sys2Proof.Machine
end

