-- ==== Sys2Proof/Certificates/Slice0/Obligations.lean ====
section
/-!
DEFINITION. The statements for the provers. Each formalises numbered rules of spec/ or a property of the model that they imply; the
docstring names them. Tables of rows stand before the statements that range over them.
-/
namespace Sys2Proof.Machine

/-! ## Values of integer instructions, written from R171 to R182 -/

/-- The low n bits of a source as a signed value (R171). -/
def sgn (n : Nat) (x : Dword) : Int := (x.setWidth n).toInt

/-- The low n bits of a source as an unsigned value (R171). -/
def uns (n : Nat) (x : Dword) : Nat := (x.setWidth n).toNat

/-- A result at n bits as it is written: its low n bits, sign-extended (R171). -/
def back (n : Nat) (r : Int) : Dword := (BitVec.ofInt n r).signExtend 64

/-- R173, R174, R181: row, and its result before R171 writes it. -/
def aluRows : List ((AluOps → Instr) × (Nat → Dword → Dword → Int)) := [
  (.add, fun n x y => sgn n x + sgn n y),
  (.sub, fun n x y => sgn n x - sgn n y),
  (.and, fun _ x y => (x &&& y).toNat),
  (.or, fun _ x y => (x ||| y).toNat),
  (.xor, fun _ x y => (x ^^^ y).toNat),
  (.shl, fun n x y => if y.toNat < n then (uns n x * 2 ^ y.toNat % 2 ^ n : Nat) else 0),
  (.shr, fun n x y => if y.toNat < n then (uns n x / 2 ^ y.toNat : Nat) else 0),
  (.sar, fun n x y => if y.toNat < n then sgn n x / 2 ^ y.toNat else if 0 ≤ sgn n x then 0 else -1),
  (.mul, fun n x y => sgn n x * sgn n y),
  (.min, fun n x y => if sgn n x ≤ sgn n y then sgn n x else sgn n y),
  (.max, fun n x y => if sgn n x ≤ sgn n y then sgn n y else sgn n x),
  (.minu, fun n x y => if uns n x ≤ uns n y then uns n x else uns n y),
  (.maxu, fun n x y => if uns n x ≤ uns n y then uns n y else uns n x),
  (.addsat, fun n x y => max (-2 ^ (n - 1)) (min (2 ^ (n - 1) - 1) (sgn n x + sgn n y))),
  (.subsat, fun n x y => max (-2 ^ (n - 1)) (min (2 ^ (n - 1) - 1) (sgn n x - sgn n y))),
  (.addsatu, fun n x y => min (2 ^ n - 1) ((uns n x : Int) + uns n y)),
  (.subsatu, fun n x y => max 0 ((uns n x : Int) - uns n y))]

/-- R177: row, signed, and whether the result is the quotient. -/
def divRows : List ((AluOps → Instr) × Bool × Bool) := [
  (.div, true, true), (.divu, false, true), (.rem, true, false), (.remu, false, false)]

/-- A source at n bits by the signedness of the row (R177, R178). -/
def valueOf (signed : Bool) (n : Nat) (x : Dword) : Int := if signed then sgn n x else uns n x

/-- Quotient and remainder of R177. -/
def quotRem (signed : Bool) (n : Nat) (x y : Int) : Int × Int :=
  if y = 0 then (-1, x)
  else if signed = true ∧ x = -2 ^ (n - 1) ∧ y = -1 then (x, 0)
  else (x.tdiv y, x - x.tdiv y * y)

/-- R178: row, and the signedness of its operands. -/
def mulhRows : List ((MulhOps → Instr) × Bool × Bool) := [(.mulh, true, true), (.mulhu, false, false), (.mulhsu, true, false)]

/-- The bits of a source from bit 0 upward. -/
def bitsOf (n : Nat) (x : Dword) : List Bool := (List.range n).map (fun i => x.getLsbD i)

/-- R180: row, and its result for the low n bits of the source. -/
def unaryRows : List ((UnOps → Instr) × (Nat → Dword → Dword)) := [
  (.clz, fun n x => dw ((bitsOf n x).reverse.takeWhile (fun b => !b)).length),
  (.ctz, fun n x => dw ((bitsOf n x).takeWhile (fun b => !b)).length),
  (.popc, fun n x => dw ((bitsOf n x).filter (fun b => b)).length),
  (.bswap, fun n x => back n ((List.range (n / 8)).map (fun i => x.toNat / 256 ^ (n / 8 - 1 - i) % 256 * 256 ^ i)).sum),
  (.sextB, fun _ x => (x.setWidth 8).signExtend 64), (.sextH, fun _ x => (x.setWidth 16).signExtend 64),
  (.sextW, fun _ x => (x.setWidth 32).signExtend 64), (.zextB, fun _ x => dw (x.toNat % 2 ^ 8)),
  (.zextH, fun _ x => dw (x.toNat % 2 ^ 16)), (.zextW, fun _ x => dw (x.toNat % 2 ^ 32))]

/-- R176: row, and its comparison at n bits. -/
def compareRows : List ((CmpOps → Instr) × (Nat → Dword → Dword → Bool)) := [
  (.ceq, fun n x y => decide (sgn n x = sgn n y)), (.clt, fun n x y => decide (sgn n x < sgn n y)),
  (.cltu, fun n x y => decide (uns n x < uns n y))]

/-- Every lane of a predicate (R176, R188). -/
def everyLane (b : Bool) : Word := if b then 0xFFFFFFFF#32 else 0#32

end Sys2Proof.Machine

open Sys2Proof Sys2Proof.Machine

/-! ## Integer instructions (spec/06) -/

/-- R173, R174, R181 with R171: each of the seventeen instructions completes; its result, and nothing else. -/
def Obligations.IntegerArithmetic : Prop :=
  ∀ row ∈ aluRows, ∀ (o : AluOps) (s : State) (t : Thread), Ready s t (row.1 o) →
    exec (row.1 o) s = .next (retired s t (row.1 o) (fun u => writeG u o.rd
      (back (wBits o.w) (row.2 (wBits o.w) (operand s t (row.1 o) 0) (sourceAt s t (row.1 o) 1 o.y)))))

/-- R177: the divisions complete; the result is outstanding with DZ where the divisor is zero. -/
def Sys2Proof.Rules.IntegerDivision : Prop :=
  ∀ row ∈ divRows, ∀ (o : AluOps) (s : State) (t : Thread), Ready s t (row.1 o) →
    let n := wBits o.w
    let x := valueOf row.2.1 n (operand s t (row.1 o) 0)
    let y := valueOf row.2.1 n (sourceAt s t (row.1 o) 1 o.y)
    let r := quotRem row.2.1 n x y
    exec (row.1 o) s = .next (retired s t (row.1 o) (fun u =>
      onUnit .divide (pushOut u (.g o.rd) (.dword (back n (if row.2.2 then r.1 else r.2))) { dz := decide (y = 0) } true)))

/-- R178: the high half of the exact product. -/
def Sys2Proof.Rules.HighProduct : Prop :=
  ∀ row ∈ mulhRows, ∀ (o : MulhOps) (s : State) (t : Thread), Ready s t (row.1 o) →
    let n := wBits o.w
    exec (row.1 o) s = .next (retired s t (row.1 o) (fun u => writeG u o.rd
      (back n (valueOf row.2.1 n (operand s t (row.1 o) 0) * valueOf row.2.2 n (operand s t (row.1 o) 1) / 2 ^ n))))

/-- R180: the ten unary instructions. -/
def Sys2Proof.Rules.IntegerUnary : Prop :=
  ∀ row ∈ unaryRows, ∀ (o : UnOps) (s : State) (t : Thread), Ready s t (row.1 o) →
    exec (row.1 o) s = .next (retired s t (row.1 o) (fun u => writeG u o.rd (row.2 (wBits o.w) (operand s t (row.1 o) 0))))

/-- R176: a compare writes every lane of its predicate. -/
def Sys2Proof.Rules.IntegerCompare : Prop :=
  ∀ row ∈ compareRows, ∀ (o : CmpOps) (s : State) (t : Thread), Ready s t (row.1 o) →
    exec (row.1 o) s = .next (retired s t (row.1 o) (fun u => writeP u o.pd
      (everyLane (row.2 (wBits o.w) (operand s t (row.1 o) 0) (sourceAt s t (row.1 o) 1 o.y)))))

/-- R175, R179, R182: moves, bit fields, the shifted sum and the upper half. -/
def Obligations.MovesAndFields : Prop :=
  (∀ (o : MovOps) (s : State) (t : Thread), Ready s t (.mov o) →
    exec (.mov o) s = .next (retired s t (.mov o) (fun u => writeG u o.rd (sourceAt s t (.mov o) 0 o.y)))) ∧
  (∀ (o : BitfOps) (s : State) (t : Thread), Ready s t (.bfx o) → 1 ≤ o.len → o.pos + o.len ≤ 64 →
    exec (.bfx o) s = .next (retired s t (.bfx o) (fun u => writeG u o.rd
      (((operand s t (.bfx o) 0).extractLsb' o.pos o.len).signExtend 64)))) ∧
  (∀ (o : BitfOps) (s : State) (t : Thread), Ready s t (.bfxu o) → 1 ≤ o.len → o.pos + o.len ≤ 64 →
    exec (.bfxu o) s = .next (retired s t (.bfxu o) (fun u => writeG u o.rd
      (((operand s t (.bfxu o) 0).extractLsb' o.pos o.len).setWidth 64)))) ∧
  (∀ (o : BitfOps) (s : State) (t : Thread), Ready s t (.bfi o) → 1 ≤ o.len → o.pos + o.len ≤ 64 →
    ∃ r : Dword, exec (.bfi o) s = .next (retired s t (.bfi o) (fun u => writeG u o.rd r)) ∧
      ∀ i < 64, r.getLsbD i = if o.pos ≤ i ∧ i < o.pos + o.len then (operand s t (.bfi o) 1).getLsbD (i - o.pos)
        else (operand s t (.bfi o) 0).getLsbD i) ∧
  (∀ (o : AddshOps) (s : State) (t : Thread), Ready s t (.addsh o) →
    exec (.addsh o) s = .next (retired s t (.addsh o) (fun u => writeG u o.rd
      (dw ((operand s t (.addsh o) 0).toNat + (operand s t (.addsh o) 1).toNat * 2 ^ o.sh.val))))) ∧
  (∀ (o : MovhOps) (s : State) (t : Thread), Ready s t (.movh o) → o.imm < 2 ^ 32 →
    exec (.movh o) s = .next (retired s t (.movh o) (fun u => writeG u o.rd
      (BitVec.ofNat 32 o.imm ++ (operand s t (.movh o) 0).setWidth 32))))

/-! ## What every issued instruction shares (spec/02, spec/05, spec/15) -/

/-- R145, R265: an instruction that is predicated off moves its thread past it, applies its switch marker, and does nothing else.
It rests on the model's choice of log entry 75: of a `leave` or `spawn` that is predicated off, the marker is its S bit. -/
def Obligations.PredicatedOff : Prop :=
  ∀ (i : Instr) (s : State) (t : Thread), isIssued i = true → inHand s t → fieldsOk s i = true → levelOk s i = true →
    allotted t i = true → running t i = false →
    exec i s = .next (setT s s.cur.core s.cur.slot (some (past s t (preOf i).sw id)))

/-- R35: a register at or beyond the allotment is an illegal-instruction trap, predicated off or not, and no register changes before the handler. -/
def Obligations.RegisterBeyondAllotment : Prop :=
  ∀ (i : Instr) (s : State) (t : Thread), isIssued i = true → inHand s t → fieldsOk s i = true → levelOk s i = true →
    allotted t i = false →
    exec i s = .next (trapped s t clsIllegal 2 0 (baseAux s)) ∧
    ∀ u, getT (trapped s t clsIllegal 2 0 (baseAux s)) s.cur.core s.cur.slot = some u → u.regs = t.regs

/-- R210, R356: a privileged row at level U, and a row that a fault processor lacks, are illegal-instruction traps with their CAUSE (R455). -/
def Sys2Proof.Rules.LevelOfAnInstruction : Prop :=
  (∀ (i : Instr) (s : State) (t : Thread), isIssued i = true → inHand s t → fieldsOk s i = true → (usesOf i).priv = true →
    s.cur.core.n < 8192 → exec i s = .next (trapped s t clsIllegal 4 0 (baseAux s))) ∧
  (∀ (i : Instr) (s : State) (t : Thread), isIssued i = true → inHand s t → fieldsOk s i = true → (usesOf i).noFp = true →
    8192 ≤ s.cur.core.n → exec i s = .next (trapped s t clsIllegal 1 0 (baseAux s))) ∧
  (∀ i : Instr, (usesOf i).priv = true ↔ (∃ o, i = .mbxs o) ∨ (∃ o, i = .mbxr o) ∨ (∃ o, i = .wfi o) ∨
    ∃ o, i ∈ [Instr.tlbsdInval o, .tlbsdTransit o, .tlbsdLand o, .tlbsdDiscard o, .tlbsdRanges o, .tlbsdResume o, .tlbsdRefuse o])

/-- R62, R63, R320: a port towards no neighbour of the grid is an access fault; a port as the destination of a variable-latency result, or in the block
that B of a `copy` names, is illegal. -/
def Sys2Proof.Rules.PortsThatTrap : Prop :=
  (∀ (i : Instr) (s : State) (t : Thread), isIssued i = true → inHand s t → fieldsOk s i = true → levelOk s i = true →
    allotted t i = true → running t i = true → ((usesOf i).lg.any (fun r => (portDir t.net r).isSome)) = true →
    exec i s = .next (trapped s t clsIllegal 3 0 (baseAux s))) ∧
  (∀ (i : Instr) (s : State) (t : Thread), isIssued i = true → inHand s t → fieldsOk s i = true → levelOk s i = true →
    allotted t i = true → running t i = true → ((usesOf i).lg.any (fun r => (portDir t.net r).isSome)) = false →
    (∃ d ∈ portDirs t i, leadsNowhere s t d = true) →
    ∃ a, exec i s = .next (trapped s t clsAccess 9 a 0)) ∧
  (∀ (o : CopyOps) (s : State) (t : Thread), inHand s t → levelOk s (.copy o) = true → allotted t (.copy o) = true → running t (.copy o) = true →
    t.net = true → o.b = 60 → exec (.copy o) s = .next (trapped s t clsIllegal 3 0 (baseAux s)))

/-- R62: a pop from a queue without its words, and a push into a queue without room, hold the thread; nothing is popped or pushed. -/
def Sys2Proof.Rules.PortsThatWait : Prop :=
  ∀ (i : Instr) (s : State) (t : Thread), isIssued i = true → inHand s t → fieldsOk s i = true → levelOk s i = true →
    allotted t i = true → running t i = true → ((usesOf i).lg.any (fun r => (portDir t.net r).isSome)) = false →
    (∀ d ∈ portDirs t i, leadsNowhere s t d = false) → t.acc = [] → (popsShort s t i = true ∨ pushFull s t i = true) →
    ∃ w, exec i s = .next (heldAt s t i w)

/-- R152, R410 and R368: an instruction with an effect outside the registers waits for the thread's earlier accesses, and one that would start a
33rd variable-latency result waits until one lands. R172, R268: one whose unit a result of the core holds, or for which another thread of the core waits
longer, is HELD.
It rests on the model's choices of log entry 34. -/
def Obligations.WaitsBeforeIssue : Prop :=
  (∀ (i : Instr) (s : State) (t : Thread), isIssued i = true → inHand s t → fieldsOk s i = true → levelOk s i = true →
    allotted t i = true → running t i = true → portsReady s t i → (usesOf i).eff = true → t.acc ≠ [] →
    exec i s = .next (heldAt s t i .accs)) ∧
  (∀ (i : Instr) (s : State) (t : Thread), isIssued i = true → inHand s t → fieldsOk s i = true → levelOk s i = true →
    allotted t i = true → running t i = true → portsReady s t i → ((usesOf i).eff = true → t.acc = []) → (usesOf i).lat ≠ 0 →
    32 < t.out.length + (usesOf i).lat →
    exec i s = .next (heldAt s t i .full)) ∧
  (∀ (i : Instr) (s : State) (t : Thread) (u : LatUnit), isIssued i = true → inHand s t → fieldsOk s i = true → levelOk s i = true →
    allotted t i = true → running t i = true → portsReady s t i → roomOk t i → (usesOf i).unit = some u →
    (unitBusy s s.cur.core u = true ∨ lineTaken (getCore s s.cur.core) s.cur.slot t (.unit u) = true) →
    exec i s = .next (heldAt s t i (.unit u)))

/-- R154, R259, R320, R327, R338, R358, R455: fields that name no special register, on a core of the clusters or on a fault processor, or no block of
registers, trap whatever the predicate. -/
def Sys2Proof.Rules.FieldsThatTrap : Prop :=
  (∀ (o : RdOps) (s : State) (t : Thread), inHand s t → (o.rd = 0 ∨ o.rd.val % 4 ≠ 0) →
    exec (.ibx o) s = .next (trapped s t clsIllegal 3 0 (baseAux s)) ∧ exec (.ibxT o) s = .next (trapped s t clsIllegal 3 0 (baseAux s)) ∧
    exec (.blkq o) s = .next (trapped s t clsIllegal 3 0 (baseAux s))) ∧
  (∀ (o : SrOps) (s : State) (t : Thread), inHand s t → s.cur.core.n < 8192 → 64 ≤ o.num →
    exec (.srr o) s = .next (trapped s t clsIllegal 4 0 (baseAux s)) ∧ exec (.srw o) s = .next (trapped s t clsIllegal 4 0 (baseAux s))) ∧
  (∀ (o : SrOps) (s : State) (t : Thread), inHand s t → s.cur.core.n < 8192 → (o.num = 15 ∨ 20 ≤ o.num ∧ o.num < 64) →
    exec (.srr o) s = .next (trapped s t clsIllegal 3 0 (baseAux s)) ∧ exec (.srw o) s = .next (trapped s t clsIllegal 3 0 (baseAux s))) ∧
  (∀ (o : SrOps) (s : State) (t : Thread), inHand s t → s.cur.core.n < 8192 → (o.num < 12 ∨ o.num = 13 ∨ o.num = 14) →
    exec (.srw o) s = .next (trapped s t clsIllegal 3 0 (baseAux s))) ∧
  (∀ (o : SrOps) (s : State) (t : Thread), inHand s t → 8192 ≤ s.cur.core.n → (15 ≤ o.num ∧ o.num < 64 ∨ 68 ≤ o.num ∧ o.num < 256 ∨ 768 ≤ o.num) →
    exec (.srr o) s = .next (trapped s t clsIllegal 3 0 (baseAux s)) ∧ exec (.srw o) s = .next (trapped s t clsIllegal 3 0 (baseAux s))) ∧
  (∀ (o : SrOps) (s : State) (t : Thread), inHand s t → 8192 ≤ s.cur.core.n → (o.num < 12 ∨ o.num = 13 ∨ o.num = 14 ∨ o.num = 64 ∨ o.num = 66) →
    exec (.srw o) s = .next (trapped s t clsIllegal 3 0 (baseAux s))) ∧
  (∀ (o : CopyOps) (s : State) (t : Thread), inHand s t → (o.b = 0 ∨ o.b.val % 4 ≠ 0) →
    exec (.copy o) s = .next (trapped s t clsIllegal 3 0 (baseAux s))) ∧
  (∀ (o : ShardOps) (s : State) (t : Thread), inHand s t → o.c.val % 2 = 1 →
    exec (.lds o) s = .next (trapped s t clsIllegal 3 0 (baseAux s)) ∧ exec (.ldso o) s = .next (trapped s t clsIllegal 3 0 (baseAux s)) ∧
    exec (.sts o) s = .next (trapped s t clsIllegal 3 0 (baseAux s)) ∧ exec (.stso o) s = .next (trapped s t clsIllegal 3 0 (baseAux s)))

/-- R62, R63: a port read takes the words at the head of its queue, low word first, and a port write sends the result's words to the neighbour, where
the integer instructions of page 0 and 1 use a port. -/
def Sys2Proof.Rules.PortOperands : Prop :=
  (∀ row ∈ aluRows, ∀ (o : AluOps) (s : State) (t : Thread) (d n : Nat) (imm : Int), Ready s t (row.1 o) → t.net = true → o.x.val = 60 + d →
    o.y = .imm imm → o.rd.val < 60 → n = portWords (isW o.w) →
    let q := (getCore s s.cur.core).nq[d]?.getD []
    let x : Dword := if isW o.w then (q.getD 0 0).setWidth 64 else (q.getD 1 0) ++ (q.getD 0 0)
    ∃ s', exec (row.1 o) s = .next s' ∧
      (getCore s' s.cur.core).nq[d]?.getD [] = q.drop n ∧
      (∀ e, e ≠ d → (getCore s' s.cur.core).nq[e]? = (getCore s s.cur.core).nq[e]?) ∧
      getT s' s.cur.core s.cur.slot = some (past s t (markerOf t (row.1 o)) (fun u => writeG u o.rd
        (back (wBits o.w) (row.2 (wBits o.w) x (BitVec.ofInt 64 imm)))))) ∧
  (∀ row ∈ aluRows, ∀ (o : AluOps) (s : State) (t : Thread) (d : Nat) (imm : Int), Ready s t (row.1 o) → t.net = true → o.rd.val = 60 + d →
    o.y = .imm imm → o.x.val < 60 →
    let r := back (wBits o.w) (row.2 (wBits o.w) (readG s.tick t o.x) (BitVec.ofInt 64 imm))
    let ws : List Word := if isW o.w then [r.setWidth 32] else [r.setWidth 32, (r >>> 32).setWidth 32]
    ∃ s' m, exec (row.1 o) s = .next s' ∧ neighbour s.cur.core.n d = some m ∧
      s'.nwords = s.nwords ++ [{
        pkg := s.cur.core.pkg, dst := m, dir := (d + 2) % 4, gslot := t.gslot.getD 255, era := (getCore s { s.cur.core with n := m }).era, words := ws }])

/-! ## Registers and flags (spec/04, spec/05) -/

/-- R153, R149, R125: a written register reads back whatever was outstanding for it, g0 stays zero and p0 all ones, no other register changes, and flags
only accumulate. -/
def Sys2Proof.Rules.RegisterFile : Prop :=
  (∀ (k : Nat) (t : Thread) (r : GReg) (x : Dword), readG k (writeG t r x) r = if r = 0 then 0 else x) ∧
  (∀ (k : Nat) (t : Thread) (r q : GReg) (x : Dword), q ≠ r → readG k (writeG t r x) q = readG k t q) ∧
  (∀ (t : Thread) (r : PReg) (x : Word), readP (writeP t r x) r = if r = 0 then 0xFFFFFFFF#32 else x) ∧
  (∀ (t : Thread) (r q : PReg) (x : Word), q ≠ r → readP (writeP t r x) q = readP t q) ∧
  (∀ (k : Nat) (t : Thread) (r : VReg) (x : Vec), readV k (writeV t r x) r = x) ∧
  (∀ (k : Nat) (t : Thread) (r q : VReg) (x : Vec), q ≠ r → readV k (writeV t r x) q = readV k t q) ∧
  (∀ (t : Thread) (f : Flags), (addFlags t f).regs.fpc = t.regs.fpc ||| f.bits)

/-- R148: a register with a result outstanding reads as its value before that result or as the result, each sector of a vector register by itself. -/
def Sys2Proof.Rules.ReadBeforeLanding : Prop :=
  (∀ (k : Nat) (t : Thread) (r : GReg) (x : Dword) (f : Flags), r ≠ 0 →
    readG k (pushOut t (.g r) (.dword x) f true) r = t.regs.g[r] ∨ readG k (pushOut t (.g r) (.dword x) f true) r = x) ∧
  (∀ (k : Nat) (t : Thread) (r : VReg) (x : Vec) (f : Flags) (j : Nat), j < 4 →
    let y := readV k (pushOut t (.v r) (.vec [(0, 1024, x.toNat)]) f true) r
    elem 256 y j = elem 256 t.regs.v[r] j ∨ elem 256 y j = elem 256 x j)

/-- R125, R140, R147, R149: the frame of an instruction that ends normally, uses no port and has its effect in its thread alone: of the whole machine only
its thread's slot changes, not one byte of memory among it; and of its thread a register written leaves every other register, the predicates, tiles,
formats, sr.fpc, allotment, weight, domain, level and accesses as they were. -/
def Sys2Proof.Rules.WhatRetiringLeaves : Prop :=
  (∀ (s : State) (t : Thread) (i : Instr) (f : Thread → Thread), inHand s t → noPorts t i → (usesOf i).eff = false →
    let u := retired s t i f
    getT u s.cur.core s.cur.slot = some (past s t (markerOf t i) f) ∧ { u with cores := s.cores } = s ∧
    (∀ c, c ≠ s.cur.core → getCore u c = getCore s c) ∧
    (∀ l, l ≠ s.cur.slot → getT u s.cur.core l = getT s s.cur.core l) ∧
    { getCore u s.cur.core with slots := (getCore s s.cur.core).slots } = getCore s s.cur.core ∧
    ∀ a, readByte u t.gslot a = readByte s t.gslot a) ∧
  (∀ (s : State) (t : Thread) (sw : Bool) (r : GReg) (x : Dword), let u := past s t sw (fun u => writeG u r x)
    (∀ q, q ≠ r → u.regs.g[q] = t.regs.g[q]) ∧ u.regs.v = t.regs.v ∧ u.regs.p = t.regs.p ∧ u.regs.t = t.regs.t ∧ u.regs.nf = t.regs.nf ∧
    u.regs.fpc = t.regs.fpc ∧ u.allot = t.allot ∧ u.weight = t.weight ∧ u.domain = t.domain ∧ u.inHandler = t.inHandler ∧ u.acc = t.acc ∧
    u.pc = nextPc s t ∧ u.seg = t.seg) ∧
  (∀ (s : State) (t : Thread) (sw : Bool) (r : VReg) (x : Vec), let u := past s t sw (fun u => writeV u r x)
    (∀ q, q ≠ r → u.regs.v[q] = t.regs.v[q]) ∧ u.regs.g = t.regs.g ∧ u.regs.p = t.regs.p ∧ u.regs.t = t.regs.t ∧ u.regs.nf = t.regs.nf ∧
    u.regs.fpc = t.regs.fpc ∧ u.weight = t.weight ∧ u.acc = t.acc) ∧
  (∀ (s : State) (t : Thread) (sw : Bool) (r : PReg) (x : Word), let u := past s t sw (fun u => writeP u r x)
    (∀ q, q ≠ r → u.regs.p[q] = t.regs.p[q]) ∧ u.regs.g = t.regs.g ∧ u.regs.v = t.regs.v ∧ u.regs.t = t.regs.t ∧ u.regs.nf = t.regs.nf ∧
    u.regs.fpc = t.regs.fpc ∧ u.out = t.out ∧ u.acc = t.acc)

/-! ## Scalar floating point (spec/04, spec/06) -/

namespace Sys2Proof.Machine

/-- R184, R185: row, and its operation. -/
def fpRows : List ((FpOps → Instr) × FpOp) := [
  (.fadd, .add), (.fsub, .sub), (.fmul, .mul), (.ffma, .fma), (.faddRounded, .add), (.fsubRounded, .sub), (.fmulRounded, .mul),
  (.ffmaRounded, .fma), (.ffms, .fms), (.fnma, .fnma)]

/-- R172, R186, R192: row, its unit, and its function. -/
def fpSlowRows : List ((Fp1ROps → Instr) × LatUnit × (Fmt → Rm → Nat → Nat × Flags)) := [
  (.fsqrt, .divide, fpSqrt), (.fexp2, .transcendental, fpTrans .exp2), (.flog2, .transcendental, fpTrans .log2),
  (.frcp, .transcendental, fpTrans .rcp), (.frsqrt, .transcendental, fpTrans .rsqrt), (.fsinpi, .transcendental, fpTrans .sinpi),
  (.fcospi, .transcendental, fpTrans .cospi)]

/-- R187: row, and whether it is the maximum. -/
def fpMinRows : List ((Fp2Ops → Instr) × Bool) := [(.fmin, false), (.fmax, true)]

/-- R187, R188: row, and its function of a code. -/
def fpSignRows : List ((Fp1Ops → Instr) × (Fmt → Nat → Nat)) := [
  (.fabs, fun f x => x % 2 ^ (f.width - 1)),
  (.fneg, fun f x => if x < 2 ^ (f.width - 1) then x + 2 ^ (f.width - 1) else x - 2 ^ (f.width - 1)),
  (.fclass, fpClass)]

/-- R188: row, and its comparison. -/
def fpCompareRows : List ((FcmpOps → Instr) × FCmp) := [(.fceq, .eq), (.fclt, .lt), (.fcle, .le), (.fcun, .un)]

/-- The low bits of an operand of a format (R183). -/
def codeAt (s : State) (t : Thread) (i : Instr) (f : Fmt) (n : Nat) : Nat := (operand s t i n).toNat % 2 ^ f.width

/-- A floating result in its register with its flags, the bits above it zero (R183, R125). -/
def putCode (rd : GReg) (r : Nat × Flags) (u : Thread) : Thread := addFlags (writeG u rd (dw r.1)) r.2

end Sys2Proof.Machine

/-- R183 to R188, R192: the scalar floating-point instructions complete; the result is that of the rounded operation in the low bits of the
destination, its flags with it, and a variable-latency result is outstanding. -/
def Obligations.ScalarFloat : Prop :=
  (∀ row ∈ fpRows, ∀ (o : FpOps) (s : State) (t : Thread), Ready s t (row.1 o) →
    let f := fmtOf o.fmt
    exec (row.1 o) s = .next (retired s t (row.1 o) (putCode o.rd (fpArith row.2 f (RSelMode o.rm t.regs.fpc)
      (codeAt s t (row.1 o) f 0) (codeAt s t (row.1 o) f 1) (codeAt s t (row.1 o) f 2))))) ∧
  (∀ (o : FpOps) (s : State) (t : Thread), Ready s t (.fdiv o) →
    let f := fmtOf o.fmt
    let r := fpDiv f (RSelMode o.rm t.regs.fpc) (codeAt s t (.fdiv o) f 0) (codeAt s t (.fdiv o) f 1)
    exec (.fdiv o) s = .next (retired s t (.fdiv o) (fun u => onUnit .divide (pushOut u (.g o.rd) (.dword (dw r.1)) r.2 true)))) ∧
  (∀ row ∈ fpSlowRows, ∀ (o : Fp1ROps) (s : State) (t : Thread), Ready s t (row.1 o) →
    let f := fmtOf o.fmt
    let r := row.2.2 f (RSelMode o.rm t.regs.fpc) (codeAt s t (row.1 o) f 0)
    exec (row.1 o) s = .next (retired s t (row.1 o) (fun u => onUnit row.2.1 (pushOut u (.g o.rd) (.dword (dw r.1)) r.2 true)))) ∧
  (∀ row ∈ fpMinRows, ∀ (o : Fp2Ops) (s : State) (t : Thread), Ready s t (row.1 o) →
    let f := fmtOf o.fmt
    exec (row.1 o) s = .next (retired s t (row.1 o) (putCode o.rd (fpMinMax row.2 f (codeAt s t (row.1 o) f 0) (codeAt s t (row.1 o) f 1))))) ∧
  (∀ row ∈ fpSignRows, ∀ (o : Fp1Ops) (s : State) (t : Thread), Ready s t (row.1 o) →
    let f := fmtOf o.fmt
    exec (row.1 o) s = .next (retired s t (row.1 o) (putCode o.rd (row.2 f (codeAt s t (row.1 o) f 0), {})))) ∧
  (∀ row ∈ fpCompareRows, ∀ (o : FcmpOps) (s : State) (t : Thread), Ready s t (row.1 o) →
    let f := fmtOf o.fmt
    let r := fpCompare row.2 f (codeAt s t (row.1 o) f 0) (codeAt s t (row.1 o) f 1)
    exec (row.1 o) s = .next (retired s t (row.1 o) (fun u => addFlags (writeP u o.pd (everyLane r.1)) r.2)))

/-- R189 to R191: conversions complete, from the exact source value in one step; a narrow-format descriptor that is no format traps (R121).
It rests on the model's choices of log entry 17 (the CAUSE 3 of its illegal-instruction traps). -/
def Obligations.ScalarConversions : Prop :=
  (∀ (o : FcvtOps) (s : State) (t : Thread), Ready s t (.fcvt o) →
    exec (.fcvt o) s = .next (retired s t (.fcvt o) (putCode o.rd
      (roundFP (fmtOf o.dst) (RSelMode o.rm t.regs.fpc) false (decodeFp (fmtOf o.src) (codeAt s t (.fcvt o) (fmtOf o.src) 0)))))) ∧
  (∀ (o : FintOps) (s : State) (t : Thread), Ready s t (.ftoi o) →
    let r := convToInt (decodeFp (fmtOf o.fmt) (codeAt s t (.ftoi o) (fmtOf o.fmt) 0)) (iBits o.iw) true (RSelMode o.rm t.regs.fpc)
    exec (.ftoi o) s = .next (retired s t (.ftoi o) (fun u => addFlags (writeG u o.rd (BitVec.ofInt 64 r.1)) r.2))) ∧
  (∀ (o : FintOps) (s : State) (t : Thread), Ready s t (.ftoiu o) →
    let r := convToInt (decodeFp (fmtOf o.fmt) (codeAt s t (.ftoiu o) (fmtOf o.fmt) 0)) (iBits o.iw) false (RSelMode o.rm t.regs.fpc)
    exec (.ftoiu o) s = .next (retired s t (.ftoiu o) (fun u => addFlags (writeG u o.rd (BitVec.ofInt 64 r.1)) r.2))) ∧
  (∀ (o : FintOps) (s : State) (t : Thread), Ready s t (.itof o) →
    exec (.itof o) s = .next (retired s t (.itof o) (putCode o.rd
      (roundFP (fmtOf o.fmt) (RSelMode o.rm t.regs.fpc) false (FVal.ofInt (sgn (iBits o.iw) (operand s t (.itof o) 0))))))) ∧
  (∀ (o : FintOps) (s : State) (t : Thread), Ready s t (.iutof o) →
    exec (.iutof o) s = .next (retired s t (.iutof o) (putCode o.rd
      (roundFP (fmtOf o.fmt) (RSelMode o.rm t.regs.fpc) false (FVal.ofInt (uns (iBits o.iw) (operand s t (.iutof o) 0))))))) ∧
  (∀ (o : FnarOps) (s : State) (t : Thread) (f : Fmt), Ready s t (.fton o) → nfFmt t.regs.nf[o.nf] = some f →
    exec (.fton o) s = .next (retired s t (.fton o) (putCode o.rd
      (roundFP f (RSelMode o.rm t.regs.fpc) o.sat (decodeFp fp32 (codeAt s t (.fton o) fp32 0)))))) ∧
  (∀ (o : FnarOps) (s : State) (t : Thread) (f : Fmt), Ready s t (.ntof o) → nfFmt t.regs.nf[o.nf] = some f →
    exec (.ntof o) s = .next (retired s t (.ntof o) (putCode o.rd
      (roundFP fp32 .rne false (decodeFp f (codeAt s t (.ntof o) f 0)))))) ∧
  (∀ (o : FnarOps) (s : State) (t : Thread), Ready s t (.fton o) → nfFmt t.regs.nf[o.nf] = none →
    exec (.fton o) s = .next (trapped s t clsIllegal 3 0 (baseAux s))) ∧
  (∀ (o : FnarOps) (s : State) (t : Thread), Ready s t (.ntof o) → nfFmt t.regs.nf[o.nf] = none →
    exec (.ntof o) s = .next (trapped s t clsIllegal 3 0 (baseAux s)))

/-- R127: any NaN result is the canonical NaN of the format, a signalling operand sets NV, and the invalid operations on infinities give it with NV. -/
def Sys2Proof.Rules.NaNResults : Prop :=
  ∀ ff : FFmt, let f := fmtOf ff
  (∀ (op : FpOp) (rm : Rm) (x y z : Nat), op ∈ [FpOp.add, .sub, .mul] → ((decodeFp f x).isNaN || (decodeFp f y).isNaN) = true →
    fpArith op f rm x y z = (f.canonNaN, { nv := (decodeFp f x).isSNaN || (decodeFp f y).isSNaN })) ∧
  (∀ (op : FpOp) (rm : Rm) (x y z : Nat), op ∈ [FpOp.fma, .fms, .fnma] →
    ((decodeFp f x).isNaN || (decodeFp f y).isNaN || (decodeFp f z).isNaN) = true → (fpArith op f rm x y z).1 = f.canonNaN) ∧
  (∀ (rm : Rm) (z : Nat) (n : Bool), fpArith .add f rm (f.infCode n) (f.infCode (!n)) z = (f.canonNaN, { nv := true })) ∧
  (∀ (rm : Rm) (z : Nat) (n m : Bool), fpArith .mul f rm (f.withSign n 0) (f.infCode m) z = (f.canonNaN, { nv := true })) ∧
  (∀ (rm : Rm) (n m : Bool), fpDiv f rm (f.withSign n 0) (f.withSign m 0) = (f.canonNaN, { nv := true }) ∧
    fpDiv f rm (f.infCode n) (f.infCode m) = (f.canonNaN, { nv := true })) ∧
  (∀ (rm : Rm) (x : Nat), (decodeFp f x).isNaN = false → (decodeFp f x).neg = true → (decodeFp f x).isZero = false →
    fpSqrt f rm x = (f.canonNaN, { nv := true }))

/-- R128: how comparisons, minimum and maximum treat zeros and NaNs. -/
def Obligations.ComparisonSpecials : Prop :=
  ∀ (ff : FFmt) (x y : Nat), let f := fmtOf ff
  let a := decodeFp f x
  let b := decodeFp f y
  ((a.isNaN || b.isNaN) = true → (fpCompare .eq f x y) = (false, { nv := a.isSNaN || b.isSNaN }) ∧
    fpCompare .lt f x y = (false, { nv := true }) ∧ fpCompare .le f x y = (false, { nv := true }) ∧
    fpCompare .un f x y = (true, { nv := a.isSNaN || b.isSNaN })) ∧
  ((a.isZero && b.isZero) = true → fpCompare .eq f x y = (true, {}) ∧ fpCompare .lt f x y = (false, {}) ∧
    fpCompare .le f x y = (true, {})) ∧
  (∀ mx, (a.isNaN && b.isNaN) = true → fpMinMax mx f x y = (f.canonNaN, { nv := a.isSNaN || b.isSNaN })) ∧
  (∀ mx, a.isNaN = true → b.isNaN = false → fpMinMax mx f x y = (y, { nv := a.isSNaN })) ∧
  (∀ mx, a.isNaN = false → b.isNaN = true → fpMinMax mx f x y = (x, { nv := b.isSNaN })) ∧
  ((a.isZero && b.isZero) = true → a.neg = true → b.neg = false → fpMinMax false f x y = (x, {}) ∧ fpMinMax true f x y = (y, {})) ∧
  ((a.isZero && b.isZero) = true → a.neg = false → b.neg = true → fpMinMax false f x y = (y, {}) ∧ fpMinMax true f x y = (x, {}))

/-- R129: a value that the format represents rounds to its own code in every mode and sets no flag. -/
def Sys2Proof.Rules.ExactValuesRoundToThemselves : Prop :=
  ∀ (ff : FFmt) (rm : Rm) (sat : Bool) (b : Nat), b < 2 ^ (fmtOf ff).width → (decodeFp (fmtOf ff) b).isNaN = false →
    roundFP (fmtOf ff) rm sat (decodeFp (fmtOf ff) b) = (b, {})

/-- R130: RoundInt of m / 2^k, with its sign, in each of the four modes. -/
def Sys2Proof.Rules.RoundInt : Prop :=
  ∀ (neg : Bool) (m k : Nat),
  let q := m / 2 ^ k
  let r := m % 2 ^ k
  let sign : Int := if neg then -1 else 1
  (roundInt .rtz (.fin neg m (-(k : Int)) false)).1 = sign * q ∧
  (roundInt .rdn (.fin neg m (-(k : Int)) false)).1 = (sign * m) / 2 ^ k ∧
  (roundInt .rup (.fin neg m (-(k : Int)) false)).1 = -((-(sign * m)) / 2 ^ k) ∧
  (roundInt .rne (.fin neg m (-(k : Int)) false)).1 = sign * (if 2 * r < 2 ^ k then q else if 2 ^ k < 2 * r then q + 1 else q + q % 2 : Nat) ∧
  (∀ rm, (roundInt rm (.fin neg m (-(k : Int)) false)).2 = decide (r ≠ 0))

/-- R131: conversion to an integer of n bits: NaN and infinities, the clamp with NV, NX where inexact. -/
def Obligations.ConversionToIntegers : Prop :=
  ∀ (n : Nat) (signed : Bool) (rm : Rm), 1 ≤ n →
  let lo : Int := if signed then -2 ^ (n - 1) else 0
  let hi : Int := if signed then 2 ^ (n - 1) - 1 else 2 ^ n - 1
  (∀ a b, convToInt (.nan a b) n signed rm = (0, { nv := true })) ∧
  convToInt (.inf false) n signed rm = (hi, { nv := true }) ∧ convToInt (.inf true) n signed rm = (lo, { nv := true }) ∧
  (∀ neg m e, let r := roundInt rm (.fin neg m e false)
    (r.1 < lo → convToInt (.fin neg m e false) n signed rm = (lo, { nv := true })) ∧
    (hi < r.1 → convToInt (.fin neg m e false) n signed rm = (hi, { nv := true })) ∧
    (lo ≤ r.1 → r.1 ≤ hi → convToInt (.fin neg m e false) n signed rm = (r.1, { nx := r.2 })))

/-! ## Predicates (spec/06, R193 to R196) -/

namespace Sys2Proof.Machine

/-- R193: row, and its lane operation. -/
def predRows : List ((PredOps → Instr) × (Word → Word → Word)) := [
  (.pand, fun x y => x &&& y), (.por, fun x y => x ||| y), (.pxor, fun x y => x ^^^ y), (.pandn, fun x y => x &&& ~~~y)]

end Sys2Proof.Machine

/-- R193 to R196: the predicate instructions complete; those that write several predicates change nothing else of the thread. -/
def Obligations.Predicates : Prop :=
  (∀ row ∈ predRows, ∀ (o : PredOps) (s : State) (t : Thread), Ready s t (row.1 o) →
    exec (row.1 o) s = .next (retired s t (row.1 o) (fun u => writeP u o.pd (row.2 (readP t o.x) (readP t o.y))))) ∧
  (∀ (o : PsetOps) (s : State) (t : Thread), Ready s t (.pset o) →
    exec (.pset o) s = .next (retired s t (.pset o) (fun u => writeP u o.pd (BitVec.ofNat 32 o.imm)))) ∧
  (∀ (o : PsetgOps) (s : State) (t : Thread), Ready s t (.psetg o) →
    exec (.psetg o) s = .next (retired s t (.psetg o) (fun u => writeP u o.pd ((operand s t (.psetg o) 0).setWidth 32)))) ∧
  (∀ (o : PgetgOps) (s : State) (t : Thread), Ready s t (.pgetg o) →
    exec (.pgetg o) s = .next (retired s t (.pgetg o) (fun u => writeG u o.rd ((readP t o.x).setWidth 64)))) ∧
  (∀ (o : PgetgOps) (s : State) (t : Thread), Ready s t (.ppopc o) →
    exec (.ppopc o) s = .next (retired s t (.ppopc o) (fun u => writeG u o.rd
      (dw ((List.range 32).filter (fun l => (readP t o.x).getLsbD l)).length)))) ∧
  (∀ (o : PpackOps) (s : State) (t : Thread), Ready s t (.ppack o) →
    ∃ x : Dword, exec (.ppack o) s = .next (retired s t (.ppack o) (fun u => writeG u o.g x)) ∧
      ∀ i : Nat, x.getLsbD i = if h : i < 8 then (readP t ⟨i, h⟩).getLsbD o.lane.val else false) ∧
  (∀ (o : PpackOps) (s : State) (t : Thread), Ready s t (.punpack o) →
    ∃ p, let f := fun u : Thread => { u with regs := { u.regs with p := p } }
      exec (.punpack o) s = .next (retired s t (.punpack o) f) ∧
      ∀ (i : PReg) (l : Nat), l < 32 → i ≠ 0 → (readP (f t) i).getLsbD l =
        if l = o.lane.val then (operand s t (.punpack o) 0).getLsbD i.val else (readP t i).getLsbD l) ∧
  (∀ (o : PsaveOps) (s : State) (t : Thread), Ready s t (.psave o) →
    ∃ x : Vec, exec (.psave o) s = .next (retired s t (.psave o) (fun u => writeV u o.v x)) ∧
      ∀ l < 32, elem 32 x l = if h : 8 * o.k.val ≤ l ∧ l < 8 * o.k.val + 8 then (readP t ⟨l - 8 * o.k.val, by omega⟩).toNat
        else elem 32 (readV s.tick t o.v) l) ∧
  (∀ (o : PsaveOps) (s : State) (t : Thread), Ready s t (.prest o) →
    ∃ p, let f := fun u : Thread => { u with regs := { u.regs with p := p } }
      exec (.prest o) s = .next (retired s t (.prest o) f) ∧
      ∀ i : PReg, i ≠ 0 → (readP (f t) i).toNat = elem 32 (readV s.tick t o.v) (8 * o.k.val + i.val))

/-! ## Vectors (spec/09) -/

namespace Sys2Proof.Machine

/-- Element e of width w takes part: its governing lane of the predicate (R265). -/
def takesPart (t : Thread) (p : Pre) (w e : Nat) : Bool := bitOf (lanesOf t p) (if w = 16 then e / 2 else if w = 8 then e / 4 else e)

/-- The flags of an instruction are those of its n elements that take part (R125, R265). -/
def raised (n : Nat) (on : Nat → Bool) (res : Nat → Nat × Flags) (fl : Flags) : Prop :=
  (fl.nv = true ↔ ∃ e < n, on e = true ∧ (res e).2.nv = true) ∧ (fl.dz = true ↔ ∃ e < n, on e = true ∧ (res e).2.dz = true) ∧
  (fl.of = true ↔ ∃ e < n, on e = true ∧ (res e).2.of = true) ∧ (fl.uf = true ↔ ∃ e < n, on e = true ∧ (res e).2.uf = true) ∧
  (fl.nx = true ↔ ∃ e < n, on e = true ∧ (res e).2.nx = true)

/-- The instruction completes: elements of vd of width w that `on` picks get their results, the others keep their values, and the flags of the
results join sr.fpc. -/
def elementwise (s : State) (t : Thread) (i : Instr) (vd : VReg) (w : Nat) (on : Nat → Bool) (res : Nat → Nat × Flags) : Prop :=
  ∃ (x : Vec) (fl : Flags), exec i s = .next (retired s t i (fun u => addFlags (writeV u vd x) fl)) ∧
    (∀ e < 1024 / w, elem w x e = if on e then (res e).1 % 2 ^ w else elem w (readV s.tick t vd) e) ∧ raised (1024 / w) on res fl

/-- The same for results of variable latency, which hold their unit: the elements that take part are outstanding (R147, R268, R269). -/
def elementwiseLater (s : State) (t : Thread) (i : Instr) (unit : LatUnit) (vd : VReg) (w : Nat) (on : Nat → Bool) (res : Nat → Nat × Flags) : Prop :=
  ∃ fl : Flags, exec i s = .next (retired s t i (fun u => onUnit unit (pushOut (keepV s.tick u (.v vd)) (.v vd)
      (.vec (((List.range (1024 / w)).filter on).map (fun e => (w * e, w, (res e).1 % 2 ^ w)))) fl true))) ∧ raised (1024 / w) on res fl

/-- The same for results without flags. -/
def elementwise0 (s : State) (t : Thread) (i : Instr) (vd : VReg) (w : Nat) (on : Nat → Bool) (res : Nat → Nat) : Prop :=
  ∃ x : Vec, exec i s = .next (retired s t i (fun u => writeV u vd x)) ∧
    ∀ e < 1024 / w, elem w x e = if on e then res e % 2 ^ w else elem w (readV s.tick t vd) e

/-- Element e of a second source: of its vector register, or the broadcast general register (R267). -/
def ySource (s : State) (t : Thread) (i : Instr) (w : Nat) (e : Nat) : VSrc → Nat
  | .v r => elem w (readV s.tick t r) e
  | .g _ => (operand s t i 0).toNat % 2 ^ w

/-- A shift's amount: the whole element, or the whole general register (R267, R277). -/
def yAmount (s : State) (t : Thread) (i : Instr) (w : Nat) (e : Nat) : VSrc → Nat
  | .v r => elem w (readV s.tick t r) e
  | .g _ => (operand s t i 0).toNat

/-- An element as two's complement. -/
def sel (w x : Nat) : Int := (BitVec.ofNat w x).toInt

/-- R270, R271: row, and its operation. -/
def vfpRows : List ((VFpOps → Instr) × FpOp) := [
  (.vadd, .add), (.vmul, .mul), (.vfma, .fma), (.vaddRounded, .add), (.vsub, .sub), (.vmulRounded, .mul), (.vfmaRounded, .fma),
  (.vfms, .fms), (.vfnma, .fnma)]

/-- R268, R272, R283: row, its unit, and its function. -/
def vfpSlowRows : List ((VFp1ROps → Instr) × LatUnit × (Fmt → Rm → Nat → Nat × Flags)) := [
  (.vsqrt, .vectorDivide, fpSqrt), (.vexp2, .transcendental, fpTrans .exp2), (.vlog2, .transcendental, fpTrans .log2),
  (.vrcp, .transcendental, fpTrans .rcp), (.vrsqrt, .transcendental, fpTrans .rsqrt), (.vsinpi, .transcendental, fpTrans .sinpi),
  (.vcospi, .transcendental, fpTrans .cospi)]

def vfpMinRows : List ((VFp2Ops → Instr) × Bool) := [(.vfmin, false), (.vfmax, true)]

def vfpSignRows : List ((VFp1Ops → Instr) × (Fmt → Nat → Nat)) := [
  (.vfabs, fun f x => x % 2 ^ (f.width - 1)),
  (.vfneg, fun f x => if x < 2 ^ (f.width - 1) then x + 2 ^ (f.width - 1) else x - 2 ^ (f.width - 1))]

/-- R274: the element whose compare lane l receives, where it receives one. -/
def comparedElement (w sel l : Nat) : Nat := if w = 16 then 2 * l + sel else if w = 8 then 4 * l + sel else l

/-- R274: a compare completes: the active lanes of its predicate hold the compares of their elements. -/
def comparesLanes (s : State) (t : Thread) (i : Instr) (p : Pre) (pd : PReg) (w sl : Nat) (res : Nat → Bool × Flags) : Prop :=
  ∃ (x : Word) (fl : Flags), exec i s = .next (retired s t i (fun u => addFlags (writeP u pd x) fl)) ∧
    (∀ l < 32, x.getLsbD l = if l < (if w = 64 then 16 else 32) ∧ bitOf (lanesOf t p) l = true then (res (comparedElement w sl l)).1
      else (readP t pd).getLsbD l) ∧
    raised (if w = 64 then 16 else 32) (fun l => bitOf (lanesOf t p) l) (fun l => (0, (res (comparedElement w sl l)).2)) fl

def vfpCompareRows : List ((VFcmpOps → Instr) × FCmp) := [(.vfceq, .eq), (.vfclt, .lt), (.vfcle, .le), (.vfcun, .un)]

def vintCompareRows : List ((VIcmpOps → Instr) × (Nat → Nat → Nat → Bool)) := [
  (.vceq, fun _ x y => decide (x = y)), (.vclt, fun w x y => decide (sel w x < sel w y)), (.vcltu, fun _ x y => decide (x < y))]

/-- R275, R277: row, and res for elements x and y and a shift amount. -/
def vintRows : List ((VIntOps → Instr) × (Nat → Nat → Nat → Nat → Int)) := [
  (.viadd, fun _ x y _ => (x : Int) + y), (.visub, fun _ x y _ => (x : Int) - y), (.vimul, fun _ x y _ => (x : Int) * y),
  (.vimin, fun w x y _ => min (sel w x) (sel w y)), (.vimax, fun w x y _ => max (sel w x) (sel w y)),
  (.viminu, fun _ x y _ => min (x : Int) y), (.vimaxu, fun _ x y _ => max (x : Int) y),
  (.vand, fun w x y _ => (BitVec.ofNat w x &&& BitVec.ofNat w y).toNat), (.vor, fun w x y _ => (BitVec.ofNat w x ||| BitVec.ofNat w y).toNat),
  (.vxor, fun w x y _ => (BitVec.ofNat w x ^^^ BitVec.ofNat w y).toNat), (.vandn, fun w x y _ => (BitVec.ofNat w x &&& ~~~BitVec.ofNat w y).toNat),
  (.vshl, fun w x _ a => if a < w then ((x * 2 ^ a : Nat) : Int) else 0), (.vshr, fun w x _ a => if a < w then ((x / 2 ^ a : Nat) : Int) else 0),
  (.vsar, fun w x _ a => if a < w then sel w x / 2 ^ a else if sel w x < 0 then -1 else 0)]

/-- R276: the saturating rows. -/
def vsatRows : List ((VVVOps → Instr) × (Nat → Nat → Nat → Int)) := [
  (.viaddsat, fun w x y => max (-2 ^ (w - 1)) (min (2 ^ (w - 1) - 1) (sel w x + sel w y))),
  (.visubsat, fun w x y => max (-2 ^ (w - 1)) (min (2 ^ (w - 1) - 1) (sel w x - sel w y))),
  (.viaddsatu, fun w x y => min (2 ^ w - 1) ((x : Int) + y)), (.visubsatu, fun _ x y => max 0 ((x : Int) - y))]

/-- R276: narrowing from width 2w to width w. -/
def vnarrowRows : List ((VNarOps → Instr) × (Nat → Nat → Int)) := [
  (.vinarrow, fun w x => max (-2 ^ (w - 1)) (min (2 ^ (w - 1) - 1) (sel (2 * w) x))),
  (.vinarrowu, fun w x => min (2 ^ w - 1) (x : Int)), (.vinarrowsu, fun w x => max 0 (min (2 ^ w - 1) (sel (2 * w) x)))]

/-- R276: widening from width w/2 to width w. -/
def vwidenRows : List ((VNarOps → Instr) × (Nat → Nat → Int)) := [(.viwiden, fun w x => sel (w / 2) x), (.viwidenu, fun _ x => (x : Int))]

/-- R277, R278: one vector operand. -/
def vunaryRows : List ((VUnOps → Instr) × (Nat → Nat → Nat)) := [
  (.vpopc, fun w x => ((List.range w).filter (fun b => x.testBit b)).length),
  (.vclz, fun w x => ((List.range w).map (fun b => x.testBit b)).reverse.takeWhile (fun b => !b) |>.length),
  (.vmov, fun _ x => x)]

/-- Element i of a value, from an integer: its value modulo 2^w. -/
def wrapped (w : Nat) (r : Int) : Nat := (r % 2 ^ w).toNat

/-- The format's rounding mode of an instruction. -/
def modeOf (t : Thread) (r : RSel) : Rm := RSelMode r t.regs.fpc

end Sys2Proof.Machine

/-- R270 to R273, R283 with R265: the floating-point vector instructions complete element by element. -/
def Obligations.VectorFloat : Prop :=
  (∀ row ∈ vfpRows, ∀ (o : VFpOps) (s : State) (t : Thread), Ready s t (row.1 o) →
    let f := fmtOf o.fmt
    elementwise s t (row.1 o) o.vd f.width (takesPart t o.pre f.width) (fun e => fpArith row.2 f (modeOf t o.rm)
      (elem f.width (readV s.tick t o.x) e) (ySource s t (row.1 o) f.width e o.y) (elem f.width (readV s.tick t o.vd) e))) ∧
  (∀ (o : VFpOps) (s : State) (t : Thread), Ready s t (.vdiv o) →
    let f := fmtOf o.fmt
    elementwiseLater s t (.vdiv o) .vectorDivide o.vd f.width (takesPart t o.pre f.width) (fun e => fpDiv f (modeOf t o.rm)
      (elem f.width (readV s.tick t o.x) e) (ySource s t (.vdiv o) f.width e o.y))) ∧
  (∀ row ∈ vfpSlowRows, ∀ (o : VFp1ROps) (s : State) (t : Thread), Ready s t (row.1 o) →
    let f := fmtOf o.fmt
    elementwiseLater s t (row.1 o) row.2.1 o.vd f.width (takesPart t o.pre f.width) (fun e => row.2.2 f (modeOf t o.rm) (elem f.width (readV s.tick t o.x) e))) ∧
  (∀ row ∈ vfpMinRows, ∀ (o : VFp2Ops) (s : State) (t : Thread), Ready s t (row.1 o) →
    let f := fmtOf o.fmt
    elementwise s t (row.1 o) o.vd f.width (takesPart t o.pre f.width) (fun e => fpMinMax row.2 f
      (elem f.width (readV s.tick t o.x) e) (elem f.width (readV s.tick t o.y) e))) ∧
  (∀ row ∈ vfpSignRows, ∀ (o : VFp1Ops) (s : State) (t : Thread), Ready s t (row.1 o) →
    let f := fmtOf o.fmt
    elementwise s t (row.1 o) o.vd f.width (takesPart t o.pre f.width) (fun e => (row.2 f (elem f.width (readV s.tick t o.x) e), {})))

/-- R274: the vector compares complete; each active lane of the predicate holds the compare of its element. -/
def Sys2Proof.Rules.VectorCompare : Prop :=
  (∀ row ∈ vfpCompareRows, ∀ (o : VFcmpOps) (s : State) (t : Thread), Ready s t (row.1 o) →
    let f := fmtOf o.fmt
    comparesLanes s t (row.1 o) o.pre o.pd f.width o.sel (fun e => fpCompare row.2 f (elem f.width (readV s.tick t o.x) e)
      (ySource s t (row.1 o) f.width e o.y))) ∧
  (∀ row ∈ vintCompareRows, ∀ (o : VIcmpOps) (s : State) (t : Thread), Ready s t (row.1 o) →
    let w := iBits o.iw
    comparesLanes s t (row.1 o) o.pre o.pd w o.sel (fun e => (row.2 w (elem w (readV s.tick t o.x) e) (ySource s t (row.1 o) w e o.y), {})))

/-- R275 to R277: integer arithmetic, logic, shifts, saturating forms, width changes and counts complete element by element. -/
def Sys2Proof.Rules.VectorInteger : Prop :=
  (∀ row ∈ vintRows, ∀ (o : VIntOps) (s : State) (t : Thread), Ready s t (row.1 o) →
    let w := iBits o.iw
    elementwise0 s t (row.1 o) o.vd w (takesPart t o.pre w) (fun e => wrapped w (row.2 w (elem w (readV s.tick t o.x) e)
      (ySource s t (row.1 o) w e o.y) (yAmount s t (row.1 o) w e o.y)))) ∧
  (∀ row ∈ vsatRows, ∀ (o : VVVOps) (s : State) (t : Thread), Ready s t (row.1 o) →
    let w := iBits o.iw
    elementwise0 s t (row.1 o) o.vd w (takesPart t o.pre w) (fun e => wrapped w (row.2 w (elem w (readV s.tick t o.x) e)
      (elem w (readV s.tick t o.y) e)))) ∧
  (∀ row ∈ vnarrowRows, ∀ (o : VNarOps) (s : State) (t : Thread), Ready s t (row.1 o) → o.iw ≠ .i64 →
    let w := iBits o.iw
    let first := if o.q then 1024 / (2 * w) else 0
    elementwise0 s t (row.1 o) o.vd w (fun e => decide (first ≤ e ∧ e < first + 1024 / (2 * w)) && takesPart t o.pre (2 * w) (e - first))
      (fun e => wrapped w (row.2 w (elem (2 * w) (readV s.tick t o.x) (e - first))))) ∧
  (∀ row ∈ vwidenRows, ∀ (o : VNarOps) (s : State) (t : Thread), Ready s t (row.1 o) → o.iw ≠ .i8 →
    let w := iBits o.iw
    elementwise0 s t (row.1 o) o.vd w (takesPart t o.pre w)
      (fun e => wrapped w (row.2 w (elem (w / 2) (readV s.tick t o.x) ((if o.q then 1024 / w else 0) + e))))) ∧
  (∀ row ∈ vunaryRows, ∀ (o : VUnOps) (s : State) (t : Thread), Ready s t (row.1 o) →
    let w := iBits o.iw
    elementwise0 s t (row.1 o) o.vd w (takesPart t o.pre w) (fun e => row.2 w (elem w (readV s.tick t o.x) e)))

/-- R278, R284 to R288: moves between elements and registers, shuffles, patterns, rotations, votes and matches complete. -/
def Obligations.VectorMovesAndGroups : Prop :=
  (∀ (o : VselOps) (s : State) (t : Thread), Ready s t (.vsel o) →
    let w := iBits o.iw
    elementwise0 s t (.vsel o) o.vd w (takesPart t o.pre w) (fun e =>
      if takesPart t { sw := false, neg := false, pn := o.k } w e then elem w (readV s.tick t o.x) e else elem w (readV s.tick t o.y) e)) ∧
  (∀ (o : VbcastOps) (s : State) (t : Thread), Ready s t (.vbcast o) →
    let w := iBits o.iw
    elementwise0 s t (.vbcast o) o.vd w (takesPart t o.pre w) (fun _ => (operand s t (.vbcast o) 0).toNat)) ∧
  (∀ (o : VextOps) (s : State) (t : Thread), Ready s t (.vext o) →
    exec (.vext o) s = .next (retired s t (.vext o) (fun u => writeG u o.rd (dw (elem (iBits o.iw) (readV s.tick t o.x) o.i))))) ∧
  (∀ (o : VinsOps) (s : State) (t : Thread), Ready s t (.vins o) →
    elementwise0 s t (.vins o) o.vd (iBits o.iw) (fun e => decide (e = o.i)) (fun _ => (operand s t (.vins o) 0).toNat)) ∧
  (∀ (o : VVVOps) (s : State) (t : Thread), Ready s t (.vshuf o) →
    let w := iBits o.iw
    elementwise0 s t (.vshuf o) o.vd w (takesPart t o.pre w) (fun e =>
      if elem w (readV s.tick t o.y) e < 1024 / w then elem w (readV s.tick t o.x) (elem w (readV s.tick t o.y) e) else 0)) ∧
  (∀ (o : VpermOps) (s : State) (t : Thread), Ready s t (.vperm o) →
    let w := iBits o.iw
    let n := 1024 / w
    elementwise0 s t (.vperm o) o.vd w (takesPart t o.pre w) (fun e => elem w (readV s.tick t o.x)
      (if o.mode = 0 then Nat.xor e o.k else if o.mode = 1 then o.k else if o.mode = 2 then e % 2 * (n / 2) + e / 2
        else 2 * (e % (n / 2)) + e / (n / 2)))) ∧
  (∀ (o : VrotOps) (s : State) (t : Thread), Ready s t (.vrot o) →
    let w := iBits o.iw
    let k := (sourceAt s t (.vrot o) 0 o.y).toNat
    elementwise0 s t (.vrot o) o.vd w (takesPart t o.pre w) (fun e => elem w (readV s.tick t o.x)
      (e / 2 ^ o.gs * 2 ^ o.gs + (e % 2 ^ o.gs + k) % 2 ^ o.gs))) ∧
  (∀ (o : VvoteOps) (s : State) (t : Thread) (all : Bool), let i := if all then Instr.vvoteAll o else Instr.vvoteAny o
    Ready s t i → ∃ x : Word, exec i s = .next (retired s t i (fun u => writeP u o.pd x)) ∧
      ∀ l < 32, x.getLsbD l = if bitOf (lanesOf t o.pre) l then
          (let members := (List.range (2 ^ o.gs)).map (fun k => l / 2 ^ o.gs * 2 ^ o.gs + k)
           let voters := members.filter (fun m => bitOf (lanesOf t o.pre) m)
           if all then voters.all (fun m => bitOf (readP t o.x) m) else voters.any (fun m => bitOf (readP t o.x) m))
        else (readP t o.pd).getLsbD l) ∧
  (∀ (o : VballotOps) (s : State) (t : Thread), Ready s t (.vvoteBallot o) →
    exec (.vvoteBallot o) s = .next (retired s t (.vvoteBallot o) (fun u => writeG u o.rd ((readP t o.x &&& lanesOf t o.pre).setWidth 64)))) ∧
  (∀ (o : VUnOps) (s : State) (t : Thread), Ready s t (.vmatch o) →
    let w := iBits o.iw
    elementwise0 s t (.vmatch o) o.vd w (takesPart t o.pre w) (fun e => (((List.range (1024 / w)).filter (fun j =>
      takesPart t o.pre w j && decide (elem w (readV s.tick t o.x) j = elem w (readV s.tick t o.x) e))).map (fun j => 2 ^ j)).sum))

/-- R279 to R282: the vector conversions and the instructions for MX blocks complete; a group beyond the format's last traps (R281).
It rests on the model's choices of log entry 17 (the CAUSE 3 of its illegal-instruction traps). -/
def Obligations.VectorConversions : Prop :=
  (∀ (o : VFcvtOps) (s : State) (t : Thread), Ready s t (.vfcvt o) → (fmtOf o.dst).width ≤ (fmtOf o.src).width →
    let a := fmtOf o.src
    let b := fmtOf o.dst
    let first := o.q.val * (1024 / a.width)
    elementwise s t (.vfcvt o) o.vd b.width (fun e => decide (first ≤ e ∧ e < first + 1024 / a.width) && takesPart t o.pre a.width (e - first))
      (fun e => roundFP b (modeOf t o.rm) false (decodeFp a (elem a.width (readV s.tick t o.x) (e - first))))) ∧
  (∀ (o : VFcvtOps) (s : State) (t : Thread), Ready s t (.vfcvt o) → (fmtOf o.src).width < (fmtOf o.dst).width →
    let a := fmtOf o.src
    let b := fmtOf o.dst
    elementwise s t (.vfcvt o) o.vd b.width (takesPart t o.pre b.width)
      (fun e => roundFP b (modeOf t o.rm) false (decodeFp a (elem a.width (readV s.tick t o.x) (o.q.val * (1024 / b.width) + e))))) ∧
  (∀ (o : VFintOps) (s : State) (t : Thread) (signed : Bool), let i := if signed then Instr.vftoi o else Instr.vftoiu o
    Ready s t i → let f := fmtOf o.fmt
    elementwise s t i o.vd f.width (takesPart t o.pre f.width) (fun e =>
      let r := convToInt (decodeFp f (elem f.width (readV s.tick t o.x) e)) f.width signed (modeOf t o.rm)
      (wrapped f.width r.1, r.2))) ∧
  (∀ (o : VFintOps) (s : State) (t : Thread) (signed : Bool), let i := if signed then Instr.vitof o else Instr.viutof o
    Ready s t i → let f := fmtOf o.fmt
    elementwise s t i o.vd f.width (takesPart t o.pre f.width) (fun e =>
      let x := elem f.width (readV s.tick t o.x) e
      roundFP f (modeOf t o.rm) false (FVal.ofInt (if signed then sel f.width x else (x : Int))))) ∧
  (∀ (o : VFnarOps) (s : State) (t : Thread) (f : Fmt), Ready s t (.vfton o) → nfFmt t.regs.nf[o.nf] = some f →
    o.q.val ≤ groupMax f.width → ∃ (x : Vec) (fl : Flags),
    exec (.vfton o) s = .next (retired s t (.vfton o) (fun u => addFlags (writeV u o.vd x) fl)) ∧
      (∀ j < 32, x.toNat / 2 ^ (f.width * (32 * o.q.val + j)) % 2 ^ f.width = if bitOf (lanesOf t o.pre) j then
          (roundFP f (modeOf t o.rm) o.sat (decodeFp fp32 (elem 32 (readV s.tick t o.x) j))).1 % 2 ^ f.width
        else (readV s.tick t o.vd).toNat / 2 ^ (f.width * (32 * o.q.val + j)) % 2 ^ f.width) ∧
      (∀ b < 1024, (b < 32 * f.width * o.q.val ∨ 32 * f.width * (o.q.val + 1) ≤ b) → x.getLsbD b = (readV s.tick t o.vd).getLsbD b) ∧
      raised 32 (fun j => bitOf (lanesOf t o.pre) j)
        (fun j => roundFP f (modeOf t o.rm) o.sat (decodeFp fp32 (elem 32 (readV s.tick t o.x) j))) fl) ∧
  (∀ (o : VFnarOps) (s : State) (t : Thread) (f : Fmt), Ready s t (.vntof o) → nfFmt t.regs.nf[o.nf] = some f →
    o.q.val ≤ groupMax f.width →
    elementwise s t (.vntof o) o.vd 32 (takesPart t o.pre 32) (fun j => roundFP fp32 .rne false
      (decodeFp f ((readV s.tick t o.x).toNat / 2 ^ (f.width * (32 * o.q.val + j)) % 2 ^ f.width)))) ∧
  (∀ (o : VFnarOps) (s : State) (t : Thread) (f : Fmt) (narrow : Bool), let i := if narrow then Instr.vfton o else Instr.vntof o
    Ready s t i → nfFmt t.regs.nf[o.nf] = some f → groupMax f.width < o.q.val → exec i s = .next (trapped s t clsIllegal 3 0 (baseAux s))) ∧
  (∀ (o : VmxscOps) (s : State) (t : Thread) (f : Fmt), Ready s t (.vmxsc o) → nfFmt t.regs.nf[o.nf] = some f →
    let r := mxScale f (((List.range 32).filter (fun l => bitOf (lanesOf t o.pre) l)).map (fun l => decodeFp fp32 (elem 32 (readV s.tick t o.x) l)))
    exec (.vmxsc o) s = .next (retired s t (.vmxsc o) (fun u => addFlags (writeG u o.rd (dw r.1)) r.2))) ∧
  (∀ (o : VmxOps) (s : State) (t : Thread) (f : Fmt), Ready s t (.vmxpk o) → nfFmt t.regs.nf[o.nf] = some f →
    o.q.val ≤ groupMax f.width → ∃ (x : Vec) (fl : Flags),
    exec (.vmxpk o) s = .next (retired s t (.vmxpk o) (fun u => addFlags (writeV u o.vd x) fl)) ∧
      (∀ j < 32, x.toNat / 2 ^ (f.width * (32 * o.q.val + j)) % 2 ^ f.width = if bitOf (lanesOf t o.pre) j then
          (let sc := (operand s t (.vmxpk o) 0).toNat % 256
           if sc = 255 then 0 else (roundFP f (modeOf t o.rm) true
             ((decodeFp fp32 (elem 32 (readV s.tick t o.x) j)).scale (127 - sc))).1 % 2 ^ f.width)
        else (readV s.tick t o.vd).toNat / 2 ^ (f.width * (32 * o.q.val + j)) % 2 ^ f.width) ∧
      (∀ b < 1024, (b < 32 * f.width * o.q.val ∨ 32 * f.width * (o.q.val + 1) ≤ b) → x.getLsbD b = (readV s.tick t o.vd).getLsbD b) ∧
      raised 32 (fun j => bitOf (lanesOf t o.pre) j)
        (fun j => let sc := (operand s t (.vmxpk o) 0).toNat % 256
          if sc = 255 then (0, {}) else roundFP f (modeOf t o.rm) true ((decodeFp fp32 (elem 32 (readV s.tick t o.x) j)).scale (127 - sc))) fl) ∧
  (∀ (o : VmxOps) (s : State) (t : Thread) (f : Fmt), Ready s t (.vmxunpk o) → nfFmt t.regs.nf[o.nf] = some f →
    o.q.val ≤ groupMax f.width →
    let sc := (operand s t (.vmxunpk o) 0).toNat % 256
    elementwise s t (.vmxunpk o) o.vd 32 (takesPart t o.pre 32) (fun j => if sc = 255 then (fp32.canonNaN, {}) else
      roundFP fp32 (modeOf t o.rm) false ((decodeFp f ((readV s.tick t o.x).toNat / 2 ^ (f.width * (32 * o.q.val + j)) % 2 ^ f.width)).scale
        ((sc : Int) - 127))))

/-! ## Reductions and scans (R136, R137, R289, R290) -/

namespace Sys2Proof.Machine

/-- Two sums as one, none where neither has a position that is active, with the flags of all that was added (R125, R136). -/
def joined (comb : Nat → Nat → Nat × Flags) : Option Nat × Flags → Option Nat × Flags → Option Nat × Flags
  | (some a, f), (some b, g) => (some (comb a b).1, (f.or g).or (comb a b).2)
  | (some a, f), (none, g) => (some a, f.or g)
  | (none, f), (b, g) => (b, f.or g)

/-- TreeSum of R136 over the 2^k positions from p, none where no position is active, with its flags. -/
def treeSum (comb : Nat → Nat → Nat × Flags) (x : Nat → Option Nat) : Nat → Nat → Option Nat × Flags
  | 0, p => (x p, {})
  | k + 1, p => joined comb (treeSum comb x k p) (treeSum comb x k (p + 2 ^ k))

/-- The scan of R137 over the positions from p, given what the blocks before have summed to. -/
def blockSums (comb : Nat → Nat → Nat × Flags) (x : Nat → Option Nat) : List Nat → Nat → Option Nat × Flags → Option Nat × Flags
  | [], _, acc => acc
  | k :: ks, p, acc => blockSums comb x ks (p + 2 ^ k) (joined comb acc (treeSum comb x k p))

/-- The exponents of the powers of two that sum to n, largest first. -/
def powersOf (n : Nat) : List Nat := ((List.range 8).filter (fun k => n.testBit k)).reverse

/-- R289: floating reductions. -/
noncomputable def vfredRows : List ((VFredOps → Instr) × FRed) := [(.vredAdd, .add), (.vredMin, .min), (.vredMax, .max)]

/-- R290: floating scans, with the identity of the exclusive form. -/
noncomputable def vfscanRows : List ((VFscanOps → Instr) × FRed × (Fmt → Nat)) := [
  (.vscanAdd, .add, fun _ => 0), (.vscanMin, .min, fun f => f.infCode false), (.vscanMax, .max, fun f => f.infCode true)]

/-- R289: integer reductions, as the combination of the group's active elements. -/
noncomputable def viredRows : List ((VIredOps → Instr) × (Nat → List Nat → Nat)) := [
  (.vredIadd, fun w l => l.sum % 2 ^ w), (.vredImin, fun w l => wrapped w ((l.map (sel w)).foldl min (2 ^ (w - 1) - 1))),
  (.vredImax, fun w l => wrapped w ((l.map (sel w)).foldl max (-2 ^ (w - 1)))), (.vredIminu, fun w l => l.foldl min (2 ^ w - 1)),
  (.vredImaxu, fun _ l => l.foldl max 0), (.vredAnd, fun w l => l.foldl Nat.land (2 ^ w - 1)), (.vredOr, fun _ l => l.foldl Nat.lor 0),
  (.vredXor, fun _ l => l.foldl Nat.xor 0)]

/-- R290: integer scans; without elements the fold gives the identity. -/
noncomputable def viscanRows : List ((VIscanOps → Instr) × (Nat → List Nat → Nat)) := [
  (.vscanIadd, fun w l => l.sum % 2 ^ w), (.vscanImin, fun w l => wrapped w ((l.map (sel w)).foldl min (2 ^ (w - 1) - 1))),
  (.vscanImax, fun w l => wrapped w ((l.map (sel w)).foldl max (-2 ^ (w - 1)))), (.vscanIminu, fun w l => l.foldl min (2 ^ w - 1)),
  (.vscanImaxu, fun _ l => l.foldl max 0)]

/-- An element, none where it takes no part. -/
def activeElem (s : State) (t : Thread) (p : Pre) (w : Nat) (r : VReg) (e : Nat) : Option Nat :=
  if takesPart t p w e then some (elem w (readV s.tick t r) e) else none

/-- The active elements among positions a to b − 1. -/
def activeElems (s : State) (t : Thread) (p : Pre) (w : Nat) (r : VReg) (a b : Nat) : List Nat :=
  (List.range (b - a)).filterMap (fun k => activeElem s t p w r (a + k))

end Sys2Proof.Machine

/-- R136, R137, R289, R290: reductions give every active element the combination of its group's active elements, floating ones by the pairwise tree;
scans give it that of the positions up to its own, or before it in the exclusive form, floating ones by blocks. -/
def Obligations.ReductionsAndScans : Prop :=
  (∀ row ∈ viredRows, ∀ (o : VIredOps) (s : State) (t : Thread), Ready s t (row.1 o) → 1 ≤ o.gs → 2 ^ o.gs ≤ 1024 / iBits o.iw →
    let w := iBits o.iw
    elementwise0 s t (row.1 o) o.vd w (takesPart t o.pre w) (fun e =>
      let g := e / 2 ^ o.gs * 2 ^ o.gs
      row.2 w (activeElems s t o.pre w o.x g (g + 2 ^ o.gs)))) ∧
  (∀ row ∈ viscanRows, ∀ (o : VIscanOps) (s : State) (t : Thread), Ready s t (row.1 o) → 1 ≤ o.gs → 2 ^ o.gs ≤ 1024 / iBits o.iw →
    let w := iBits o.iw
    elementwise0 s t (row.1 o) o.vd w (takesPart t o.pre w) (fun e =>
      let g := e / 2 ^ o.gs * 2 ^ o.gs
      row.2 w (activeElems s t o.pre w o.x g (if o.ex then e else e + 1)))) ∧
  (∀ row ∈ vfredRows, ∀ (o : VFredOps) (s : State) (t : Thread), Ready s t (row.1 o) → 1 ≤ o.gs → 2 ^ o.gs ≤ 1024 / (fmtOf o.fmt).width →
    let f := fmtOf o.fmt
    elementwise s t (row.1 o) o.vd f.width (takesPart t o.pre f.width) (fun e =>
      let r := treeSum (fredComb row.2 f (modeOf t o.rm)) (activeElem s t o.pre f.width o.x) o.gs (e / 2 ^ o.gs * 2 ^ o.gs)
      (r.1.getD 0, r.2))) ∧
  (∀ row ∈ vfscanRows, ∀ (o : VFscanOps) (s : State) (t : Thread), Ready s t (row.1 o) → 1 ≤ o.gs → 2 ^ o.gs ≤ 1024 / (fmtOf o.fmt).width →
    let f := fmtOf o.fmt
    elementwise s t (row.1 o) o.vd f.width (takesPart t o.pre f.width) (fun e =>
      let g := e / 2 ^ o.gs * 2 ^ o.gs
      let r := blockSums (fredComb row.2.1 f (modeOf t o.rm)) (activeElem s t o.pre f.width o.x)
        (powersOf (if o.ex then e - g else e - g + 1)) g (none, {})
      (r.1.getD (row.2.2 f), r.2)))

/-! ## Control (spec/06, R197 to R209) -/

namespace Sys2Proof.Machine

/-- R198, R199: row, and its test of the lanes. -/
def branchRows : List ((BrOps → Instr) × (Word → Bool)) := [
  (.br, fun p => p.getLsbD 0), (.bany, fun p => decide (p ≠ 0)), (.ball, fun p => decide (p = 0xFFFFFFFF#32))]

/-- R197: an address that a transfer may go to: even, and within instruction memory. -/
def inImem (x : Int) : Prop := 0 ≤ x ∧ x ≤ 0x1FFFE ∧ x % 2 = 0

/-- R203: a target lies in its segment. -/
def fitsSegment (k : Core) (seg target : Nat) : Prop :=
  (segBounds k seg).1 ≤ target ∧ target + 2 ≤ (segBounds k seg).1 + (segBounds k seg).2

/-- A segment can be run: it is resident, or it is the one segment of a fault processor (R203, R356). -/
def segmentHere (s : State) (seg : Nat) : Bool :=
  isResident (getCore s s.cur.core) seg || (decide (8192 ≤ s.cur.core.n) && decide (seg = 0))

/-- Instructions for which only a trap is raised (R206, R209): row, class, CAUSE. -/
def trapRows : List ((CodeOps → Instr) × Nat) := [(.trap, clsTrap), (.brk, clsBrk)]

/-- An access without ordering (R213). -/
def plainOs : OrdSc := OrdSc.plain

end Sys2Proof.Machine

/-- R197 to R201: branches, calls and jumps complete: the next instruction, or the target where the test holds; a target outside instruction memory or
odd is an illegal-instruction trap. -/
def Sys2Proof.Rules.ControlTransfers : Prop :=
  (∀ row ∈ branchRows, ∀ (o : BrOps) (s : State) (t : Thread), Ready s t (row.1 o) →
    let p := if o.neg then ~~~(readP t o.pn) else readP t o.pn
    let target := (t.pc : Int) + 2 * o.off
    (row.2 p = false → exec (row.1 o) s = .next (ended s t (row.1 o) s)) ∧
    (row.2 p = true → inImem target → exec (row.1 o) s = .next (jumped s t (row.1 o) id target.toNat t.seg)) ∧
    (row.2 p = true → ¬ inImem target → exec (row.1 o) s = .next (trapped s t clsIllegal 3 0 (baseAux s)))) ∧
  (∀ (o : CallOps) (s : State) (t : Thread), Ready s t (.call o) →
    let target := (t.pc : Int) + 2 * o.off
    (inImem target → exec (.call o) s = .next (jumped s t (.call o) (fun u => writeG u o.link (dw (nextPc s t))) target.toNat t.seg)) ∧
    (¬ inImem target → exec (.call o) s = .next (trapped s t clsIllegal 3 0 (baseAux s)))) ∧
  (∀ (o : JmpOps) (s : State) (t : Thread), Ready s t (.jmp o) → ¬ (o.link = 0 ∧ o.tgt = 1 ∧ operand s t (.jmp o) 0 = 0) →
    let target := (operand s t (.jmp o) 0).toNat
    (inImem target → exec (.jmp o) s = .next (jumped s t (.jmp o) (fun u => writeG u o.link (dw (nextPc s t))) target t.seg)) ∧
    (¬ inImem target → exec (.jmp o) s = .next (trapped s t clsIllegal 3 0 (baseAux s))))

/-- R203, R207: `jov` and `tret` complete where the segment is resident and holds the target; `tret` leaves the handler. A segment that is neither
resident nor pending is an access fault with CAUSE 10, unless it is segment 0; a pending one is waited for, and so is segment 0. -/
def Sys2Proof.Rules.SegmentTransfers : Prop :=
  (∀ (o : JovOps) (s : State) (t : Thread), Ready s t (.jov o) →
    let seg := (operand s t (.jov o) 0).toNat
    (2 ^ 16 ≤ seg → exec (.jov o) s = .next (trapped s t clsIllegal 3 0 (baseAux s))) ∧
    (seg < 2 ^ 16 → segmentHere s seg = true → inImem o.target → fitsSegment (getCore s s.cur.core) seg o.target →
      exec (.jov o) s = .next (jumped s t (.jov o) id o.target seg)) ∧
    (seg < 2 ^ 16 → segmentHere s seg = true →
      ¬ (inImem o.target ∧ fitsSegment (getCore s s.cur.core) seg o.target) → exec (.jov o) s = .next (trapped s t clsIllegal 3 0 (baseAux s))) ∧
    (seg < 2 ^ 16 → segmentHere s seg = false → (seg = 0 ∨ isPending (getCore s s.cur.core) seg = true) →
      exec (.jov o) s = .next (heldAt s t (.jov o) (.segment seg))) ∧
    (seg < 2 ^ 16 → seg ≠ 0 → segmentHere s seg = false → isPending (getCore s s.cur.core) seg = false →
      exec (.jov o) s = .next (trapped s t clsAccess 10 (dw seg) 0))) ∧
  (∀ (o : TretOps) (s : State) (t : Thread), Ready s t (.tret o) →
    let x := operand s t (.tret o) 0
    let pc := x.toNat % 2 ^ 17
    let seg := x.toNat / 2 ^ 32 % 2 ^ 16
    (t.inHandler = false → exec (.tret o) s = .next (trapped s t clsIllegal 3 0 (baseAux s))) ∧
    (t.inHandler = true → x.toNat = seg * 2 ^ 32 + pc → segmentHere s seg = true → inImem pc →
      fitsSegment (getCore s s.cur.core) seg pc →
      exec (.tret o) s = .next (jumped s t (.tret o) (fun u => { u with inHandler := false }) pc seg)))

/-- R204, R205: `enter` stores the link at the top of its new frame and lowers g2, or takes the stack trap; `leave` loads the link and releases the
frame, and applies the switch marker. -/
def Obligations.Frames : Prop :=
  (∀ (o : FrameOps) (s : State) (t : Thread), Ready s t (.enter o) →
    let g2 := operand s t (.enter o) 0
    let f : Int := g2.toNat - o.n
    (g2.toNat % 16 ≠ 0 → exec (.enter o) s = .next (trapped s t clsStack 2 (BitVec.ofInt 64 f) t.slim)) ∧
    (g2.toNat % 16 = 0 → f < t.slim.toNat → exec (.enter o) s = .next (trapped s t clsStack 1 (BitVec.ofInt 64 f) t.slim)) ∧
    (g2.toNat % 16 = 0 → t.slim.toNat ≤ f → ∀ r, issueAddr s.cur.core (BitVec.ofInt 64 (f + o.n - 8)) 8 8 = .inr r →
      exec (.enter o) s = .next (started s t (.enter o) (fun u =>
        writeG (withAccess s t (.write [(r, leBytes 8 (operand s t (.enter o) 1).toNat)] 8) false plainOs u) 2 (BitVec.ofInt 64 f))))) ∧
  (∀ (o : FrameOps) (s : State) (t : Thread), Ready s t (.leave o) →
    let g2 := operand s t (.leave o) 0
    ∀ r, issueAddr s.cur.core (g2 + dw o.n - 8) 8 1 = .inr r →
      exec (.leave o) s = .next (started s t (.leave o) (fun u =>
        writeG (withAccess s t (.read [(r, 8)] 8 (.scalar false)) false plainOs (awaiting s (.g 1) u)) 2 (g2 + dw o.n))))

/-- R206, R209, R367: `trap` and `brk` raise their trap with their code as CAUSE; `ecall` raises class 7 with the service number as ADDR, once the
thread's stores are performed. -/
def Sys2Proof.Rules.TrapInstructions : Prop :=
  (∀ row ∈ trapRows, ∀ (o : CodeOps) (s : State) (t : Thread), Ready s t (row.1 o) →
    exec (row.1 o) s = .next (trapped s t row.2 o.code.val 0 0)) ∧
  (∀ (o : EcallOps) (s : State) (t : Thread), Ready s t (.ecall o) →
    exec (.ecall o) s = .next (takeTrap (drainThread s s.cur.core s.cur.slot) s.cur.core s.cur.slot (trapOf s t clsEcall 0 (dw o.n) 0)))

/-- R347, R364: a trap that its grid handles enters the handler: PC and SEG, the record below g2, everything else as it was. A thread with results
outstanding waits first (R150), as does one that a pre-emption has halted, and its earlier stores are performed before its record is written (R84).
That a machine trap which waits already comes first is the model's choice (log entry 22). -/
def Sys2Proof.Rules.UserTrapEntry : Prop :=
  (∀ (s : State) (c : CoreId) (slot : Nat) (t : Thread) (x : TrapInfo), getT s c slot = some t →
    ¬ (t.out = [] ∧ t.acc = [] ∧ t.halted = false ∧ t.trap = none) →
    takeTrap s c slot x = setT s c slot (some { t with trap := some (t.trap.getD x), run := .held .trap, claims := [] })) ∧
  (∀ (s : State) (c : CoreId) (slot : Nat) (t : Thread) (x : TrapInfo) (g : Grid) (a : Dword), getT s c slot = some t → t.out = [] → t.acc = [] →
    t.halted = false → t.trap = none → c.n < 8192 → gridOf s c t = some g → userHandled s c t x = true → resolve c (t.regs.g[(2 : Fin 64)] - 64) = some a →
    x.seg < 2 ^ 16 → x.cls < 2 ^ 8 →
    let s0 := drainThread (setT s c slot (some { t with claims := [] })) c slot
    s0.redirects = [] → Memory.wf s0.mem = true →
    let s' := takeTrap s c slot x
    let words := (x.words.take 4).map (fun w => w.toNat)
    getT s' c slot = some
      { t with pc := g.hdr.trapvec, seg := 0, inHandler := true, run := .ready, marker := false, trap := none, woken := none, claims := [] } ∧
    readNat s' t.gslot (physOf c a) 8 = (x.pc % 2 ^ 32 * 2 ^ 32 + x.seg * 2 ^ 16 + x.cause % 256 * 2 ^ 8 + x.cls) % 2 ^ 64 ∧
    readNat s' t.gslot (physOf c a + 8) 8 = x.addr.toNat ∧ readNat s' t.gslot (physOf c a + 16) 8 = x.aux.toNat ∧
    readNat s' t.gslot (physOf c a + 24) 8 =
      words.getD 0 0 + words.getD 1 0 * 2 ^ 16 + words.getD 2 0 * 2 ^ 32 + words.getD 3 0 * 2 ^ 48 ∧
    (∀ b, (b < physOf c a ∨ physOf c a + 64 ≤ b) → readByte s' t.gslot b = readByte s0 t.gslot b)) ∧
  (∀ (s : State) (c : CoreId) (t : Thread) (x : TrapInfo) (g : Grid), gridOf s c t = some g →
    (7 ≤ x.cls ∨ g.hdr.trapen / 2 ^ x.cls % 2 = 0 ∨ t.inHandler = true) → userHandled s c t x = false)

/-- R364: a trap whose thread's results are final goes to the user handler when its TRAPEN bit is set, the thread is not in its handler, and R348 allows it
(class below 7, g2 a multiple of 16 with 64 bytes below it in the thread's own stack, where its record may be written); any other trap of a core of the
clusters goes to privileged software. -/
def Sys2Proof.Rules.TrapDestination : Prop :=
  ∀ (s : State) (c : CoreId) (slot : Nat) (t : Thread) (x : TrapInfo), getT s c slot = some t → t.out = [] → t.acc = [] → t.halted = false →
    t.trap = none → c.n < 8192 →
    let u := { t with claims := [] }
    let s0 := setT s c slot (some u)
    let g2 := t.regs.g[(2 : Fin 64)]
    let allows : Prop := ∃ g a, gridOf s c t = some g ∧ g.hdr.trapen / 2 ^ x.cls % 2 = 1 ∧ t.inHandler = false ∧ x.cls < 7 ∧
      g2.toNat % 16 = 0 ∧ t.slim.toNat + 64 ≤ g2.toNat ∧ g2.toNat ≤ t.slim.toNat + g.hdr.stack ∧
      resolve c (g2 - 64) = some a ∧ protectedBytes s t.gslot (physOf c a) 64 = false
    (∀ g, allows → gridOf s c t = some g → takeTrap s c slot x = enterHandler (drainThread s0 c slot) c slot u g.hdr.trapvec x) ∧
    (¬ allows → takeTrap s c slot x = deliverTrap s0 c slot u x)

/-! ## Addresses and synchronous accesses (spec/02, spec/07) -/

namespace Sys2Proof.Machine

/-- The address of a memory operand (R213). -/
def addressOf (s : State) (t : Thread) (i : Instr) : Off → Dword
  | .none => operand s t i 0
  | .reg _ => operand s t i 0 + operand s t i 1
  | .imm v => operand s t i 0 + BitVec.ofInt 64 v

/-- The data operand of a store, after its address operands. -/
def storeData (s : State) (t : Thread) (i : Instr) : Off → Dword
  | .reg _ => operand s t i 2
  | _ => operand s t i 1

/-- R213, R215: row, sign extension, whether it is strong. -/
def loadRows : List ((MemOps → Instr) × Bool × Bool) := [
  (.ld, false, false), (.ldSigned, true, false), (.ldo, false, true), (.ldoSigned, true, true)]

def storeRows : List ((MemOps → Instr) × Bool) := [(.st, false), (.sto, true)]

/-- R228: row, and its operation. -/
def atomRows : List ((AtomOps → Instr) × RmwOp) := [
  (.aadd, .add), (.amin, .min), (.amax, .max), (.aminu, .minu), (.amaxu, .maxu), (.aand, .and), (.aor, .or), (.axor, .xor), (.aswp, .swp)]

/-- R231: row, its operation and its bytes. -/
def afaddRows : List ((AfaddOps → Instr) × RmwOp × Nat) := [(.afaddF32, .faddF32, 4), (.afaddBf16, .faddBf16, 2)]

end Sys2Proof.Machine

/-- R74, R76, R212, R214: what issue makes of an address: alignment, bits [63:60], the alias windows, the end of a window. An access that crosses
windows has CAUSE 1 and an alias that names another package CAUSE 3.
It rests on the model's choices of log entry 16. -/
def Obligations.AddressesAtIssue : Prop :=
  (∀ (c : CoreId) (a : Dword) (n al : Nat), (a.toNat % al ≠ 0 → issueAddr c a n al = .inl 4) ∧
    (a.toNat % al = 0 → 2 ^ 60 ≤ a.toNat → issueAddr c a n al = .inl 1)) ∧
  (∀ (c : CoreId) (a : Dword) (n al : Nat), a.toNat < 2 ^ 60 → windowOf (locOf a) ≠ .ownSpad → windowOf (locOf a) ≠ .ownPool →
    (a.toNat % al = 0 → 1 ≤ n → locOf a + n ≤ 2 ^ 48 → windowOf (locOf a) = windowOf (locOf a + n - 1) → issueAddr c a n al = .inr a) ∧
    (a.toNat % al = 0 → 1 ≤ n → locOf a + n ≤ 2 ^ 48 → windowOf (locOf a) ≠ windowOf (locOf a + n - 1) → issueAddr c a n al = .inl 1)) ∧
  (∀ (c : CoreId) (k x n al : Nat), c.n < 8192 → c.pkg < 4096 → (k = 0 ∨ k = c.pkg) → 1 ≤ n → x + n ≤ 2 ^ 19 → al ∣ 32 → x % al = 0 →
    issueAddr c (dw (k * 2 ^ 48 + 0x800200000000 + x)) n al = .inr (dw (k * 2 ^ 48 + 0x800000000000 + c.n * 2 ^ 19 + x))) ∧
  (∀ (c : CoreId) (k x n al : Nat), c.n < 8192 → c.pkg < 4096 → (k = 0 ∨ k = c.pkg) → 1 ≤ n → x + n ≤ 2 ^ 22 → al ∣ 32 → x % al = 0 →
    issueAddr c (dw (k * 2 ^ 48 + 0x800200080000 + x)) n al = .inr (dw (k * 2 ^ 48 + 0x800100000000 + c.n / 16 * 2 ^ 22 + x))) ∧
  (∀ (c : CoreId) (k x n al : Nat), k < 4096 → k ≠ 0 → k ≠ c.pkg → x < 0x480000 → al ∣ 32 → x % al = 0 →
    issueAddr c (dw (k * 2 ^ 48 + 0x800200000000 + x)) n al = .inl 3)

/-- R213, R215: loads complete at issue with their access on its way and their result outstanding; an address that issue refuses is an access fault. -/
def Sys2Proof.Rules.ScalarLoads : Prop :=
  ∀ row ∈ loadRows, ∀ (o : MemOps) (s : State) (t : Thread), Ready s t (row.1 o) →
    let a := addressOf s t (row.1 o) o.off
    let n := sizeBytes o.size
    (∀ r, issueAddr s.cur.core a n (if row.2.2 then n else 1) = .inr r →
      exec (row.1 o) s = .next (started s t (row.1 o) (fun u =>
        withAccess s t (.read [(r, n)] n (.scalar row.2.1)) row.2.2 o.os (awaiting s (.g o.data) u)))) ∧
    (∀ c, issueAddr s.cur.core a n (if row.2.2 then n else 1) = .inl c → exec (row.1 o) s = .next (trapped s t clsAccess c a 0))

/-- R213, R215, R246, R247: stores, and the instructions that fill or empty a line, complete at issue with their access on its way. -/
def Sys2Proof.Rules.ScalarStores : Prop :=
  (∀ row ∈ storeRows, ∀ (o : MemOps) (s : State) (t : Thread), Ready s t (row.1 o) →
    let a := addressOf s t (row.1 o) o.off
    let n := sizeBytes o.size
    (∀ r, issueAddr s.cur.core a n (if row.2 then n else 1) = .inr r →
      exec (row.1 o) s = .next (started s t (row.1 o) (withAccess s t (.write [(r, leBytes n (storeData s t (row.1 o) o.off).toNat)] n) row.2 o.os))) ∧
    (∀ c, issueAddr s.cur.core a n (if row.2 then n else 1) = .inl c → exec (row.1 o) s = .next (trapped s t clsAccess c a 0))) ∧
  (∀ (o : MemOps) (s : State) (t : Thread), Ready s t (.ffill o) →
    let n := sizeBytes o.size
    ∀ r, issueAddr s.cur.core (addressOf s t (.ffill o) o.off) n 1 = .inr r → fillOk true n r = true →
      exec (.ffill o) s = .next (started s t (.ffill o) (withAccess s t (.fill r (leBytes n (storeData s t (.ffill o) o.off).toNat)) true o.os))) ∧
  (∀ (o : FclrOps) (s : State) (t : Thread), Ready s t (.fclr o) →
    ∀ r, issueAddr s.cur.core (dw ((operand s t (.fclr o) 0).toNat / 128 * 128)) 128 1 = .inr r → fillOk true 128 r = true →
      exec (.fclr o) s = .next (started s t (.fclr o) (withAccess s t (.clear r) true o.os)))

/-- R228, R229, R231: the returning atomics complete at issue with their read-modify-write on its way; a misaligned one is an access fault. -/
def Obligations.Atomics : Prop :=
  (∀ row ∈ atomRows, ∀ (o : AtomOps) (s : State) (t : Thread), Ready s t (row.1 o) →
    let a := operand s t (row.1 o) 0
    let n := widthBytes o.w
    (∀ r, issueAddr s.cur.core a n n = .inr r → exec (row.1 o) s = .next (started s t (row.1 o) (fun u =>
        withAccess s t (.rmw row.2 r n (sourceAt s t (row.1 o) 1 o.y) 0) true o.os (awaiting s (.g o.rd) u)))) ∧
    (∀ c, issueAddr s.cur.core a n n = .inl c → exec (row.1 o) s = .next (trapped s t clsAccess c a 0))) ∧
  (∀ (o : AcasOps) (s : State) (t : Thread), Ready s t (.acas o) →
    let a := operand s t (.acas o) 0
    let n := widthBytes o.w
    (∀ r, issueAddr s.cur.core a n n = .inr r → exec (.acas o) s = .next (started s t (.acas o) (fun u =>
        withAccess s t (.rmw .cas r n (operand s t (.acas o) 2) (operand s t (.acas o) 1)) true o.os (awaiting s (.g o.rd) u)))) ∧
    (∀ c, issueAddr s.cur.core a n n = .inl c → exec (.acas o) s = .next (trapped s t clsAccess c a 0))) ∧
  (∀ row ∈ afaddRows, ∀ (o : AfaddOps) (s : State) (t : Thread), Ready s t (row.1 o) →
    let a := operand s t (row.1 o) 0
    (∀ r, issueAddr s.cur.core a row.2.2 row.2.2 = .inr r → exec (row.1 o) s = .next (started s t (row.1 o) (fun u =>
        withAccess s t (.rmw row.2.1 r row.2.2 (operand s t (row.1 o) 1) 0) true o.os (awaiting s (.g o.rd) u)))) ∧
    (∀ c, issueAddr s.cur.core a row.2.2 row.2.2 = .inl c → exec (row.1 o) s = .next (trapped s t clsAccess c a 0)))

/-- R218, R220, R221: vector loads and stores, gathers, scatters and fragment loads complete at issue: each active lane's or element's bytes, those of a
fragment in columns of sixteen. -/
def Obligations.VectorAccesses : Prop :=
  (∀ (c : CoreId) (a : Dword) (ls : List Nat) (as : List Dword), laneAddrs c a ls = .inr as → ls.Pairwise (· < ·) →
    windowOf (locOf (a + dw (4 * ls.headD 0))) ≠ .ownSpad → windowOf (locOf (a + dw (4 * ls.headD 0))) ≠ .ownPool →
    a.toNat % 32 = 0 ∧ as = ls.map (fun l => a + dw (4 * l))) ∧
  (∀ (o : VMemOps) (s : State) (t : Thread) (ls : List Nat) (as : List Dword), Ready s t (.vld o) →
    ls = (List.range 32).filter (fun l => bitOf (lanesOf t o.pre) l) → laneAddrs s.cur.core (addressOf s t (.vld o) o.off) ls = .inr as →
    as.length = ls.length ∧ exec (.vld o) s = .next (started s t (.vld o) (fun u =>
      withAccess s t (.read (as.map (fun x => (x, 4))) (laneSpan ls) (.lanes (ls.map (fun l => 32 * l)))) false plainOs (awaiting s (.v o.v) u)))) ∧
  (∀ (o : VMemOps) (s : State) (t : Thread) (ls : List Nat) (as : List Dword), Ready s t (.vst o) →
    ls = (List.range 32).filter (fun l => bitOf (lanesOf t o.pre) l) → laneAddrs s.cur.core (addressOf s t (.vst o) o.off) ls = .inr as →
    exec (.vst o) s = .next (started s t (.vst o)
      (withAccess s t (.sectors ((as.zip ls).map (fun p => (p.1, leBytes 4 (elem 32 (readV s.tick t o.v) p.2)))) (laneSpan ls)) false plainOs))) ∧
  (∀ (o : GathOps) (s : State) (t : Thread) (wide : Bool) (as : List Dword), let i := if wide then Instr.vgatherD o else Instr.vgatherW o
    let n := if wide then 8 else 4
    let js := (List.range (128 / n)).filter (fun j => bitOf (lanesOf t o.pre) j)
    Ready s t i → elemAddrs s.cur.core n (js.map (fun j => operand s t i 0 +
      BitVec.ofInt 64 (sel (8 * n) (elem (8 * n) (readV s.tick t o.idx) j) * 2 ^ o.sc.val))) = .inr as →
    exec i s = .next (started s t i (fun u =>
      withAccess s t (.read (as.map (fun x => (x, n))) 0 (.lanes (js.map (fun j => 8 * n * j)))) false plainOs (awaiting s (.v o.v) u)))) ∧
  (∀ (o : GathOps) (s : State) (t : Thread) (wide : Bool) (as : List Dword), let i := if wide then Instr.vscatterD o else Instr.vscatterW o
    let n := if wide then 8 else 4
    let js := (List.range (128 / n)).filter (fun j => bitOf (lanesOf t o.pre) j)
    Ready s t i → elemAddrs s.cur.core n (js.map (fun j => operand s t i 0 +
      BitVec.ofInt 64 (sel (8 * n) (elem (8 * n) (readV s.tick t o.idx) j) * 2 ^ o.sc.val))) = .inr as →
    exec i s = .next (started s t i
      (withAccess s t (.write ((as.zip js).map (fun p => (p.1, leBytes n (elem (8 * n) (readV s.tick t o.v) p.2)))) 0) false plainOs))) ∧
  (∀ (o : LdfOps) (s : State) (t : Thread), Ready s t (.ldf o) →
    let b := operand s t (.ldf o) 0
    let p := operand s t (.ldf o) 1
    let n := if o.half then 2 else 1
    let es := fragElems n (lanesOf t o.pre)
    let as := es.map (fun x => b + dw (x.1 * p.toNat + n * x.2))
    b.toNat % 8 = 0 → p.toNat % 8 = 0 → p.toNat < 2 ^ 20 → as.all (fun a => (ownSpad s.cur.core a n).isSome) = true →
    exec (.ldf o) s = .next (started s t (.ldf o) (fun u =>
      withAccess s t (.read (as.filterMap (fun a => (ownSpad s.cur.core a n).map (fun r => (r, n)))) 0
        (.lanes (es.map (fun x => 8 * n * (16 * x.2 + x.1))))) false plainOs (awaiting s (.v o.v) u))))

/-! ## Fences and posted items (spec/07, R222 to R232) -/

namespace Sys2Proof.Machine

/-- The flag operand of an instruction, its last address (R212): zero where it has none. -/
def flagAt (s : State) (t : Thread) (i : Instr) (n : Nat) : Option GReg → Dword
  | some _ => operand s t i n
  | none => 0

/-- The position after an optional flag. -/
def afterFlag : Option GReg → Nat
  | some _ => 2
  | none => 1

/-- What issue asks of the addresses of a posted item (R212): target and flag resolve to a and f, and the target's window exists. -/
def targets (s : State) (i : Instr) (target flag : Dword) (n align : Nat) (a f : Dword) : Prop :=
  issueAddr s.cur.core target n align = .inr a ∧ issueFlag (settled s i) s.cur.core flag = .inr f ∧ windowOf (locOf a) ≠ .none

/-- What issue asks of a posted item (R212, R223): its addresses, and room among the core's items. -/
def postable (s : State) (i : Instr) (target flag : Dword) (n align : Nat) (a f : Dword) : Prop :=
  targets s i target flag n align a f ∧ itemRoom (settled s i) s.cur.core = true

/-- What issue refuses of a posted item's target and flag, each a precise access fault at the address that fails: their alignment first, then the windows
(R75, R91, R212). -/
def targetTraps (s : State) (t : Thread) (i : Instr) (target flag : Dword) (n align : Nat) : Prop :=
  let traps := fun (cause : Nat) (a : Dword) => exec i s = .next (takeTrap (settled s i) s.cur.core s.cur.slot (trapOf s t clsAccess cause a 0))
  (target.toNat % align ≠ 0 → traps 4 target) ∧ (target.toNat % align = 0 → flag.toNat % 8 ≠ 0 → traps 4 flag) ∧
  (flag.toNat % 8 = 0 → ∀ c, issueAddr s.cur.core target n align = .inl c → traps c target) ∧
  (∀ a c, issueAddr s.cur.core target n align = .inr a → issueFlag (settled s i) s.cur.core flag = .inl c → traps c flag) ∧
  (∀ a f, issueAddr s.cur.core target n align = .inr a → issueFlag (settled s i) s.cur.core flag = .inr f → windowOf (locOf a) = .none → traps 1 target)

/-- What becomes of the thread's weight where `wt` asks for a share of it, given how the operation goes off with a share (R70, R71, R236): half of it, none from
a thread of domain 0; a weight of 1 first borrows from the root, and a weight of 0, or a root that gives nothing, is the weight trap. -/
def sharesWeight (s : State) (t : Thread) (i : Instr) (z : State) (wt : Bool) (sent : Nat → State → State) : Prop :=
  let traps := fun (cls cause : Nat) (a x : Dword) => takeTrap z s.cur.core s.cur.slot (trapOf s t cls cause a x)
  let halved := fun (z : State) (w : Nat) => modT z s.cur.core s.cur.slot (fun u => { u with weight := w - w / 2 })
  ((wt = false ∨ t.domain = 0) → exec i s = .next (sent 0 z)) ∧
  (wt = true → t.domain ≠ 0 → 2 ≤ t.weight → exec i s = .next (sent (t.weight / 2) (halved z t.weight))) ∧
  (wt = true → t.domain ≠ 0 → t.weight = 1 → ∀ r j, rootOf z s.cur.core.pkg t.pid t.domain = some (r, j) →
    portBehind z (whoOf s.cur.core t) r (.issue s.cur.core s.cur.slot t.seq) = none →
    (∀ z1 m, borrow z (whoOf s.cur.core t) t.domain = .took z1 m → exec i s = .next (sent ((1 + m) / 2) (halved z1 (1 + m)))) ∧
    (∀ r v, borrow z (whoOf s.cur.core t) t.domain = .exhausted r v → exec i s = .next (traps clsWeight 2 r (dw v)))) ∧
  (wt = true → t.domain ≠ 0 → t.weight = 0 → ∀ r j, rootOf z s.cur.core.pkg t.pid t.domain = some (r, j) → exec i s = .next (traps clsWeight 1 r 0)) ∧
  (wt = true → t.domain ≠ 0 → t.weight < 2 → rootOf z s.cur.core.pkg t.pid t.domain = none →
    exec i s = .next (traps clsAccess 11 (dw t.domain) 0))

/-- The active lanes, ascending. -/
def lanesOn (t : Thread) (p : Pre) : List Nat := (List.range 32).filter (fun l => bitOf (lanesOf t p) l)

/-- The bytes of a posted store's target, and their alignment (R225). -/
def stpSize (o : StpOps) : Nat × Nat := match o.data with
  | .g size _ => (sizeBytes size, sizeBytes size)
  | .v _ => (128, 32)

/-- What a posted store's item does (R225): the low bytes of its register, or its active lanes. -/
def stpOp (s : State) (t : Thread) (o : StpOps) : ItemOp := match o.data with
  | .g size _ => .store [(0, leBytes (sizeBytes size) (operand s t (.stp o) (afterFlag o.flag)).toNat)] o.fill
  | .v r => .store ((lanesOn t o.pre).map (fun l => (4 * l, leBytes 4 (elem 32 (readV s.tick t r) l)))) o.fill

/-- A posted scalar store with `.rel` at system scope is one of the forms that publish a packet (R382). -/
def stpPub (o : StpOps) : Bool := match o.data with
  | .g _ _ => releases o.os.ord && !narrow o.os.scope
  | .v _ => false

/-- R230: row, and its operation. -/
def redRows : List ((RedOps → Instr) × RmwOp) := [
  (.redAdd, .add), (.redMin, .min), (.redMax, .max), (.redMinu, .minu), (.redMaxu, .maxu), (.redAnd, .and), (.redOr, .or), (.redXor, .xor)]

def redFaddRows : List ((RedFaddOps → Instr) × RmwOp × Nat) := [(.redFaddF32, .faddF32, 4), (.redFaddBf16, .faddBf16, 2)]

/-- R232: row, its operation, and the bytes of an element. -/
def taddRows : List ((TaddOps → Instr) × RmwOp × Nat) := [(.taddF32, .faddF32, 4), (.taddI32, .add, 4), (.taddBf16, .faddBf16, 2)]

def fenceRows : List (FenceOps → Instr) := [.fence, .fenceSc]

/-- The READY record of a spawned thread (R52, R238). -/
def spawnRec (s : State) (t : Thread) (g : Grid) (gs seg pc : Nat) : CRec :=
  { seg := seg, pc := pc, args := [readG s.tick t 4, readG s.tick t 5, readG s.tick t 6, readG s.tick t 7], weight := t.weight / 2,
    frame := dataBase g.hdr t.crew, state := 1, gslot := gs, again := false, tid := 0, prio := g.prio, kernel := t.kernel, domain := t.domain }

end Sys2Proof.Machine

/-- R222: a fence waits for the thread's results and accesses, then completes with every earlier store of the thread performed. -/
def Sys2Proof.Rules.Fences : Prop :=
  ∀ row ∈ fenceRows, ∀ (o : FenceOps) (s : State) (t : Thread), Ready s t (row o) →
    (t.out = [] ∧ t.acc = [] → exec (row o) s = .next (ended s t (row o) (drainThread s s.cur.core s.cur.slot))) ∧
    (¬ (t.out = [] ∧ t.acc = []) → exec (row o) s = .next (heldAt s t (row o) .results))

/-- R212, R223 to R226: posted stores and line fetches complete at issue with their item on its way; where the core has 64 items or a held record they
wait, and a filling store whose bytes are no one line of a scratchpad traps. A share of the thread's weight goes with a store that asks for it: half of
it, none from a thread of domain 0; a weight of 1 first borrows from the root, and a weight of 0, or a root that gives nothing, is the weight trap (R70,
R71, R225). A misaligned target or flag, then one of no window, is a precise access fault; its CAUSE and address rest on the model's choices of log
entries 16 and 20. -/
def Sys2Proof.Rules.PostedStores : Prop :=
  (∀ (o : StpOps) (s : State) (t : Thread), Ready s t (.stp o) →
    targetTraps s t (.stp o) (operand s t (.stp o) 0) (flagAt s t (.stp o) 1 o.flag) (stpSize o).1 (stpSize o).2) ∧
  (∀ (o : GetlOps) (s : State) (t : Thread) (d : Dword), Ready s t (.getl o) → (operand s t (.getl o) 0).toNat % 128 = 0 →
    ownSpad s.cur.core (operand s t (.getl o) 0) 128 = some d →
    targetTraps s t (.getl o) (operand s t (.getl o) 1) (flagAt s t (.getl o) 2 o.flag) 128 32) ∧
  (∀ (o : StpOps) (s : State) (t : Thread) (a f : Dword), Ready s t (.stp o) →
    let i := Instr.stp o
    let z := settled s i
    let n := (stpSize o).1
    let sent := fun (share : Nat) (z : State) => ended s t i (itemSent s t 1 (stpOp s t o) a f share z (stpPub o))
    let traps := fun (cls cause : Nat) (a x : Dword) => takeTrap z s.cur.core s.cur.slot (trapOf s t cls cause a x)
    targets s i (operand s t i 0) (flagAt s t i 1 o.flag) n (stpSize o).2 a f →
    (settled s i).tick = s.tick ∧
    (fillOk o.fill n a = false → exec i s = .next (traps clsAccess 1 (operand s t i 0) 0)) ∧
    (fillOk o.fill n a = true → itemRoom z s.cur.core = false →
      exec i s = .next (heldIn s t i z .items)) ∧
    (fillOk o.fill n a = true → itemRoom z s.cur.core = true → sharesWeight s t i z o.wt sent)) ∧
  (∀ (o : GetlOps) (s : State) (t : Thread) (d a f : Dword), Ready s t (.getl o) → (operand s t (.getl o) 0).toNat % 128 = 0 →
    ownSpad s.cur.core (operand s t (.getl o) 0) 128 = some d →
    targets s (.getl o) (operand s t (.getl o) 1) (flagAt s t (.getl o) 2 o.flag) 128 32 a f →
    (itemRoom (settled s (.getl o)) s.cur.core = true →
      exec (.getl o) s = .next (ended s t (.getl o) (itemSent s t 4 (.getl a o.fill) d f 0 (settled s (.getl o))))) ∧
    (itemRoom (settled s (.getl o)) s.cur.core = false →
      exec (.getl o) s = .next (heldIn s t (.getl o) (settled s (.getl o)) .items))) ∧
  (∀ (o : GetlOps) (s : State) (t : Thread), Ready s t (.getl o) → (operand s t (.getl o) 0).toNat % 128 ≠ 0 →
    exec (.getl o) s = .next (takeTrap (settled s (.getl o)) s.cur.core s.cur.slot (trapOf s t clsAccess 4 (operand s t (.getl o) 0) 0)))

/-- R230 to R232: posted reductions and tile adds complete at issue with their item on its way, or trap as a posted store does (R212). -/
def Sys2Proof.Rules.PostedReductions : Prop :=
  (∀ row ∈ redRows, ∀ (o : RedOps) (s : State) (t : Thread), Ready s t (row.1 o) →
    targetTraps s t (row.1 o) (operand s t (row.1 o) 0) (flagAt s t (row.1 o) 1 o.flag) (widthBytes o.w) (widthBytes o.w)) ∧
  (∀ row ∈ redFaddRows, ∀ (o : RedFaddOps) (s : State) (t : Thread), Ready s t (row.1 o) →
    targetTraps s t (row.1 o) (operand s t (row.1 o) 0) (flagAt s t (row.1 o) 1 o.flag) row.2.2 row.2.2) ∧
  (∀ row ∈ taddRows, ∀ (o : TaddOps) (s : State) (t : Thread), Ready s t (row.1 o) →
    targetTraps s t (row.1 o) (operand s t (row.1 o) 0) (flagAt s t (row.1 o) 1 o.flag) 128 32) ∧
  (∀ row ∈ redRows, ∀ (o : RedOps) (s : State) (t : Thread) (a f : Dword), Ready s t (row.1 o) →
    postable s (row.1 o) (operand s t (row.1 o) 0) (flagAt s t (row.1 o) 1 o.flag) (widthBytes o.w) (widthBytes o.w) a f →
    exec (row.1 o) s = .next (ended s t (row.1 o) (itemSent s t 2 (.red row.2 (widthBytes o.w) (operand s t (row.1 o) (afterFlag o.flag))) a f 0
      (settled s (row.1 o))))) ∧
  (∀ row ∈ redFaddRows, ∀ (o : RedFaddOps) (s : State) (t : Thread) (a f : Dword), Ready s t (row.1 o) →
    postable s (row.1 o) (operand s t (row.1 o) 0) (flagAt s t (row.1 o) 1 o.flag) row.2.2 row.2.2 a f →
    exec (row.1 o) s = .next (ended s t (row.1 o) (itemSent s t 2 (.red row.2.1 row.2.2 (operand s t (row.1 o) (afterFlag o.flag))) a f 0
      (settled s (row.1 o))))) ∧
  (∀ row ∈ taddRows, ∀ (o : TaddOps) (s : State) (t : Thread) (a f : Dword), Ready s t (row.1 o) →
    postable s (row.1 o) (operand s t (row.1 o) 0) (flagAt s t (row.1 o) 1 o.flag) 128 32 a f →
    exec (row.1 o) s = .next (ended s t (row.1 o) (itemSent s t 3 (.adds ((lanesOn t o.pre).flatMap (fun l => (List.range (4 / row.2.2)).map (fun j =>
      { off := 4 * l + row.2.2 * j, op := row.2.1, v := elem (8 * row.2.2) (readV s.tick t o.v) (4 / row.2.2 * l + j) })))) a f 0
      (settled s (row.1 o)))))

/-! ## Tasks, futures and barriers (spec/08) -/

/-- R34 to R38, R50, R70, R237, R238: `spawn` at an immediate or a register start: refused, into a FREE slot, or onto a run queue; the thread created
has its launch values, a share of the spawner's weight, and is READY. -/
def Sys2Proof.Rules.Spawn : Prop :=
  (∀ (o : SpawnOps) (s : State) (t : Thread) (gs seg pc : Nat) (g : Grid), Ready s t (.spawn o) → t.gslot = some gs →
    let z := settled s (.spawn o)
    let b := operand s t (.spawn o) 0
    let p := s.cur.core.pkg
    let own := clusterOf s.cur.core.n
    let st := sourceAt s t (.spawn o) 1 o.start
    gridOf z s.cur.core t = some g → (b = 0xFFFFFFFFFFFFFFFF#64 ∨ b.toNat < 8192) →
    ((∃ r, o.start = .reg r) → st.toNat = seg * 2 ^ 32 + pc ∧ pc < 2 ^ 17 ∧ seg < 2 ^ 16) →
    ((∃ v, o.start = .imm v) → pc = st.toNat ∧ seg = t.seg) →
    inImem pc → (seg = 0 ∨ g.hdr.segs.any (fun x => decide (x.1 = seg)) = true) →
    (b ≠ 0xFFFFFFFFFFFFFFFF#64 → coreIn z p t.pid b.toNat = true ∧ (getCore z { s.cur.core with n := b.toNat }).tenancy = t.gslot) →
    t.domain ≠ 0 → 2 ≤ t.weight →
    let any := decide (b = 0xFFFFFFFFFFFFFFFF#64)
    let cands := if any then (rotation (getHub z p own).pickLast).map (fun k => 16 * own + k) else [b.toNat]
    let place := reserveOn z p gs g.hdr seg (if any then own else clusterOf b.toNat) cands
    let z1 := modT z s.cur.core s.cur.slot (fun u => { u with weight := t.weight - t.weight / 2 })
    (place = .refused → exec (.spawn o) s = .next (ended s t (.spawn o) (answered s o.rd 2 z))) ∧
    (∀ n sl, place = .slot n sl → exec (.spawn o) s = .next (ended s t (.spawn o) (answered s o.rd 0
      (incLive (setT (if any then modHub z1 p own (fun h => { h with pickLast := posOf n }) else z1) { s.cur.core with n := n } sl
        (some (newThread g gs sl seg pc [readG s.tick t 4, readG s.tick t 5, readG s.tick t 6, readG s.tick t 7] (dataBase g.hdr t.crew)
          (t.weight / 2) t.domain 0xFFFFFFFF 0 t.crew t.prio))) p t.gslot)))) ∧
    (∀ cl, place = .ring cl → exec (.spawn o) s = .next (ended s t (.spawn o) (answered s o.rd 1
      (incLive (appendRing z1 p cl (spawnRec s t g gs seg pc)).1 p t.gslot))))) ∧
  (∀ (g : Grid) (gs sl seg pc : Nat) (a b c d g3 : Dword) (w dom grp tid crew prio : Nat),
    let t := newThread g gs sl seg pc [a, b, c, d] g3 w dom grp tid crew prio
    t.pc = pc ∧ t.seg = seg ∧ t.run = .ready ∧ t.inHandler = false ∧ t.weight = w ∧ t.domain = dom ∧ t.out = [] ∧ t.acc = [] ∧
    t.regs.g.toList = [0, 0, dw (stackTop - sl * g.hdr.stack), g3, a, b, c, d] ++ List.replicate 56 0 ∧
    t.slim = dw (stackTop - (sl + 1) * g.hdr.stack) ∧ t.regs.fpc = 0)

/-- R51, R57, R72, R240, R241: `quit` and `susp` end their thread once its results and tile commands are final; `quit` returns its weight, `susp` leaves a
READY record. `jmp` through g1 = 0 with link g0 is a quit (R201). -/
def Sys2Proof.Rules.ThreadEnds : Prop :=
  (∀ (o : BareOps) (s : State) (t : Thread) (w : HeldOn), Ready s t (.quit o) →
    endHold (settled s (.quit o)) (ctxOf s t (.quit o)) = some w →
    exec (.quit o) s = .next (heldIn s t (.quit o) (settled s (.quit o)) w)) ∧
  (∀ (o : BareOps) (s : State) (t : Thread), Ready s t (.quit o) → t.domain = 0 →
    let z := settled s (.quit o)
    endHold z (ctxOf s t (.quit o)) = none →
    ∃ u, exec (.quit o) s = .next u ∧ u = freeSlot (decLive (leaveGroup z s.cur.core t s.cur.slot) s.cur.core.pkg t.gslot) s.cur.core s.cur.slot ∧
      (s.cur.slot < 16 → getT u s.cur.core s.cur.slot = none)) ∧
  (∀ (o : BareOps) (s : State) (t : Thread) (a : Dword) (ph : Nat) (j : Bool) (z1 : State), Ready s t (.quit o) → t.domain ≠ 0 →
    let z := settled s (.quit o)
    endHold z (ctxOf s t (.quit o)) = none → rootOf z s.cur.core.pkg t.pid t.domain = some (a, j) →
    reachesHome s t z a 8 .rmw z1 ph →
    let z2 := writeWord z1 (whoOf s.cur.core t) ph 8 ((readNat z1 t.gslot ph 8 + t.weight) % 2 ^ 64)
    exec (.quit o) s = .next (freeSlot (decLive (leaveGroup z2 s.cur.core t s.cur.slot) s.cur.core.pkg t.gslot) s.cur.core s.cur.slot)) ∧
  (∀ (o : JmpOps) (s : State) (t : Thread), Ready s t (.jmp o) → o.link = 0 → o.tgt = 1 → operand s t (.jmp o) 0 = 0 → t.domain = 0 →
    let z := drainThread s s.cur.core s.cur.slot
    endHold z (ctxOf s t (.jmp o)) = none →
    exec (.jmp o) s = .next (freeSlot (decLive (leaveGroup z s.cur.core t s.cur.slot) s.cur.core.pkg t.gslot) s.cur.core s.cur.slot)) ∧
  (∀ (o : BareOps) (s : State) (t : Thread), Ready s t (.susp o) →
    let z := settled s (.susp o)
    let r := threadRec t t.regs.g (nextPc s t) false
    endHold z (ctxOf s t (.susp o)) = none →
    ((ringFree (getHub z s.cur.core.pkg (clusterOf s.cur.core.n))).isSome = true →
      exec (.susp o) s = .next (freeSlot (leaveGroup (appendRing z s.cur.core.pkg (clusterOf s.cur.core.n) r).1 s.cur.core t s.cur.slot)
        s.cur.core s.cur.slot)) ∧
    ((ringFree (getHub z s.cur.core.pkg (clusterOf s.cur.core.n))).isSome = false → mayPark t (.susp o) →
      exec (.susp o) s = .next (parks s t (.susp o) z .ring)))

/-- R58 to R60, R244: a future read of a full line completes with its value; of an empty one it parks, or, deferred, without a table entry, or once the heap
that was full has a slot, it becomes a record on the line's list. -/
def Sys2Proof.Rules.FutureReads : Prop :=
  (∀ (o : MemOps) (deferred : Bool) (s : State) (t : Thread) (r : Dword) (m : Nat) (z1 : State) (ph : Nat) (host : Bool),
    let i := if deferred then Instr.fldS o else Instr.fld o
    let z := settled s i
    let n := sizeBytes o.size
    Ready s t i → issueAddr s.cur.core (addressOf s t i o.off) n 1 = .inr r → windowOf (locOf r) = .spad m → clusterOf m = clusterOf s.cur.core.n →
    pkgOf s.cur.core r = s.cur.core.pkg → locOf r / 128 = (locOf r + n - 1) / 128 → judge z (whoOf s.cur.core t) r n .read = (z1, .ok ph host) →
    (lineEmpty z1 t.gslot ph = false → exec i s = .next (ended s t i (answered s o.data (dw (readNat z1 t.gslot ph n)) z1))) ∧
    (lineEmpty z1 t.gslot ph = true → deferred = false → t.woken = none → (takesEntry z1 (whoOf s.cur.core t) (.line (lineOf ph)) = true ∨ t.run ≠ .ready) → mayPark t i →
      exec i s = .next (parks s t i z1 (.line (lineOf ph)))) ∧
    (lineEmpty z1 t.gslot ph = true → (deferred = true ∨ t.woken.isSome = true ∨ takesEntry z1 (whoOf s.cur.core t) (.line (lineOf ph)) = false ∧ t.run = .ready) →
      endHold z1 (ctxOf s t i) = none → ∀ k, heapFree z1 s.cur.core.pkg t.pid (clusterOf s.cur.core.n) = some k →
      Memory.wf z1.mem = true → z1.redirects = [] → s.cur.slot < 16 →
      ∃ u, exec i s = .next u ∧ getT u s.cur.core s.cur.slot = none ∧ readNat u t.gslot (lineOf ph) 8 = (k + 1) % 2 ^ 64 ∧
        readNat u t.gslot (lineOf ph + 8) 8 = (readNat z1 t.gslot (lineOf ph + 8) 8 + 1) % 2 ^ 64))

/-- R72, R94, R248, R257: `waitc` completes with the word on which its condition holds, and parks otherwise; `wquiet` on the thread's own domain first
returns its whole weight to the root, leaving none, and completes when the root is full, parks otherwise. -/
def Sys2Proof.Rules.FlagWaits : Prop :=
  (∀ x n : Nat, reached x n = true ↔ (x % 2 ^ 32 + 2 ^ 32 - n % 2 ^ 32) % 2 ^ 32 < 2 ^ 31) ∧
  (∀ (o : WaitcOps) (s : State) (t : Thread), Ready s t (.waitc o) →
    let z := settled s (.waitc o)
    let f := operand s t (.waitc o) 0
    let n := (sourceAt s t (.waitc o) 1 o.n).toNat % 2 ^ 32
    let gives := fun (z : State) (v : Dword) => ended s t (.waitc o) (modT z s.cur.core s.cur.slot (fun u => writeG u o.rd v))
    (∀ v, t.woken = some v → exec (.waitc o) s = .next (gives z v)) ∧
    (t.woken = none → ∀ r z1 ph, issueAddr s.cur.core f 8 8 = .inr r → reachesHome s t z r 8 .read z1 ph →
      let v := leNat (readJudged z1 (whoOf s.cur.core t) r ph 8)
      (reached v n = true → exec (.waitc o) s = .next (gives z1 (dw v))) ∧
      (reached v n = false → mayPark t (.waitc o) → exec (.waitc o) s = .next (parks s t (.waitc o) z1 (.flag r n))))) ∧
  (∀ (o : RbOps) (s : State) (t : Thread) (a : Dword) (j : Bool), Ready s t (.wquiet o) →
    let z := settled s (.wquiet o)
    let id := (operand s t (.wquiet o) 0).toNat
    let waits := fun (z z1 : State) (ph : Nat) => reachesHome s t z a 8 .read z1 ph →
      let v := leNat (readJudged z1 (whoOf s.cur.core t) a ph 8)
      (v = 2 ^ 63 → exec (.wquiet o) s = .next (ended s t (.wquiet o) z1)) ∧
      (v ≠ 2 ^ 63 → mayPark t (.wquiet o) → exec (.wquiet o) s = .next (parks s t (.wquiet o) z1 (.root a)))
    0 < id → id < 2 ^ 16 → rootOf z s.cur.core.pkg t.pid id = some (a, j) →
    (t.woken.isSome = true → exec (.wquiet o) s = .next (ended s t (.wquiet o) z)) ∧
    (t.woken = none → (id ≠ t.domain ∨ t.weight = 0) → ∀ z1 ph, waits z z1 ph) ∧
    (t.woken = none → id = t.domain → t.weight ≠ 0 → ∀ z1 ph, reachesHome s t z a 8 .rmw z1 ph →
      let z2 := modT (writeWord z1 (whoOf s.cur.core t) ph 8 ((readNat z1 t.gslot ph 8 + t.weight) % 2 ^ 64)) s.cur.core s.cur.slot
        (fun u => { u with weight := 0 })
      ∀ z3 ph2, waits z2 z3 ph2))

/-- R250, R253, R432: an arm that its flag has reached fires at once with status 1; it takes an entry with status 0 where its core and the flag's home
have room, else status 2; a flag in host memory takes none. A disarm removes the oldest equal arm with status 0, or gives 1. -/
def Sys2Proof.Rules.Arms : Prop :=
  (∀ (o : RrrOps) (s : State) (t : Thread) (r : Dword) (op : ArmOp) (inc : Bool) (z1 : State) (ph : Nat),
    let i := if inc then Instr.armInc o else Instr.armMsg o
    let z := settled s i
    let n := (operand s t i 2).toNat % 2 ^ 32
    Ready s t i → issueAddr s.cur.core (operand s t i 0) 8 8 = .inr r → portBehind z (whoOf s.cur.core t) r (.issue s.cur.core s.cur.slot t.seq) = none →
    (inc = false → (operand s t i 1).toNat < 2 ^ 32 ∧ op = .msg (operand s t i 1).toNat) →
    (inc = true → ∃ g, issueSecond z (ctxOf s t i) (operand s t i 1) = .inr g ∧ op = .inc g) →
    let m : Arm := { who := whoOf s.cur.core t, flag := r, n := n, op := op }
    let v := leNat (readJudged z1 (whoOf s.cur.core t) r ph 8)
    let here := onHost z (whoOf s.cur.core t) r = false ∧ reachesHome s t z r 8 .read z1 ph
    (onHost z (whoOf s.cur.core t) r = true → exec i s = .next (ended s t i (answered s o.rd 2 z))) ∧
    (here → reached v n = true → exec i s = .next (ended s t i (answered s o.rd 1 (fireArm z1 m)))) ∧
    (here → reached v n = false → eddyUsed z1 s.cur.core < 64 → armRoom z1 ph = true →
      exec i s = .next (ended s t i (answered s o.rd 0 { z1 with arms := z1.arms ++ [m] }))) ∧
    (here → reached v n = false → (64 ≤ eddyUsed z1 s.cur.core ∨ armRoom z1 ph = false) →
      exec i s = .next (ended s t i (answered s o.rd 2 z1)))) ∧
  (∀ (o : RrrOps) (s : State) (t : Thread) (r : Dword) (op : ArmOp) (inc : Bool) (z1 : State) (ph : Nat),
    let i := if inc then Instr.disarmInc o else Instr.disarmMsg o
    let z := settled s i
    let same := fun (m : Arm) => decide (m.who.core = s.cur.core ∧ m.op = op ∧ homeNow z1 m.who m.flag = some (homeOf z1 t.gslot ph))
    Ready s t i → issueAddr s.cur.core (operand s t i 0) 8 8 = .inr r → reachesHome s t z r 8 .read z1 ph →
    (inc = false → op = .msg (operand s t i 1).toNat) → (inc = true → ∃ g, issueSecond z (ctxOf s t i) (operand s t i 1) = .inr g ∧ op = .inc g) →
    (∀ m, z1.arms.find? same = some m → exec i s = .next (ended s t i (answered s o.rd 0 { z1 with arms := z1.arms.erase m }))) ∧
    (z1.arms.find? same = none → exec i s = .next (ended s t i (answered s o.rd 1 z1)))) ∧
  (∀ (o : RrrOps) (s : State) (t : Thread) (inc : Bool) (c : Nat), let i := if inc then Instr.armInc o else Instr.disarmInc o
    Ready s t i → (∃ r, issueAddr s.cur.core (operand s t i 0) 8 8 = .inr r) → issueSecond (settled s i) (ctxOf s t i) (operand s t i 1) = .inl c →
    exec i s = .next (takeTrap (settled s i) s.cur.core s.cur.slot (trapOf s t clsAccess c (operand s t i 1) 0)))

/-- R64, R65, R254, R255: `bar.arrive` counts an arrival towards PHASE, or towards PHASE + 1 once its core's arrivals are in, and gives the phase;
`bar.wait` ends where PHASE has passed; `bar.test` gives the distance. A unit that is disabled or another crew's traps. -/
def Sys2Proof.Rules.ReelBarriers : Prop :=
  (∀ (o : BarOps) (s : State) (t : Thread), Ready s t (.barArrive o) →
    let z := settled s (.barArrive o)
    let k := o.k.val
    let c := s.cur.core
    let put := fun (z : State) (r : Reel) => modCore z c (fun x => { x with reel := x.reel.setIfInBounds k r })
    ∀ r, reelUsable z (ctxOf s t (.barArrive o)) k = some r →
      let ph := r.reg.toNat / 2 ^ 32 % 2 ^ 16
      let per := r.reg.toNat / 2 ^ 26 % 16 + 1
      (r.now + 1 < per → exec (.barArrive o) s = .next (ended s t (.barArrive o)
        (modT (put z { r with now := r.now + 1 }) c s.cur.slot (fun u => writeG u o.g (dw ph))))) ∧
      (r.now + 1 = per → exec (.barArrive o) s = .next (ended s t (.barArrive o)
        (modT (sendReel (put z { r with now := r.now + 1 }) c k r ph) c s.cur.slot (fun u => writeG u o.g (dw ph))))) ∧
      (per ≤ r.now → r.next + 1 < per → exec (.barArrive o) s = .next (ended s t (.barArrive o)
        (modT (put z { r with next := r.next + 1 }) c s.cur.slot (fun u => writeG u o.g (dw ((ph + 1) % 2 ^ 16)))))) ∧
      (per ≤ r.now → r.next + 1 = per → exec (.barArrive o) s = .next (ended s t (.barArrive o)
        (modT (sendReel (put z { r with next := r.next + 1 }) c k r (ph + 1)) c s.cur.slot (fun u => writeG u o.g (dw ((ph + 1) % 2 ^ 16)))))) ∧
      (per ≤ r.now → per ≤ r.next → mayPark t (.barArrive o) → exec (.barArrive o) s = .next (parks s t (.barArrive o) z (.barArrive k ph)))) ∧
  (∀ (o : BarOps) (arrive : Bool) (s : State) (t : Thread), let i := if arrive then Instr.barArrive o else Instr.barWait o
    Ready s t i → reelUsable (settled s i) (ctxOf s t i) o.k.val = none →
    exec i s = .next (takeTrap (settled s i) s.cur.core s.cur.slot (trapOf s t clsIllegal 3 0 (baseAux s)))) ∧
  (∀ (o : BarOps) (s : State) (t : Thread), Ready s t (.barWait o) →
    let z := settled s (.barWait o)
    ∀ r, reelUsable z (ctxOf s t (.barWait o)) o.k.val = some r →
      let p := (operand s t (.barWait o) 0).toNat % 2 ^ 16
      let gone := (r.reg.toNat / 2 ^ 32 % 2 ^ 16 + 2 ^ 16 - p) % 2 ^ 16
      (1 ≤ gone → gone ≤ 32767 → exec (.barWait o) s = .next (ended s t (.barWait o) z)) ∧
      (¬ (1 ≤ gone ∧ gone ≤ 32767) → mayPark t (.barWait o) → exec (.barWait o) s = .next (parks s t (.barWait o) z (.barWait o.k.val p)))) ∧
  (∀ (o : BarTestOps) (s : State) (t : Thread), Ready s t (.barTest o) →
    (∀ r, reelUsable s (ctxOf s t (.barTest o)) o.k.val = some r → exec (.barTest o) s = .next (retired s t (.barTest o) (fun u =>
      writeG u o.rd (dw ((r.reg.toNat / 2 ^ 32 % 2 ^ 16 + 2 ^ 16 - (operand s t (.barTest o) 0).toNat % 2 ^ 16) % 2 ^ 16))))) ∧
    (reelUsable s (ctxOf s t (.barTest o)) o.k.val = none → exec (.barTest o) s = .next (trapped s t clsIllegal 3 0 (baseAux s)))) ∧
  (∀ (s : State) (k : Ctx) (u : Nat) (r : Reel), reelUsable s k u = some r ↔
    (getCore s k.c).reel[u]? = some r ∧ r.reg.toNat / 2 ^ 63 = 1 ∧ r.owner = some k.t.crew)

/-- R242, R256, R259, R260: `grow` adds groups and answers with the count before, or with the reason of its refusal; `wsplit` hands half of the weight
to a thread of the domain; `ibx` takes the oldest record and parks on an empty inbox, `ibx.t` then gives zeros. -/
def Sys2Proof.Rules.GrowSplitInbox : Prop :=
  (∀ (o : GrowOps) (s : State) (t : Thread) (gs : Nat) (g : Grid), Ready s t (.grow o) → t.gslot = some gs →
    let z := settled s (.grow o)
    let n := (sourceAt s t (.grow o) 0 o.y).toNat
    gridOf z s.cur.core t = some g →
    (g.st = .faulted → exec (.grow o) s = .next (ended s t (.grow o) (answered s o.rd (dw (2 ^ 63 + 3 * 2 ^ 32 + g.gcount)) z))) ∧
    (g.st ≠ .faulted → (g.coloc || g.hdr.net) = true →
      exec (.grow o) s = .next (ended s t (.grow o) (answered s o.rd (dw (2 ^ 63 + 2 * 2 ^ 32 + g.gcount)) z))) ∧
    (g.st ≠ .faulted → (g.coloc || g.hdr.net) = false → 2 ^ 32 ≤ g.gcount + n →
      exec (.grow o) s = .next (ended s t (.grow o) (answered s o.rd (dw (2 ^ 63 + 2 ^ 32 + g.gcount)) z))) ∧
    (g.st ≠ .faulted → (g.coloc || g.hdr.net) = false → g.gcount + n < 2 ^ 32 → ∃ z1,
      exec (.grow o) s = .next (ended s t (.grow o) (answered s o.rd (dw g.gcount) z1)) ∧
        (gs < 255 → ∃ h, getGrid z1 s.cur.core.pkg gs = some h ∧ h.gcount = g.gcount + n))) ∧
  (∀ (o : WsplitOps) (s : State) (t : Thread), Ready s t (.wsplit o) →
    let z := settled s (.wsplit o)
    let b := (operand s t (.wsplit o) 0).toNat
    (∀ q, b < 16 → b ≠ s.cur.slot → getT z s.cur.core b = some q → t.domain ≠ 0 → q.domain = t.domain → 2 ≤ t.weight →
      exec (.wsplit o) s = .next (ended s t (.wsplit o) (modT (modT (modT z s.cur.core s.cur.slot (fun u => { u with weight := t.weight - t.weight / 2 }))
        s.cur.core b (fun u => { u with weight := u.weight + t.weight / 2 })) s.cur.core s.cur.slot (fun u => writeG u o.rd 0)))) ∧
    (b < 16 → (getT z s.cur.core b = none ∨ b = s.cur.slot ∨ t.domain = 0) →
      exec (.wsplit o) s = .next (ended s t (.wsplit o) (modT z s.cur.core s.cur.slot (fun u => writeG u o.rd 1))))) ∧
  (∀ (o : RdOps) (test : Bool) (s : State) (t : Thread), let i := if test then Instr.ibxT o else Instr.ibx o
    Ready s t i → let z := settled s i
    let put := fun (z : State) (d : List Dword) => modT z s.cur.core s.cur.slot (fun u =>
      (([o.rd, gPlus o.rd 1, gPlus o.rd 2, gPlus o.rd 3] : List GReg).zip d).foldl (fun u x => pushOut u (.g x.1) (.dword x.2) {} true) u)
    (∀ r l, (getCore z s.cur.core).inbox = r :: l →
      exec i s = .next (ended s t i (put (modCore z s.cur.core (fun x => { x with inbox := l })) [r.d0, r.d1, r.d2, r.d3]))) ∧
    ((getCore z s.cur.core).inbox = [] → test = true → exec i s = .next (ended s t i (put z [0, 0, 0, 0]))) ∧
    ((getCore z s.cur.core).inbox = [] → test = false → mayPark t i → exec i s = .next (parks s t i z .inbox)))

/-! ## System instructions (spec/06 R208, spec/15 R358 to R361, spec/17 R405 to R413) -/

namespace Sys2Proof.Machine

/-- The user special registers of R28 and R154 but sr.gcount, sr.fpc and sr.pool, for a thread of a compute core. -/
def userSr (s : State) (t : Thread) : List (Nat × Dword) :=
  let n := s.cur.core.n
  [(0, dw s.cur.slot), (1, dw t.tid), (2, dw (n % 16)), (3, dw n), (4, dw (n / 16 % 32)), (5, dw (n / 512)), (6, dw t.group), (8, dw s.cur.core.pkg),
   (9, dw t.weight), (10, dw t.domain), (11, t.slim), (13, dw (s.clock - ((getPkg s s.cur.core.pkg).dieRelease[n / 2048]?.getD 0)))]

/-- A register of a partition block as `srr` reads it (R359); the write-only ones read zero. -/
def blockRows (b : PBlock) : List (Nat × Dword) := [
  (0, b.pctl), (1, b.fpmap), (2, b.domtab), (3, b.heap), (4, b.shardtab), (5, b.trapq), (6, dw b.tqtail), (7, b.tqhead), (8, b.imgpool),
  (9, b.imgsize), (10, 0), (11, b.parea), (12, b.pasize), (13, b.pstat), (14, 0), (15, b.istat)]

/-- What an `srw` stores of v in a register of a partition block, its defined bits alone (R359): k, whether only while no grid is live, the value
and the block with it. -/
def blockStores (b : PBlock) (v : Dword) : List (Nat × Bool × PBlock) := [
  (2, true, { b with domtab := v &&& 0xFFFFFFFFFFFFFFC0#64 }), (3, true, { b with heap := dw (v.toNat % 2 ^ 32) }),
  (4, true, { b with shardtab := v &&& 0x0000FFFFFFFFFFC0#64 }), (5, true, { b with trapq := v &&& 0x000FFFFFFFFFFFC0#64 }),
  (7, false, { b with tqhead := dw (v.toNat % 2 ^ 32) }), (8, true, { b with imgpool := v &&& 0x0000FFFFFFFFFFC0#64 }),
  (9, true, { b with imgsize := v &&& 0xFFFFFFFFFFFFFFC0#64 }), (11, false, { b with parea := v &&& 0x0000FFFFFFFFFFC0#64 }),
  (12, false, { b with pasize := v &&& 0xFFFFFFFFFFFFFFC0#64 })]

/-- The partition block that FPMAP lets a fault processor use, and the register in it (R358). -/
def blockOpen (s : State) (num pid k : Nat) : Prop :=
  num = 256 + 32 * pid + k ∧ pid < 16 ∧ k < 32 ∧ (block s s.cur.core.pkg pid).fpmap.toNat % 2 ^ 16 / 2 ^ (s.cur.core.n - 8192) % 2 = 1

/-- What R405 asks of gB and gC where gC is a page address. -/
def pageOperands (s : State) (pid : Nat) (b c : Dword) (inval : Bool) : Prop :=
  b.toNat / 2 ^ 16 % 2 ^ 32 = 0 ∧ b.toNat % 2 ^ 16 ≠ 0xFFFF ∧
    b.toNat % 2 ^ 16 ≤ readDev s s.cur.core.pkg (transBlock s s.cur.core.pkg pid) 8 / 2 ^ 48 ∧ c.toNat % 2 ^ 16 = 0 ∧ c.toNat < 2 ^ 47 ∧
    (inval = false → b.toNat / 2 ^ 48 % 2 ^ 12 = 0)

end Sys2Proof.Machine

/-- R28, R37, R126, R154: `srr` gives each user special register its value; sr.fpc only once no result is outstanding. -/
def Sys2Proof.Rules.UserSpecialRegisters : Prop :=
  (∀ (o : SrOps) (s : State) (t : Thread) (x : Dword), Ready s t (.srr o) → s.cur.core.n < 8192 → (o.num, x) ∈ userSr s t →
    exec (.srr o) s = .next (retired s t (.srr o) (fun u => writeG u o.g x))) ∧
  (∀ (o : SrOps) (s : State) (t : Thread) (g : Grid), Ready s t (.srr o) → s.cur.core.n < 8192 → gridOf s s.cur.core t = some g →
    (o.num = 7 → exec (.srr o) s = .next (retired s t (.srr o) (fun u => writeG u o.g (dw g.gcount)))) ∧
    (∀ off, o.num = 14 → g.pools.find? (fun x => decide (x.1 = s.cur.core.n / 16)) = some (s.cur.core.n / 16, off) →
      exec (.srr o) s = .next (retired s t (.srr o) (fun u => writeG u o.g (dw (poolBase (s.cur.core.n / 16) + off))))) ∧
    (o.num = 14 → g.pools.find? (fun x => decide (x.1 = s.cur.core.n / 16)) = none →
      exec (.srr o) s = .next (retired s t (.srr o) (fun u => writeG u o.g 0)))) ∧
  (∀ (o : SrOps) (s : State) (t : Thread), Ready s t (.srr o) → o.num = 12 →
    (t.out = [] → exec (.srr o) s = .next (retired s t (.srr o) (fun u => writeG u o.g t.regs.fpc))) ∧
    (t.out ≠ [] → exec (.srr o) s = .next (heldAt s t (.srr o) .results))) ∧
  (∀ (o : SrOps) (s : State) (t : Thread) (r : Reel), Ready s t (.srr o) → s.cur.core.n < 8192 → 16 ≤ o.num → o.num < 20 →
    (getCore s s.cur.core).reel[o.num - 16]? = some r →
    exec (.srr o) s = .next (retired s t (.srr o) (fun u => writeG u o.g r.reg))) ∧
  (∀ (o : SrOps) (s : State) (t : Thread), Ready s t (.srw o) → o.num = 12 →
    (t.out = [] → exec (.srw o) s = .next (retired s t (.srw o) (fun u =>
      { u with regs := { u.regs with fpc := operand s t (.srw o) 0 &&& 0xFB#64 } }))) ∧
    (t.out ≠ [] → exec (.srw o) s = .next (heldAt s t (.srw o) .results)))

/-- R64, R65: an `srw` by the crew that owns a reel unit, to a rectangle of its group that holds the core, writes EN and the rectangle's fields; PHASE is
0 where EN rises, and kept otherwise; a change of the rectangle while EN is 1, a fall of EN while a thread of the core is parked on the unit, another
crew's write, and a core beyond the group trap. -/
def Sys2Proof.Rules.ReelRegisters : Prop :=
  ∀ (o : SrOps) (s : State) (t : Thread) (r : Reel), Ready s t (.srw o) → s.cur.core.n < 8192 → 16 ≤ o.num → o.num < 20 →
    let z := settled s (.srw o)
    let u := o.num - 16
    let c := s.cur.core
    let v := operand s t (.srw o) 0
    let row := v.toNat % 2 ^ 7
    let col := v.toNat / 2 ^ 7 % 2 ^ 6
    let h := v.toNat / 2 ^ 13 % 2 ^ 7 + 1
    let w := v.toNat / 2 ^ 20 % 2 ^ 6 + 1
    let inside := fun n : Nat => row ≤ meshRow n ∧ meshRow n < row + h ∧ col ≤ meshCol n ∧ meshCol n < col + w
    let was := r.reg.toNat / 2 ^ 63
    let en := v.toNat / 2 ^ 63
    (getCore z c).reel[u]? = some r →
    (r.owner ≠ some t.crew → exec (.srw o) s = .next (takeTrap z c s.cur.slot (trapOf s t clsIllegal 3 0 (baseAux s)))) ∧
    (r.owner = some t.crew → (128 < row + h ∨ 64 < col + w ∨ ¬ inside c.n ∨ was = 1 ∧ v.toNat % 2 ^ 30 ≠ r.reg.toNat % 2 ^ 30 ∨
        was = 1 ∧ en = 0 ∧ parkedOnReel (getCore z c) u = true) →
      exec (.srw o) s = .next (takeTrap z c s.cur.slot (trapOf s t clsIllegal 3 0 (baseAux s)))) ∧
    (r.owner = some t.crew → row + h ≤ 128 → col + w ≤ 64 → inside c.n → (was = 1 → v.toNat % 2 ^ 30 = r.reg.toNat % 2 ^ 30 ∧ (en = 0 → parkedOnReel (getCore z c) u = false)) →
      ((∃ n, n < 8192 ∧ inside n ∧ reelBound z (ctxOf s t (.srw o)) n = false) →
        ∃ a, exec (.srw o) s = .next (takeTrap z c s.cur.slot (trapOf s t clsAccess 9 a 0))) ∧
      ((∀ n, n < 8192 → inside n → reelBound z (ctxOf s t (.srw o)) n = true) → ∃ r', exec (.srw o) s = .next (ended s t (.srw o)
        (modCore z c (fun k => { k with reel := k.reel.setIfInBounds u r' }))) ∧
        r'.reg.toNat = en * 2 ^ 63 + (if was = 0 ∧ en = 1 then 0 else r.reg.toNat / 2 ^ 32 % 2 ^ 16) * 2 ^ 32 + v.toNat % 2 ^ 30 ∧
        r'.owner = r.owner ∧ (en = 0 → r'.now = 0 ∧ r'.next = 0)))

/-- R358, R359: the registers of a fault processor, and those of the partition blocks that FPMAP opens to it: what `srr` reads, and what `srw` writes;
a write to one that a live grid pins traps. -/
def Sys2Proof.Rules.PrivilegedRegisters : Prop :=
  (∀ (o : SrOps) (s : State) (t : Thread) (x : Dword), Ready s t (.srr o) → 8192 ≤ s.cur.core.n →
    (o.num, x) ∈ [(64, dw (s.cur.core.n - 8192)), (65, (getCore s s.cur.core).fpas), (66, dw (getCore s s.cur.core).mailbox.length),
      (67, (getCore s s.cur.core).timer)] →
    exec (.srr o) s = .next (retired s t (.srr o) (fun u => writeG u o.g x))) ∧
  (∀ (o : SrOps) (s : State) (t : Thread) (pid k : Nat) (x : Dword), Ready s t (.srr o) → 8192 ≤ s.cur.core.n → blockOpen s o.num pid k →
    (k, x) ∈ blockRows (block s s.cur.core.pkg pid) →
    exec (.srr o) s = .next (retired s t (.srr o) (fun u => writeG u o.g x))) ∧
  (∀ (o : SrOps) (s : State) (t : Thread), Ready s t (.srw o) → 8192 ≤ s.cur.core.n →
    let z := settled s (.srw o)
    let v := operand s t (.srw o) 0
    (o.num = 67 → exec (.srw o) s = .next (ended s t (.srw o) (modCore z s.cur.core (fun k => { k with timer := v })))) ∧
    (o.num = 65 → ∃ z1, exec (.srw o) s = .next (ended s t (.srw o) z1) ∧ (getCore z1 s.cur.core).fpas = dw (v.toNat % 2 ^ 20) ∧
      (∀ sl q, getT z s.cur.core sl = some q → getT z1 s.cur.core sl = some { q with pid := v.toNat / 2 ^ 16 % 2 ^ 4, asid := v.toNat % 2 ^ 16 })) ∧
    (∀ pid k idle b, blockOpen z o.num pid k → (k, idle, b) ∈ blockStores (block z s.cur.core.pkg pid) v →
      (idle = false ∨ partLive z s.cur.core.pkg pid = false →
        exec (.srw o) s = .next (ended s t (.srw o) (modBlock z s.cur.core.pkg pid (fun _ => b)))) ∧
      (idle = true → partLive z s.cur.core.pkg pid = true →
        exec (.srw o) s = .next (takeTrap z s.cur.core s.cur.slot (trapOf s t clsIllegal 3 0 (baseAux s))))) ∧
    (∀ pid k, blockOpen z o.num pid k → k ∈ [0, 1, 6, 13, 15] ∨ blockOpen z o.num pid k ∧ 16 ≤ k →
      exec (.srw o) s = .next (takeTrap z s.cur.core s.cur.slot (trapOf s t clsIllegal 3 0 (baseAux s)))))

/-- R361: `mbxs` appends to the mailbox it names and waits while that is full; `mbxr` takes the oldest dword and parks on an empty mailbox; `wfi` holds its
thread until the mailbox is not empty or the timer has been reached. -/
def Sys2Proof.Rules.Mailboxes : Prop :=
  (∀ (o : BcOps) (s : State) (t : Thread) (p f : Nat), Ready s t (.mbxs o) →
    let z := settled s (.mbxs o)
    let dst : CoreId := { pkg := if p = 0 then s.cur.core.pkg else p, n := 8192 + f }
    (operand s t (.mbxs o) 0).toNat = p * 2 ^ 48 + f → p < 2 ^ 12 → f < 16 → (dst.pkg = s.cur.core.pkg ∨ inJob z dst.pkg = true) →
    (route z s.cur.core.pkg dst.pkg).isSome = true →
    ((getCore z dst).mailbox.length < 64 → exec (.mbxs o) s = .next (ended s t (.mbxs o)
      (modCore z dst (fun k => { k with mailbox := k.mailbox ++ [operand s t (.mbxs o) 1] })))) ∧
    (64 ≤ (getCore z dst).mailbox.length → exec (.mbxs o) s = .next (heldIn s t (.mbxs o) z (.mailbox dst)))) ∧
  (∀ (o : BcOps) (s : State) (t : Thread), Ready s t (.mbxs o) →
    let b := operand s t (.mbxs o) 0
    (b.toNat / 2 ^ 60 ≠ 0 ∨ b.toNat % 2 ^ 48 / 2 ^ 4 ≠ 0) →
    exec (.mbxs o) s = .next (takeTrap (settled s (.mbxs o)) s.cur.core s.cur.slot (trapOf s t clsAccess 1 b 0))) ∧
  (∀ (o : RdOps) (s : State) (t : Thread), Ready s t (.mbxr o) →
    let z := settled s (.mbxr o)
    (∀ x l, (getCore z s.cur.core).mailbox = x :: l → exec (.mbxr o) s = .next (ended s t (.mbxr o)
      (answered s o.rd x (modCore z s.cur.core (fun k => { k with mailbox := l }))))) ∧
    ((getCore z s.cur.core).mailbox = [] → mayPark t (.mbxr o) → exec (.mbxr o) s = .next (parks s t (.mbxr o) z .mailbox))) ∧
  (∀ (o : BareOps) (s : State) (t : Thread), Ready s t (.wfi o) → 8192 ≤ s.cur.core.n →
    let k := getCore s s.cur.core
    let woken := k.mailbox ≠ [] ∨ k.timer ≠ 0 ∧
      k.timer.toNat ≤ s.clock - ((getPkg s s.cur.core.pkg).dieRelease[(s.cur.core.n - 8192) / 4]?.getD 0)
    (woken → exec (.wfi o) s = .next (retired s t (.wfi o) id)) ∧
    (¬ woken → exec (.wfi o) s = .next (heldAt s t (.wfi o) .wfi)))

/-- R405, R406, R413, R416 to R418: the seven operations of `tlbsd`, and how the requests that a port held go on: one by one in their order, as far as the first
that its thread or weir sends on itself.
It rests on the model's choices of log entries 54, 70 and 17 (the CAUSE 3 of its illegal-instruction traps). -/
def Obligations.TranslationShootdowns : Prop :=
  (∀ (o : BcOps) (s : State) (t : Thread) (i : Instr), Ready s t i → i ∈ [.tlbsdInval o, .tlbsdTransit o, .tlbsdLand o, .tlbsdDiscard o] →
    let z := settled s i
    let p := s.cur.core.pkg
    let pid := (getCore z s.cur.core).fpas.toNat / 2 ^ 16 % 2 ^ 4
    let b := operand s t i 0
    let va := (operand s t i 1).toNat
    let asid := b.toNat % 2 ^ 16
    pageOperands z pid b (operand s t i 1) (decide (i = .tlbsdInval o)) →
    let without := fun (lo hi : Nat) => modPkg z p (fun k =>
      { k with tlb := k.tlb.filter (fun e => decide (¬ (e.pid = pid ∧ e.asid = asid ∧ e.va < hi ∧ lo < e.va + pageSize e.big))) })
    (i = .tlbsdInval o → b.toNat / 2 ^ 60 = 0 →
      exec i s = .next (ended s t i (drainAll (without va (va + 2 ^ 16 * (b.toNat / 2 ^ 48 % 2 ^ 12 + 1)))))) ∧
    (i = .tlbsdInval o → b.toNat / 2 ^ 60 ≠ 0 → exec i s = .next (takeTrap z s.cur.core s.cur.slot (trapOf s t clsIllegal 3 0 (baseAux s)))) ∧
    (i = .tlbsdTransit o → (∃ x, transitAt z p pid asid va = some x ∧ x.landing = none) → exec i s = .next (ended s t i z)) ∧
    (i = .tlbsdTransit o → ∀ x q, transitAt z p pid asid va = some x → x.landing = some q → exec i s = .next (heldIn s t i z (.land pid asid x.va))) ∧
    (i = .tlbsdTransit o → transitAt z p pid asid va = none → ∀ st base big leaf, pageAt z p pid asid va = some (st, base, big, leaf) →
      exec i s = .next (ended s t i (drainAll (modPkg (without base (base + pageSize big)) p (fun k =>
        { k with transits := k.transits ++ [{ stack := st, pid := pid, asid := asid, va := base, big := big }] }))))) ∧
    (i = .tlbsdTransit o → transitAt z p pid asid va = none → pageAt z p pid asid va = none → exec i s = .next (ended s t i z)) ∧
    (i = .tlbsdLand o → t.woken.isSome = true → exec i s = .next (ended s t i z)) ∧
    (i = .tlbsdLand o → t.woken = none → transitAt z p pid asid va = none → exec i s = .next (ended s t i (without va (va + 2 ^ 16)))) ∧
    (i = .tlbsdLand o → t.woken = none → ∀ x, transitAt z p pid asid va = some x → x.landing.isSome = true →
      exec i s = .next (heldIn s t i z (.land pid asid x.va))) ∧
    (i = .tlbsdLand o → t.woken = none → ∀ x, transitAt z p pid asid va = some x → x.landing = none →
      let z1 := landOn (without x.va (x.va + pageSize x.big)) p x
      let waits := (getPkg z1 p).transits.any (fun y => decide (y.pid = pid ∧ y.asid = asid ∧ y.va = x.va) && y.landing.isSome)
      (waits = false → exec i s = .next (ended s t i z1)) ∧
      (waits = true → exec i s = .next (heldIn s t i (modT z1 s.cur.core s.cur.slot (fun u => { u with woken := some 0 })) (.land pid asid x.va)))) ∧
    (i = .tlbsdDiscard o → transitAt z p pid asid va = none → ∀ st base big at_ d, pageAt z p pid asid va = some (st, base, big, some (at_, d)) →
      t.woken = none → d / 2 ^ 59 % 2 = 1 → exec i s = .next (ended s t i z)) ∧
    (i = .tlbsdDiscard o → t.woken = none → transitAt z p pid asid va = none → ∀ st base big at_ d, pageAt z p pid asid va = some (st, base, big, some (at_, d)) →
      d / 2 ^ 59 % 2 = 0 → exec i s = .next (ended s t i (placeDiscard z p at_ d)) ∧
        (placeDiscard z p at_ d).mem = (writeNat z none (devPhys p at_) 8 (d + 2 ^ 59)).mem) ∧
    (i = .tlbsdDiscard o → t.woken = none → ∀ x, transitAt z p pid asid va = some x → ∃ u q t', exec i s = .next u ∧
      ((((getPkg z p).held.filter (fun y => decide (y.stack = x.stack))).length < 256 ∧ (getPkg u p).held = (getPkg z p).held ++ [q] ∧
          q.stack = x.stack) ∨
        (256 ≤ ((getPkg z p).held.filter (fun y => decide (y.stack = x.stack))).length ∧ (getPkg u p).held = (getPkg z p).held ∧
          q ∈ (getPkg u p).retries)) ∧
      q.page = x.va ∧ q.req = .discard s.cur.core s.cur.slot pid asid va ∧
      getT u s.cur.core s.cur.slot = some t' ∧ t'.run = .held .port ∧ t'.pc = t.pc) ∧
    (i = .tlbsdDiscard o → t.woken ≠ none → exec i s = .next (ended s t i z))) ∧
  (∀ (s : State) (q : PortReq) (c : CoreId) (slot pid asid va : Nat), q.req = .discard c slot pid asid va →
    (transitAt s c.pkg pid asid va = none →
      resend s q = drainAll (modT (discardPage s c.pkg pid asid va) c slot (fun u => { u with run := .ready, woken := some 0 }))) ∧
    (∀ x, transitAt s c.pkg pid asid va = some x → resend s q = drainAll (putHeld s c.pkg q).1)) ∧
  (∀ (s : State) (p : Nat) (x : Transit), let k := getPkg s p
    let mine := fun q : PortReq => decide (q.stack = x.stack ∧ q.pid = x.pid ∧ q.asid = x.asid ∧ q.page = x.va)
    let open_ := modPkg s p (fun k => { k with
      transits := k.transits.filter (fun y => decide (y ≠ x)), held := k.held.filter (fun q => !mine q), retries := k.retries.filter (fun q => !mine q) })
    let kept := fun z => modPkg z p (fun j => { j with retries := j.retries ++ k.retries.filter mine })
    ((∀ q ∈ k.held.filter mine, (∀ c slot seq, q.req ≠ .issue c slot seq) ∧ ∀ w, q.req ≠ .weir w) →
      landOn s p x = kept ((k.held.filter mine).foldl resend open_)) ∧
    (∀ q l, k.held.filter mine = q :: l → awaited open_ q = true → landOn s p x = kept (modPkg (readyFor open_ q) p (fun j => { j with
      transits := j.transits ++ [{ x with landing := some q.core }], held := j.held ++ q :: l })))) ∧
  (∀ (o : BcOps) (s : State) (t : Thread), Ready s t (.tlbsdRanges o) →
    let i := Instr.tlbsdRanges o
    let z := settled s i
    let pid := (getCore z s.cur.core).fpas.toNat / 2 ^ 16 % 2 ^ 4
    let b := operand s t i 0
    let asid := b.toNat % 2 ^ 16
    pageOperands z pid b 0 false → operand s t i 1 = 0 →
    let z1 := drainAll { z with hubs := z.hubs.map (fun x => if x.1.1 = s.cur.core.pkg then
      (x.1, { x.2 with ranges := x.2.ranges.filter (fun e => !(decide (e.pid = pid) && decide (e.asid = asid))) }) else x) }
    let waiting := ∃ q ∈ (getPkg z1 s.cur.core.pkg).held ++ (getPkg z1 s.cur.core.pkg).faults ++ (getPkg z1 s.cur.core.pkg).retries,
      q.pid = pid ∧ q.asid = asid ∧ q.since ≤ z.tick ∧ q.refused = false
    (t.woken = none → ¬ waiting → exec i s = .next (ended s t i z1)) ∧
    (t.woken = none → waiting →
      exec i s = .next (heldIn s t i (modT z1 s.cur.core s.cur.slot (fun u => { u with woken := some 0 })) (.ranges pid asid (z.tick + 1)))) ∧
    (t.woken ≠ none → exec i s = .next (ended s t i z))) ∧
  (∀ (o : BcOps) (refuse : Bool) (s : State) (t q : Thread) (w : FaultWait),
    let i := if refuse then Instr.tlbsdRefuse o else Instr.tlbsdResume o
    let z := settled s i
    let p := s.cur.core.pkg
    let tk := (operand s t i 1).toNat
    Ready s t i → (operand s t i 0).toNat % 2 ^ 60 = 0 → tk < 2 ^ 32 →
    (getPkg z p).waits.find? (fun w => decide (w.ticket = tk) && w.sent) = some w →
    let z1 := modPkg z p (fun k => { k with waits := k.waits.filter (fun x => decide (x.ticket ≠ tk)) })
    getT z1 w.core w.slot = some q → q.run = .held (.ticket tk) →
    ((refuse = false ∨ w.homePkg ≠ p ∨ w.homeFp + 8192 ≠ s.cur.core.n) →
      exec i s = .next (ended s t i (setT z1 w.core w.slot (some { q with run := .ready })))) ∧
    (refuse = true → w.homePkg = p → w.homeFp + 8192 = s.cur.core.n →
      exec i s = .next (ended s t i (takeTrap z1 w.core w.slot
        { cls := clsAccess, cause := 6, addr := w.addr, aux := 0, pc := q.pc, seg := q.seg, words := w.words })))) ∧
  (∀ (o : BcOps) (refuse : Bool) (s : State) (t : Thread) (q : PortReq),
    let i := if refuse then Instr.tlbsdRefuse o else Instr.tlbsdResume o
    let z := settled s i
    let p := s.cur.core.pkg
    let tk := (operand s t i 1).toNat
    Ready s t i → (operand s t i 0).toNat % 2 ^ 60 = 0 → tk < 2 ^ 32 → ticketPkg z p tk = some p →
    (getPkg z p).waits.find? (fun w => decide (w.ticket = tk) && w.sent) = none →
    (getPkg z p).faults.find? (fun r => decide (r.ticket = some tk)) = some q →
    exec i s = .next (ended s t i (answerPort z p q refuse)) ∧
    ((∀ x ∈ (getPkg z p).faults, x ≠ q → x.core ≠ q.core ∨ x.page ≠ q.page) →
      let r := { q with ticket := none }
      let z1 := modPkg z p (fun k => { k with faults := k.faults.filter (fun x => decide (x ≠ q)), retries := k.retries.filter (fun x => !q.same x) })
      let kept := fun y => modPkg y p (fun k => { k with retries := k.retries ++ (getPkg z p).retries.filter q.same })
      (refuse = false → awaited z1 r = false → answerPort z p q refuse = kept (resend z1 r)) ∧
      (refuse = false → awaited z1 r = true → answerPort z p q refuse = kept (modPkg (readyFor z1 r) p (fun k => { k with faults := k.faults ++ [r] }))) ∧
      (∀ id x, refuse = true → q.req = .item id → z1.items.find? (fun y => decide (y.id = id)) = some x →
        answerPort z p q refuse = kept (itemFail z1 x 2))))

/-! ## The matrix unit (spec/10) -/

namespace Sys2Proof.Machine

/-- R298, R300: row, its major, and its MOD. -/
noncomputable def mmaRows : List ((MmaOps → Instr) × Nat × (MmaOps → Nat)) := [
  (.mma, 0, fun o => if o.half then 1 else 0), (.mmaMx, 1, fun _ => 0), (.mmsrMinplus, 3, fun _ => 0), (.mmsrMaxtimes, 3, fun _ => 1),
  (.mmsrOrand, 3, fun _ => 2)]

noncomputable def mmaIntRows : List ((MmaIOps → Instr) × Nat) := [(.mmaI8, 0), (.mmaI4, 1)]

/-- The narrow format that bits [6:4] of a descriptor pick (R296). -/
def pickedNf (t : Thread) (d : Dword) : Half := t.regs.nf.toList.getD (d.toNat / 2 ^ 4 % 2 ^ 3) 0

/-- What issue asks of a product (R296, R298, R300, R301): for major 1 usable formats of one width, panels within the own scratchpad, R up to MAXROWS
for A and zero for B, and with RING a co-resident grid. -/
def productFits (z : State) (s : State) (t : Thread) (major mod : Nat) (da : Dword) (b : Option Dword) : Prop :=
  ∃ w, (major = 1 → ∃ f, nfFmt (pickedNf t da) = some f ∧ f.width = w ∧ ∀ d, b = some d → ∃ g, nfFmt (pickedNf t d) = some g ∧ g.width = w) ∧
    (major ≠ 1 → w = 8 ∧ da.toNat / 2 ^ 4 % 2 ^ 3 = 0 ∧ ∀ d, b = some d → d.toNat / 2 ^ 4 % 2 ^ 3 = 0) ∧
    (ownSpad s.cur.core (da &&& 0xFFFFFFFFFFFFFF80#64) (geoOf major mod w).bytes).isSome = true ∧
    (∀ d, b = some d → (ownSpad s.cur.core (d &&& 0xFFFFFFFFFFFFFF80#64) (geoOf major mod w).bytes).isSome = true ∧ d.toNat % 2 ^ 4 = 0) ∧
    da.toNat % 2 ^ 4 + 1 ≤ (getCore z s.cur.core).maxRows ∧ (b = none → coResident z s.cur.core t = true)

/-- A command of the issuing thread in the queue (R291). -/
def cmdOf (s : State) (t : Thread) (tile seq : Nat) (op : MOp) (da db : Dword) (nfA nfB : Half) : MCmd :=
  { who := whoOf s.cur.core t, slot := s.cur.slot, seq := seq, remote := none, tile := tile, op := op, da := da, db := db, nfA := nfA, nfB := nfB,
    started := false, res := none }

/-- The instruction completes with its command at the end of the queue of 8, and with f done to its thread. -/
def commands (s : State) (z : State) (m : MCmd) (f : Thread → Thread) : State :=
  modCore (modT z s.cur.core s.cur.slot f) s.cur.core (fun k => { k with mq := k.mq ++ [m] })

/-- The queue has room, and no other thread of the core waits for it longer (R291). -/
def queueOpen (s : State) (t : Thread) (z : State) : Prop :=
  (getCore z s.cur.core).mq.length < 8 ∧ lineTaken (getCore z s.cur.core) s.cur.slot t .mqueue = false

/-- It waits for room there, in its place (R291). -/
def queueHeld (s : State) (t : Thread) (i : Instr) (z : State) : State := heldIn s t i z .mqueue

/-- The tile has a result outstanding (R147). -/
def awaitsTile (m : MReg) (u : Thread) : Thread :=
  { u with out := u.out ++ [{ seq := u.seq, dst := .t m, val := .none, flags := {}, ready := false, staleBy := none }] }

/-- The second descriptor of a product. -/
def panelB (s : State) (t : Thread) (i : Instr) : Option GReg → Option Dword
  | some _ => some (operand s t i 1)
  | none => none

end Sys2Proof.Machine

/-- R291, R296, R298, R300 to R303, R312: a matrix command joins the queue of its core at issue, in the order of issue, and waits while that holds 8. A
drain first passes the checks of a posted item (R223).
It rests on the model's choices of log entries 40 and 17 (the CAUSE 3 of its illegal-instruction traps). -/
def Obligations.MatrixCommands : Prop :=
  (∀ row ∈ mmaRows, ∀ (o : MmaOps) (s : State) (t : Thread), Ready s t (row.1 o) →
    let i := row.1 o
    let z := settled s i
    let da := operand s t i 0
    let b := panelB s t i o.b
    productFits z s t row.2.1 (row.2.2 o) da b →
    let m := cmdOf s t o.t.val t.seq (.product row.2.1 ((if o.z then 1 else 0) + if o.b = none then 2 else 0) (row.2.2 o)) da (b.getD 0)
      (if row.2.1 = 1 then pickedNf t da else 0) (match b with | some d => if row.2.1 = 1 then pickedNf t d else 0 | none => 0)
    (queueOpen s t z → exec i s = .next (ended s t i (commands s z m (awaitsTile o.t)))) ∧
    (¬ queueOpen s t z → exec i s = .next (queueHeld s t i z))) ∧
  (∀ row ∈ mmaIntRows, ∀ (o : MmaIOps) (s : State) (t : Thread), Ready s t (row.1 o) →
    let i := row.1 o
    let z := settled s i
    let da := operand s t i 0
    let b := panelB s t i o.b
    productFits z s t 2 row.2 da b →
    let m := cmdOf s t o.t.val t.seq (.product 2 ((if o.z then 1 else 0) + (if o.b = none then 2 else 0) + (if o.sat then 4 else 0) +
      (if o.sa then 8 else 0) + if o.sb then 16 else 0) row.2) da (b.getD 0) 0 0
    (queueOpen s t z → exec i s = .next (ended s t i (commands s z m (awaitsTile o.t)))) ∧
    (¬ queueOpen s t z → exec i s = .next (queueHeld s t i z))) ∧
  (∀ (o : TileOps) (s : State) (t : Thread), Ready s t (.mzero o) →
    let z := settled s (.mzero o)
    (queueOpen s t z →
      exec (.mzero o) s = .next (ended s t (.mzero o) (commands s z (cmdOf s t o.t.val t.seq .zero 0 0 0 0) (awaitsTile o.t)))) ∧
    (¬ queueOpen s t z → exec (.mzero o) s = .next (queueHeld s t (.mzero o) z))) ∧
  (∀ (o : MloadOps) (s : State) (t : Thread), Ready s t (.mload o) →
    let z := settled s (.mload o)
    let a := operand s t (.mload o) 0
    (a.toNat % 128 ≠ 0 → exec (.mload o) s = .next (takeTrap z s.cur.core s.cur.slot (trapOf s t clsAccess 4 a 0))) ∧
    (a.toNat % 128 = 0 → ownSpad s.cur.core a 1024 = none →
      exec (.mload o) s = .next (takeTrap z s.cur.core s.cur.slot (trapOf s t clsAccess 1 a 0))) ∧
    (a.toNat % 128 = 0 → (ownSpad s.cur.core a 1024).isSome = true → queueOpen s t z →
      exec (.mload o) s = .next (ended s t (.mload o) (commands s z (cmdOf s t o.t.val t.seq .load a 0 0 0) (awaitsTile o.t)))) ∧
    (a.toNat % 128 = 0 → (ownSpad s.cur.core a 1024).isSome = true → ¬ queueOpen s t z →
      exec (.mload o) s = .next (queueHeld s t (.mload o) z))) ∧
  (∀ (o : MdrainOps) (add : Bool) (s : State) (t : Thread) (a f : Dword),
    let i := if add then Instr.mdrainAdd o else Instr.mdrain o
    let z := settled s i
    Ready s t i → postable s i (operand s t i 0) (flagAt s t i 1 o.flag) 1024 32 a f →
    let op := MOp.drain (if add then 1 else 0) o.note false (if add ∧ o.i32 = true then 1 else 0) a f
    (queueOpen s t z → exec i s = .next (ended s t i
      (commands s { z with itemSeq := z.itemSeq + 1 } (cmdOf s t o.t.val z.itemSeq op a f 0 0) id))) ∧
    (¬ queueOpen s t z → exec i s = .next (queueHeld s t i z))) ∧
  (∀ (o : MdrainQOps) (s : State) (t : Thread) (a f : Dword), Ready s t (.mdrainQ o) →
    let i := Instr.mdrainQ o
    let z := settled s i
    let p := operand s t i 1
    p.toNat % 128 = 0 → (ownSpad s.cur.core p 128).isSome = true → postable s i (operand s t i 0) 0 256 32 a f →
    (queueOpen s t z → exec i s = .next (ended s t i
      (commands s { z with itemSeq := z.itemSeq + 1 } (cmdOf s t o.t.val z.itemSeq (.drain 2 o.note o.u 0 a p) a p 0 0) id))) ∧
    (¬ queueOpen s t z → exec i s = .next (queueHeld s t i z))) ∧
  (∀ (o : MringOps) (s : State) (t : Thread), Ready s t (.mring o) →
    let i := Instr.mring o
    let z := settled s i
    let d := operand s t i 0
    let bytes := [1024, 1056, 1088, 1600].getD o.cls.val 0
    let width := [0, 8, 4, 6].getD o.cls.val 0
    (coResident z s.cur.core t = false → exec i s = .next (takeTrap z s.cur.core s.cur.slot (trapOf s t clsIllegal 3 0 (baseAux s)))) ∧
    (coResident z s.cur.core t = true → (ownSpad s.cur.core (d &&& 0xFFFFFFFFFFFFFF80#64) bytes).isSome = true → d.toNat % 2 ^ 4 = 0 →
      (o.cls = 0 → d.toNat / 2 ^ 4 % 2 ^ 3 = 0) → (o.cls ≠ 0 → ∃ f, nfFmt (pickedNf t d) = some f ∧ f.width = width) →
      (queueOpen s t z →
        exec i s = .next (ended s t i (commands s z (cmdOf s t 8 0 (.ring o.cls.val) d 0 (if o.cls = 0 then 0 else pickedNf t d) 0) id))) ∧
      (¬ queueOpen s t z → exec i s = .next (queueHeld s t i z)))) ∧
  (∀ (o : BareOps) (s : State) (t : Thread) (pass : Bool),
    let i := if pass then Instr.mpass o else Instr.mringRecv o
    let z := settled s i
    Ready s t i →
    (coResident z s.cur.core t = false → exec i s = .next (takeTrap z s.cur.core s.cur.slot (trapOf s t clsIllegal 3 0 (baseAux s)))) ∧
    (coResident z s.cur.core t = true → pass = true → (getCore z { s.cur.core with n := downstream s.cur.core.n }).tenancy ≠ t.gslot →
      crewOff z s.cur.core.pkg (downstream s.cur.core.n) t.gslot = false → ∃ x, exec i s = .next (takeTrap z s.cur.core s.cur.slot (trapOf s t clsAccess 9 x 0))) ∧
    (coResident z s.cur.core t = true → (pass = true → (getCore z { s.cur.core with n := downstream s.cur.core.n }).tenancy = t.gslot ∨
        crewOff z s.cur.core.pkg (downstream s.cur.core.n) t.gslot = true) →
      (queueOpen s t z →
        exec i s = .next (ended s t i (commands s z (cmdOf s t 8 0 (if pass then .pass else .ringRecv) 0 0 0 0) id))) ∧
      (¬ queueOpen s t z → exec i s = .next (queueHeld s t i z))))

/-- R306 to R309, R313, R314: waits for tile commands, tile reads, remote commands and grants, and the capability and narrow-format registers. -/
def Sys2Proof.Rules.MatrixRegisters : Prop :=
  (∀ (o : TileOps) (s : State) (t : Thread), Ready s t (.mwait o) →
    let pend := ∃ m ∈ (getCore s s.cur.core).mq, m.slot = s.cur.slot ∧ m.remote = none ∧ m.tile = o.t.val
    (¬ pend → exec (.mwait o) s = .next (retired s t (.mwait o) id)) ∧
    (pend → exec (.mwait o) s = .next (heldAt s t (.mwait o) (.tiles (some o.t))))) ∧
  (∀ (o : BareOps) (s : State) (t : Thread), Ready s t (.mwaitAll o) →
    let pend := ∃ m ∈ (getCore s s.cur.core).mq, m.slot = s.cur.slot ∧ m.remote = none
    (¬ pend → exec (.mwaitAll o) s = .next (retired s t (.mwaitAll o) id)) ∧
    (pend → exec (.mwaitAll o) s = .next (heldAt s t (.mwaitAll o) (.tiles none)))) ∧
  (∀ (o : MrdOps) (s : State) (t : Thread), Ready s t (.mrd o) →
    (∀ m ∈ (getCore s s.cur.core).mq, ¬ (m.slot = s.cur.slot ∧ m.tile = o.t.val)) →
    exec (.mrd o) s = .next (retired s t (.mrd o) (fun u => writeV u o.v (ofElems 32 ((List.range 32).map (fun l =>
      if bitOf (lanesOf t o.pre) l then t.regs.t[o.t].toNat / 2 ^ (32 * (32 * o.h.val + l)) % 2 ^ 32 else elem 32 (readV s.tick t o.v) l)))))) ∧
  (∀ (o : BcOps) (s : State) (t : Thread) (r : Dword) (z1 : State) (ph : Nat) (host : Bool) (f : Dword), Ready s t (.mcmd o) →
    let i := Instr.mcmd o
    let z := settled s i
    let b := (operand s t i 0).toNat
    b < 8192 → coreIn z s.cur.core.pkg t.pid b = true →
    ((getCore z { s.cur.core with n := b }).tenancy = t.gslot ∨ crewOff z s.cur.core.pkg b t.gslot = true) →
    (operand s t i 1).toNat % 32 = 0 → ownSpad s.cur.core (operand s t i 1) 32 = some r →
    judge z (whoOf s.cur.core t) r 32 .read = (z1, .ok ph host) →
    let x := readNat z1 t.gslot ph 32
    issueFlag z1 s.cur.core (dw (x / 2 ^ 192 % 2 ^ 64)) = .inr f →
    (itemRoom z1 s.cur.core = true → ∃ m, exec i s = .next (ended s t i { z1 with remotes := z1.remotes ++ [m], itemSeq := z1.itemSeq + 1 }) ∧
      m.no = z1.itemSeq ∧ m.who = whoOf s.cur.core t ∧ m.target = { s.cur.core with n := b } ∧ m.key = x % 2 ^ 32 ∧ m.major = x / 2 ^ 32 % 2 ^ 8 ∧
      m.func = x / 2 ^ 40 % 2 ^ 8 ∧ m.mod = x / 2 ^ 48 % 2 ^ 8 ∧ m.tile = x / 2 ^ 56 % 2 ^ 3 ∧ m.da.toNat = x / 2 ^ 64 % 2 ^ 64 ∧
      m.db.toNat = x / 2 ^ 128 % 2 ^ 64 ∧ m.flag = f) ∧
    (itemRoom z1 s.cur.core = false → exec i s = .next (heldIn s t i z1 .items))) ∧
  (∀ (o : RrrOps) (s : State) (t : Thread), Ready s t (.mgrant o) →
    let i := Instr.mgrant o
    let b := (operand s t i 0).toNat
    let m := (operand s t i 1).toNat
    (2 ^ 32 ≤ b ∨ 2 ^ t.allot.a ≤ m % 2 ^ 8 ∨ 2 ^ 8 ≤ m → exec i s = .next (trapped s t clsIllegal 3 0 (baseAux s))) ∧
    (b < 2 ^ 32 → m < 2 ^ 8 → m < 2 ^ t.allot.a → (∀ x, (getCore s s.cur.core).grant = some x → x.slot = s.cur.slot ∧ x.away = none) →
      exec i s = .next (ended s t i (modT (modCore s s.cur.core (fun k =>
        { k with grant := if m = 0 then none else some { slot := s.cur.slot, key := b, mask := m, away := none } }))
        s.cur.core s.cur.slot (fun u => writeG u o.rd 0)))) ∧
    (b < 2 ^ 32 → m < 2 ^ 8 → m < 2 ^ t.allot.a → ∀ x, (getCore s s.cur.core).grant = some x → x.slot ≠ s.cur.slot ∨ x.away ≠ none →
      exec i s = .next (retired s t i (fun u => writeG u o.rd 1)))) ∧
  (∀ (o : RdOps) (s : State) (t : Thread), Ready s t (.mcap o) → (getCore s s.cur.core).maxRows < 2 ^ 8 →
    ∃ v : Dword, exec (.mcap o) s = .next (retired s t (.mcap o) (fun u => writeG u o.rd v)) ∧
      v.toNat % 2 ^ 8 = (getCore s s.cur.core).maxRows ∧ v.toNat / 2 ^ 8 % 2 ^ 4 = 8 ∧ v.toNat / 2 ^ 12 % 2 ^ 4 = 13 ∧ v.toNat / 2 ^ 16 = 1) ∧
  (∀ (o : MfmtOps) (s : State) (t : Thread), Ready s t (.mfmt o) →
    exec (.mfmt o) s = .next (retired s t (.mfmt o) (fun u =>
      { u with regs := { u.regs with nf := u.regs.nf.set o.nf ((operand s t (.mfmt o) 0).setWidth 16 &&& 0xFFFC#16) } }))) ∧
  (∀ (o : MfmtrOps) (s : State) (t : Thread), Ready s t (.mfmtr o) →
    exec (.mfmtr o) s = .next (retired s t (.mfmtr o) (fun u => writeG u o.rd (t.regs.nf[o.nf].setWidth 64))))

namespace Sys2Proof.Machine

/-- The first command of a core's queue that has not started, with those before it and after it. -/
def headCommand (s : State) (c : CoreId) (l1 : List MCmd) (m : MCmd) (l2 : List MCmd) (t : Thread) : Prop :=
  (getCore s c).mq = l1 ++ m :: l2 ∧ (∀ x ∈ l1, x.started = true) ∧ m.started = false ∧ getT s c m.slot = some t ∧ t.halted = false

/-- The tile as earlier commands leave it (R292): nothing started before it names it. -/
def tileFree (l1 : List MCmd) (m : MCmd) : Prop := ∀ x ∈ l1, ¬ (x.slot = m.slot ∧ x.tile = m.tile)

/-- Its own scratchpad range stands at ph, its lines full and its bytes without an error (R297, R422). -/
def fetchable (s : State) (c : CoreId) (t : Thread) (d : Dword) (n ph : Nat) : Prop :=
  operandAt c d n = some ph ∧ allFull s t.gslot [(ph, n)] = true ∧ poisoned s t.gslot ph n = false ∧
    ∀ i, i < n → poisoned s t.gslot (ph + i) 1 = false

/-- Element k of row r of a panel's bytes (R295). -/
def panelElem (g : Geo) (bs : List Byte) (r k : Nat) : Nat := leNat ((bs.drop (g.row * r)).take g.row) / 2 ^ (g.bits * k) % 2 ^ g.bits

/-- The value of an element of an MX panel: its code, and the scale of its block after the data (R115, R295). -/
def panelMx (g : Geo) (f : Fmt) (bs : List Byte) (r k : Nat) : FVal :=
  mxVal f (bs.getD (16 * g.row + r * g.scales + k / 32) 0).toNat (panelElem g bs r k)

/-- Element (i, j) of a product of R300: the incoming element c, or the identity where Z = 1, combined with row i of A and row j of B. -/
def productElem (major func mod : Nat) (g : Geo) (fa fb : Fmt) (c : Nat) (a b : List Byte) (i j : Nat) : Nat :=
  let ks := List.range g.k
  let z := decide (func % 2 = 1)
  let f := if mod = 0 then bf16 else fp16
  let n := if mod = 0 then 8 else 4
  let int := fun (signed : Bool) (x : Nat) => if signed then (BitVec.ofNat n x).toInt else (x : Int)
  let cf := if z then FVal.fin false 0 0 false else decodeFp fp32 c
  if major = 0 then matSum (cf :: ks.map (fun k => mulTerm (decodeFp f (panelElem g a i k)) (decodeFp f (panelElem g b j k))))
  else if major = 1 then matSum (cf :: ks.map (fun k => mulTerm (panelMx g fa a i k) (panelMx g fb b j k)))
  else if major = 2 then
    let sum := (ks.map (fun k => int (func.testBit 3) (panelElem g a i k) * int (func.testBit 4) (panelElem g b j k))).foldl (· + ·)
      (if z then 0 else (BitVec.ofNat 32 c).toInt)
    (BitVec.ofInt 32 (if func.testBit 2 then max (-2 ^ 31) (min (2 ^ 31 - 1) sum) else sum)).toNat
  else if mod = 2 then
    (if (z = false ∧ c ≠ 0) ∨ ∃ k ∈ ks, panelElem g a i k ≠ 0 ∧ panelElem g b j k ≠ 0 then 1 else 0)
  else ks.foldl (fun x k => (fpMinMax (decide (mod = 1)) fp32 x (semiTerm (decide (mod = 1)) (panelElem g a i k) (panelElem g b j k))).1)
    (if z then fp32.infCode (decide (mod = 1)) else c)

/-- The element of the tile that a command writes, as the commands before it left it (R292). -/
def tileBefore (t : Thread) (m : MCmd) (i j : Nat) : Nat := (t.regs.t.toList.getD m.tile 0).toNat / 2 ^ (32 * (16 * i + j)) % 2 ^ 32

/-- A signed byte of memory. -/
def sbyte (s : State) (t : Thread) (a : Nat) : Int := (readByte s t.gslot a).toInt

end Sys2Proof.Machine

/-- R291 to R293, R297, R300, R302, R303, R310 to R312: the unit starts its commands in order, and writes their tiles in order; `mzero`, `mload` and the
signed 8-bit product give their values element by element; the ring commands move the latches; a drain makes its item; a remote command enters the
queue of the core whose grant admits it. R300, R301: every product gives each element its Combine, with B from a panel or from the current latch, and
the canonical NaN under a latch that describes no panel of A's width. -/
def Sys2Proof.Rules.MatrixUnitSteps : Prop :=
  (∀ (s : State) (c : CoreId) (l1 l2 : List MCmd) (m : MCmd) (t : Thread), headCommand s c l1 m l2 t →
    let begun := fun (x : Tile) => modCore s c (fun k => { k with mq := l1 ++ { m with started := true, res := some x } :: l2 })
    let left := modCore s c (fun k => { k with mq := l1 ++ l2 })
    (m.op = .zero → exec (.matrixCommandStart c) s = .next (begun 0)) ∧
    (∀ ph, m.op = .load → m.remote = none → m.da.toNat % 128 = 0 → fetchable s c t m.da 1024 ph → ∃ x, exec (.matrixCommandStart c) s = .next (begun x) ∧
      ∀ e, e < 256 → x.toNat / 2 ^ (32 * e) % 2 ^ 32 = readNat s t.gslot (ph + 4 * e) 4) ∧
    (∀ (sat : Bool) (mod pa pb : Nat), m.op = .product 2 (24 + (if sat then 4 else 0)) mod → mod = 0 → m.remote = none → tileFree l1 m → m.tile < 8 →
      fetchable s c t (m.da &&& 0xFFFFFFFFFFFFFF80#64) 1024 pa → fetchable s c t (m.db &&& 0xFFFFFFFFFFFFFF80#64) 1024 pb →
      ∃ x, exec (.matrixCommandStart c) s = .next (begun x) ∧ ∀ i j, i < 16 → j < 16 →
        let old := (t.regs.t.toList.getD m.tile 0).toNat / 2 ^ (32 * (16 * i + j)) % 2 ^ 32
        let sum := ((List.range 64).map (fun k => sbyte s t (pa + 64 * i + k) * sbyte s t (pb + 64 * j + k))).foldl (· + ·)
          (BitVec.ofNat 32 old).toInt
        x.toNat / 2 ^ (32 * (16 * i + j)) % 2 ^ 32 =
          if m.da.toNat % 16 < i then old
          else (BitVec.ofInt 32 (if sat then max (-2 ^ 31) (min (2 ^ 31 - 1) sum) else sum)).toNat) ∧
    (∀ (major func mod pa : Nat) (bs : List Byte) (fb : Fmt), m.op = .product major func mod → major < 4 → m.remote = none → tileFree l1 m → m.tile < 8 →
      let fa := (nfFmt m.nfA).getD fp32
      let g := geoOf major mod fa.width
      (major = 1 → (nfFmt m.nfA).isSome = true) → fetchable s c t (m.da &&& 0xFFFFFFFFFFFFFF80#64) g.bytes pa →
      (func.testBit 1 = false → fb = (nfFmt m.nfB).getD fp32 ∧ (major = 1 → (nfFmt m.nfB).isSome = true ∧ fb.width = fa.width) ∧
        ∃ pb, fetchable s c t (m.db &&& 0xFFFFFFFFFFFFFF80#64) g.bytes pb ∧ bs = readBytes s t.gslot pb g.bytes) →
      (func.testBit 1 = true → bs.length = g.bytes ∧ ∃ l, (getCore s c).latCur = some l ∧ bs = l.bytes ∧
        (major = 1 → l.desc.bind nfFmt = some fb ∧ fb.width = fa.width)) →
      ∃ x, exec (.matrixCommandStart c) s = .next (begun x) ∧ ∀ i j, i < 16 → j < 16 → x.toNat / 2 ^ (32 * (16 * i + j)) % 2 ^ 32 =
        if m.da.toNat % 16 < i then tileBefore t m i j
        else productElem major func mod g fa fb (tileBefore t m i j) (readBytes s t.gslot pa g.bytes) bs i j) ∧
    (∀ (func mod pa : Nat) (l : Latch) (fa : Fmt), m.op = .product 1 func mod → func.testBit 1 = true → m.remote = none → tileFree l1 m → m.tile < 8 →
      nfFmt m.nfA = some fa → fetchable s c t (m.da &&& 0xFFFFFFFFFFFFFF80#64) (geoOf 1 mod fa.width).bytes pa → (getCore s c).latCur = some l →
      (∀ f, l.desc.bind nfFmt = some f → f.width ≠ fa.width) →
      ∃ x, exec (.matrixCommandStart c) s = .next (begun x) ∧ ∀ i j, i < 16 → j < 16 → x.toNat / 2 ^ (32 * (16 * i + j)) % 2 ^ 32 =
        if m.da.toNat % 16 < i then tileBefore t m i j else 0x7FC00000) ∧
    (∀ cls ph, m.op = .ring cls → fetchable s c t (m.da &&& 0xFFFFFFFFFFFFFF80#64) ([1024, 1056, 1088, 1600].getD cls 1600) ph →
      exec (.matrixCommandStart c) s = .next (modCore left c (fun k => { k with latCur := some {
        size := [1024, 1056, 1088, 1600].getD cls 1600
        bytes := readBytes s t.gslot ph ([1024, 1056, 1088, 1600].getD cls 1600)
        desc := if cls = 0 then none else some m.nfA } }))) ∧
    (∀ l, m.op = .ringRecv → (getCore s c).latInc = some l →
      exec (.matrixCommandStart c) s = .next (modCore left c (fun k => { k with latCur := some l, latInc := none }))) ∧
    (m.op = .ringRecv → (getCore s c).latInc = none → exec (.matrixCommandStart c) s = .next s) ∧
    (∀ l, m.op = .pass → (getCore s c).latCur = some l → (getCore s { c with n := downstream c.n }).latInc = none → downstream c.n ≠ c.n →
      netStopped s c.pkg (downstream c.n) t.gslot = false →
      ∃ u, exec (.matrixCommandStart c) s = .next u ∧ (getCore u { c with n := downstream c.n }).latInc = some l ∧
        (getCore u c).mq = l1 ++ l2 ∧ (getCore u c).latCur = some l) ∧
    (m.op = .pass → netStopped s c.pkg (downstream c.n) t.gslot = true → exec (.matrixCommandStart c) s = .next s) ∧
    (∀ note target f, m.op = .drain 0 note false 0 target f → tileFree l1 m → ∃ it,
      exec (.matrixCommandStart c) s = .next { left with items := s.items ++ [it] } ∧ it.id = m.seq ∧ it.addr = target ∧ it.flag = f ∧
        it.note = note ∧ it.op = .store ((List.range 32).map (fun k =>
          (32 * k, leBytes 32 ((t.regs.t.toList.getD m.tile 0).toNat / 2 ^ (256 * k))))) false)) ∧
  (∀ (s : State) (c : CoreId) (m : MCmd) (l : List MCmd) (t : Thread) (x : Tile), (getCore s c).mq = m :: l → m.started = true →
    m.remote = none → m.res = some x → getT s c m.slot = some t → m.slot < 16 → m.tile < 8 →
    ∃ u t', exec (.matrixTileWrite c) s = .next u ∧ (getCore u c).mq = l ∧ getT u c m.slot = some t' ∧
      t'.regs = { t.regs with t := t.regs.t.setIfInBounds m.tile x } ∧ (∀ o ∈ t'.out, o ∈ t.out)) ∧
  (∀ (s : State) (k : Nat) (r : RemoteCmd) (g : Grant) (t : Thread), s.remotes[k]? = some r →
    (∀ x ∈ s.remotes.take k, ¬ (x.who.core = r.who.core ∧ x.target = r.target)) →
    (getCore s r.target).grant = some g → getT s r.target g.slot = some t → (getCore s r.target).mq.length < 8 →
    let s1 := { s with remotes := s.remotes.eraseIdx k }
    (g.away = none → t.gslot = r.who.gslot → t.halted = false → g.key = r.key → g.mask / 2 ^ r.tile % 2 = 1 → r.malformed = false → r.major = 4 → r.func = 0 → r.mod = 0 → r.db = 0 →
      exec (.remoteCommandArrival k) s = .next (modCore s1 r.target (fun x => { x with mq := x.mq ++ [{
        who := r.who, slot := g.slot, seq := r.no, remote := some (r.block, r.flag), tile := r.tile, op := .zero, da := r.da, db := 0, nfA := 0,
        nfB := 0, started := false, res := none }] }))) ∧
    ((g.away ≠ none ∨ t.gslot ≠ r.who.gslot ∨ t.halted = true ∨ g.key ≠ r.key ∨ g.mask / 2 ^ r.tile % 2 = 0) →
      exec (.remoteCommandArrival k) s = .next (remoteFail s1 r.who 5 r.block r.flag r.no)))

/-! ## Engines (spec/11) -/

namespace Sys2Proof.Machine

/-- A thread's job (R320, R331, R336): its flag, its tag, and whether it notes its completion. -/
def jobOf (s : State) (t : Thread) (flag : Dword) (tag : Nat) (note : Bool) : Job :=
  { who := whoOf s.cur.core t, flag := flag, tag := tag, note := note, packet := none, failed := false, firstRec := none }

/-- The entry of a handle as a hub sees it (R326): its own copy, or the 64 bytes of the package's table. -/
def shardSeen (s : State) (t : Thread) (h : Nat) : Nat :=
  match aGet (getHub s s.cur.core.pkg (clusterOf s.cur.core.n)).shard h with
  | some e => e.toNat
  | none => readNat s none (devPhys s.cur.core.pkg (shardBase s s.cur.core.pkg t.pid + 64 * h)) 64

/-- What issue asks for the table itself (R326, R359): it exists, its entry lies in the partition, and its bytes are without an error. -/
def shardTable (s : State) (t : Thread) (h : Nat) : Prop :=
  let a := shardBase s s.cur.core.pkg t.pid + 64 * h
  shardBase s s.cur.core.pkg t.pid ≠ 0 ∧ devOk s s.cur.core.pkg t.pid a = true ∧ poisoned s none (devPhys s.cur.core.pkg a) 64 = false

/-- The rule of R326 for an entry e and four coordinates, written from its pseudocode: a cause, or package and address. -/
def shardRule (e : Nat) (c : List Nat) : Nat ⊕ Nat × Nat :=
  let n := e / 2 ^ 59 % 2 ^ 2 + 1
  let ext := fun k : Nat => e / 2 ^ (64 + 112 * k) % 2 ^ 32
  let b := fun k : Nat => e / 2 ^ (96 + 112 * k) % 2 ^ 32
  let l := fun k : Nat => e / 2 ^ (128 + 112 * k) % 2 ^ 32
  let p := fun k : Nat => e / 2 ^ (160 + 112 * k) % 2 ^ 16
  let pkg := e / 2 ^ 42 % 2 ^ 12 + ((List.range 4).map (fun k => c.getD k 0 / b k * p k)).sum
  let addr := e % 2 ^ 42 * 2 ^ 6 + ((List.range 4).map (fun k => c.getD k 0 % b k * l k)).sum
  if e / 2 ^ 63 % 2 = 0 then .inl 2
  else if shardOk e = false then .inl 3
  else if (List.range 4).any (fun k => if k < n then decide (ext k ≤ c.getD k 0) else decide (c.getD k 0 ≠ 0)) then .inl 1
  else if 4095 < pkg then .inl 4
  else if 0x800200000000 < addr + 2 ^ (e / 2 ^ 61 % 2 ^ 2) then .inl 5
  else .inr (pkg, addr)

/-- An access that a hub has translated under a handle (R106, R326). -/
def withShardAccess (s : State) (t : Thread) (op : AccOp) (strong : Bool) (os : OrdSc) (h : Nat) (u : Thread) : Thread :=
  { u with acc := u.acc ++ [{ accessOf s t op strong os with shard := some h }] }

/-- The bits of a flag address that an instruction without a flag has. -/
def optFlag (s : State) (t : Thread) (i : Instr) : Option GReg → Dword
  | some _ => operand s t i 1
  | none => 0

noncomputable def shardLoads : List ((ShardOps → Instr) × Bool) := [(.lds, false), (.ldso, true)]
noncomputable def shardStores : List ((ShardOps → Instr) × Bool) := [(.sts, false), (.stso, true)]
noncomputable def cfetchRows : List ((CfetchOps → Instr) × Bool) := [(.cfetch, false), (.cfetchNote, true)]
noncomputable def collRows : List ((CollOps → Instr) × Bool) := [(.collRun, false), (.collRunReload, true)]

/-- A block of an MX register as R340 sums it: scale and elements. -/
def baddqSum (f : Fmt) (rm : Rm) (x y : Vec) (b : Nat) : Nat × List Nat × Flags :=
  let w := f.width
  let value := fun (r : Vec) (j : Nat) => mxVal f (r.toNat / 2 ^ (8 * (120 + b)) % 2 ^ 8) (r.toNat / 2 ^ (32 * w * b + w * j) % 2 ^ w)
  mxPack f rm ((List.range 32).map (fun j => (addVal rm (value x j) (value y j)).1))

end Sys2Proof.Machine

/-- R318 to R320: `shape` seals a record that R319 allows, whatever lies above its fields, and traps on any other; a copy whose checks pass completes at
issue with the whole operation on its way, with WT a share of the thread's weight with it (R70), and waits where the core has 64 items. -/
def Sys2Proof.Rules.RecordsAndCopies : Prop :=
  (∀ (o : ShapeOps) (s : State) (t : Thread), Ready s t (.shape o) →
    let x := (readV s.tick t o.x).toNat % 2 ^ 496
    (layoutOk x = true → ∃ v : Vec, exec (.shape o) s = .next (retired s t (.shape o) (fun u => writeV u o.vd v)) ∧
      v.toNat % 2 ^ 496 = x ∧ v.toNat / 2 ^ 512 = 0 ∧ ∀ i, i < 16 → v.getLsbD (496 + i) =
        (((List.range 31).map (fun k => v.getLsbD (16 * k + i))).foldl xor ((0xA5C3 : Half).getLsbD i))) ∧
    (layoutOk x = false → exec (.shape o) s = .next (trapped s t clsIllegal 3 0 (baseAux s)))) ∧
  (∀ (o : CopyOps) (s : State) (t : Thread) (d r f : Dword), Ready s t (.copy o) →
    let i := Instr.copy o
    let z := settled s i
    let x := (readV z.tick t o.v).toNat % 2 ^ 512
    copyCheck z s.cur.core t.pid x (operand s t i 0) (operand s t i 1) (operand s t i 2) = .inr (d, r, f) →
    (itemRoom z s.cur.core = false → exec i s = .next (heldIn s t i z .items)) ∧
    (itemRoom z s.cur.core = true → sharesWeight s t i z (decide (x / 2 ^ 17 % 2 = 1)) (fun share z => ended s t i { z with
      copies := z.copies ++ [{
        id := z.itemSeq, job := jobOf s t f (x / 2 ^ 32 % 2 ^ 32) (decide (x / 2 ^ 18 % 2 = 1)), core := s.cur.core, rcd := BitVec.ofNat 512 x,
        dst := d, src := r, share := share, domain := t.domain }]
      itemSeq := z.itemSeq + 1 })))

/-- R325 to R328: a sharded access translates its coordinates by the rule of R326 and starts as an access to the element; a range fault traps with its
cause; `shinv` holds its thread, its result outstanding, with its request on the way to the root. -/
def Sys2Proof.Rules.ShardedAccesses : Prop :=
  (∀ (o : ShardOps) (i : Instr) (load strong : Bool) (s : State) (t : Thread),
    ((load = true ∧ (∃ row ∈ shardLoads, i = row.1 o ∧ strong = row.2)) ∨ (load = false ∧ ∃ row ∈ shardStores, i = row.1 o ∧ strong = row.2)) →
    Ready s t i →
    let h := operand s t i 0
    let c := [(operand s t i 1).toNat % 2 ^ 32, (operand s t i 1).toNat / 2 ^ 32, (operand s t i 2).toNat % 2 ^ 32, (operand s t i 2).toNat / 2 ^ 32]
    let e := shardSeen s t h.toNat
    let n := 2 ^ (e / 2 ^ 61 % 2 ^ 2)
    (2 ^ 16 ≤ h.toNat → exec i s = .next (trapped s t clsIllegal 3 0 (baseAux s))) ∧
    (h.toNat < 2 ^ 16 → shardBase s s.cur.core.pkg t.pid = 0 → exec i s = .next (trapped s t clsShard 2 h (operand s t i 1))) ∧
    (h.toNat < 2 ^ 16 → shardTable s t h.toNat → e < 2 ^ 512 → ∃ z, getT z s.cur.core s.cur.slot = some t ∧ z.tick = s.tick ∧ z.mem = s.mem ∧ z.itemSeq = s.itemSeq ∧
      (∀ cause, shardRule e c = .inl cause → exec i s = .next (takeTrap z s.cur.core s.cur.slot (trapOf s t clsShard cause h (operand s t i 1)))) ∧
      (∀ pkg addr r, shardRule e c = .inr (pkg, addr) → issueAddr s.cur.core (dw (pkg * 2 ^ 48 + addr)) n n = .inr r →
        (load = true → exec i s = .next (ended s t i (numbered (modT z s.cur.core s.cur.slot (fun u =>
          withShardAccess s t (.read [(r, n)] n (.scalar o.sx)) strong o.os h.toNat (awaiting s (.g o.rd) u)))))) ∧
        (load = false → exec i s = .next (ended s t i (numbered (modT z s.cur.core s.cur.slot (fun u =>
          withShardAccess s t (.write [(r, leBytes n (operand s t i 3).toNat)] n) strong o.os h.toNat u)))))))) ∧
  (∀ (o : RrrOps) (s : State) (t : Thread) (r : Dword) (z1 : State) (ph : Nat) (host : Bool), Ready s t (.shinv o) →
    let i := Instr.shinv o
    let z := settled s i
    (operand s t i 0).toNat < 2 ^ 16 → (operand s t i 1).toNat % 64 = 0 → ownSpad s.cur.core (operand s t i 1) 64 = some r →
    judge z (whoOf s.cur.core t) r 64 .read = (z1, .ok ph host) →
    let e := readNat z1 t.gslot ph 64
    (e / 2 ^ 63 % 2 = 1 → shardOk e = false → exec i s = .next (takeTrap z1 s.cur.core s.cur.slot (trapOf s t clsIllegal 3 0 (baseAux s)))) ∧
    ((e / 2 ^ 63 % 2 = 0 ∨ shardOk e = true) → exec i s = .next (modT (ended s t i {
      modT z1 s.cur.core s.cur.slot (fun u => pushOut u (.g o.rd) .none {} false) with
      shoots := z1.shoots ++ [{
        id := z1.itemSeq, who := whoOf s.cur.core t, slot := s.cur.slot, seq := t.seq, handle := (operand s t i 0).toNat, entry := BitVec.ofNat 512 e,
        atRoot := false, nodes := [], hubs := [], passed := false }]
      itemSeq := z1.itemSeq + 1 }) s.cur.core s.cur.slot (fun u => { u with run := .held (.shinv z1.itemSeq) }))))

/-- R329: `cfetch` of a resident segment is done at once; of another it starts the load, drops what it overlaps, and traps where it overlaps a segment in
use; with NOTE its completion leaves a record. -/
def Sys2Proof.Rules.OverlayFetches : Prop :=
  ∀ row ∈ cfetchRows, ∀ (o : CfetchOps) (s : State) (t : Thread) (g : Grid) (seg load size image : Nat) (f : Dword), Ready s t (row.1 o) →
    let i := row.1 o
    let z := settled s i
    let k := getCore z s.cur.core
    gridOf z s.cur.core t = some g → g.hdr.segs.find? (fun x => decide (x.1 = seg)) = some (seg, load, size, image) →
    (operand s t i 0).toNat = seg → 0 < seg → seg < 2 ^ 16 → issueFlag z s.cur.core (optFlag s t i o.flag) = .inr f →
    (itemRoom z s.cur.core = false → exec i s = .next (heldIn s t i z .items)) ∧
    (itemRoom z s.cur.core = true → isResident k seg = true →
      exec i s = .next (ended s t i (fetchDone (numbered z) (whoOf s.cur.core t) seg f row.2 z.itemSeq))) ∧
    (itemRoom z s.cur.core = true → isResident k seg = false → (busyRanges k).any (segsMeet (load, size)) = true →
      exec i s = .next (takeTrap z s.cur.core s.cur.slot (trapOf s t clsAccess 1 (operand s t i 0) 0))) ∧
    (itemRoom z s.cur.core = true → isResident k seg = false → (busyRanges k).any (segsMeet (load, size)) = false →
      exec i s = .next (ended s t i (modCore (numbered z) s.cur.core (fun x => { x with
        resident := x.resident.filter (fun y => decide (¬ (y.load < load + size ∧ load < y.load + y.size)))
        loads := x.loads ++ [{
          era := k.era, who := some (whoOf s.cur.core t), seg := { id := seg, load := load, size := size }, image := dw (g.khdr + image), pid := t.pid,
          asid := t.asid, flag := f, note := row.2, no := z.itemSeq }] }))))

/-- R330, R331, R336: an amplitude operation and a collective run start, with their blocks read at issue, once every check passes; the operation keeps its block
with the addresses resolved. -/
def Sys2Proof.Rules.EngineStarts : Prop :=
  (∀ (perm : Bool) (o : AmpOps) (s : State) (t : Thread) (r q u f : Dword) (z1 z2 z3 : State) (ph pq pu : Nat) (h1 : Bool),
    let i := if perm then Instr.ampPerm o else Instr.ampApply o
    let z := settled s i
    Ready s t i → (operand s t i 0).toNat % 64 = 0 → ownSpad s.cur.core (operand s t i 0) 64 = some r →
    judge z (whoOf s.cur.core t) r 64 .read = (z1, .ok ph h1) →
    let b := readNat z1 t.gslot ph 64
    ampAddrs z1 s.cur.core t.pid perm b = .inr (q, u, f) → reachesHome s t z1 q 64 .read z2 pq →
    let qr := leNat (readJudged z2 (whoOf s.cur.core t) q pq 64)
    (perm = true → reachesHome s t z2 u 64 .read z3 pu) → (perm = false → z3 = z2) →
    let ur := if perm then leNat (readJudged z3 (whoOf s.cur.core t) u pu 64) else 0
    (ampOk perm b qr ur = false → exec i s = .next (takeTrap z3 s.cur.core s.cur.slot (trapOf s t clsIllegal 3 0 (baseAux z3)))) ∧
    (ampOk perm b qr ur = true → itemRoom z3 s.cur.core = false → exec i s = .next (heldIn s t i z3 .items)) ∧
    (ampOk perm b qr ur = true → itemRoom z3 s.cur.core = true → exec i s = .next (ended s t i
      (modHub (numbered z3) s.cur.core.pkg (clusterOf s.cur.core.n) (fun h => { h with amps := h.amps ++ [{
        job := jobOf s t f (b / 2 ^ 448 % 2 ^ 32) (decide (b / 2 ^ 424 % 2 = 1)), no := z3.itemSeq, perm := perm, blk := ampBlock b q u f
        qlr := BitVec.ofNat 512 qr, uniRec := BitVec.ofNat 512 ur, doneGroups := [], failGroups := [] }] }))))) ∧
  (∀ row ∈ collRows, ∀ (o : CollOps) (s : State) (t : Thread) (a r f : Dword) (z1 : State) (ph : Nat) (host : Bool), Ready s t (row.1 o) →
    let i := row.1 o
    let z := settled s i
    (operand s t i 0).toNat % 32 = 0 → baseCheck z s.cur.core t.pid (operand s t i 0) = .inr a →
    (operand s t i 1).toNat % 128 = 0 → ownSpad s.cur.core (operand s t i 1) 128 = some r →
    judge z (whoOf s.cur.core t) r 128 .read = (z1, .ok ph host) →
    let b := readNat z1 t.gslot ph 128
    b / 2 ^ 608 % 2 ^ 32 < 2 → b / 2 ^ 640 = 0 → issueFlag z1 s.cur.core (dw (b / 2 ^ 512 % 2 ^ 64)) = .inr f → itemRoom z1 s.cur.core = true →
    exec i s = .next (ended s t i (modHub { z1 with itemSeq := z1.itemSeq + 1 } s.cur.core.pkg (clusterOf s.cur.core.n) (fun h =>
      { h with runs := h.runs ++ [{
        id := z1.itemSeq, job := jobOf s t f (b / 2 ^ 576 % 2 ^ 32) (decide (b / 2 ^ 608 % 2 = 1)), addr := a
        base := (List.range 8).map (fun k => dw (b / 2 ^ (64 * k) % 2 ^ 64)), reload := row.2, started := false, steps := [], st := [] }] }))))

/-- R338 to R340: `blkq` gives the oldest block or zeros, `blkq.done` marks the block that it names, both on ford cores alone; `baddq` adds and
requantises the blocks of the active lanes. -/
def Sys2Proof.Rules.FordCores : Prop :=
  (∀ (o : RdOps) (s : State) (t : Thread), Ready s t (.blkq o) →
    let z := settled s (.blkq o)
    let cl := clusterOf s.cur.core.n
    let put := fun (z : State) (d : List Dword) => modT z s.cur.core s.cur.slot (fun u =>
      (([o.rd, gPlus o.rd 1, gPlus o.rd 2, gPlus o.rd 3] : List GReg).zip d).foldl (fun u x => pushOut u (.g x.1) (.dword x.2) {} true) u)
    (isFord z s.cur.core t.pid = false → exec (.blkq o) s = .next (takeTrap z s.cur.core s.cur.slot (trapOf s t clsIllegal 1 0 (baseAux s)))) ∧
    (isFord z s.cur.core t.pid = true → (getHub z s.cur.core.pkg cl).blocks = [] → exec (.blkq o) s = .next (ended s t (.blkq o) (put z [0, 0, 0, 0]))) ∧
    (isFord z s.cur.core t.pid = true → ∀ b l, (getHub z s.cur.core.pkg cl).blocks = b :: l →
      exec (.blkq o) s = .next (ended s t (.blkq o) (put (modHub z s.cur.core.pkg cl (fun h => { h with blocks := l, popped := h.popped ++ [b] }))
        [dw (2 ^ 63 + b.ticket % 2 ^ 16 * 2 ^ 32 + b.k), b.src, b.dst, dw b.tag])))) ∧
  (∀ (o : RbOps) (s : State) (t : Thread), Ready s t (.blkqDone o) →
    let z := settled s (.blkqDone o)
    let cl := clusterOf s.cur.core.n
    let named := fun b : Block => decide (blockWord b = operand s t (.blkqDone o) 0)
    (isFord z s.cur.core t.pid = false → exec (.blkqDone o) s = .next (takeTrap z s.cur.core s.cur.slot (trapOf s t clsIllegal 1 0 (baseAux s)))) ∧
    (isFord z s.cur.core t.pid = true → (getHub z s.cur.core.pkg cl).popped.find? named = none →
      exec (.blkqDone o) s = .next (takeTrap z s.cur.core s.cur.slot (trapOf s t clsIllegal 3 0 (baseAux s)))) ∧
    (isFord z s.cur.core t.pid = true → ∀ b, (getHub z s.cur.core.pkg cl).popped.find? named = some b →
      exec (.blkqDone o) s = .next (ended s t (.blkqDone o)
        (markBlock (modHub z s.cur.core.pkg cl (fun h => { h with popped := h.popped.erase b })) s.cur.core.pkg b)))) ∧
  (∀ (o : BaddqOps) (s : State) (t : Thread) (f : Fmt), Ready s t (.baddq o) → nfFmt t.regs.nf[o.nf] = some f →
    let x := readV s.tick t o.x
    let y := readV s.tick t o.y
    let old := readV s.tick t o.vd
    let nb := if f.width = 8 then 3 else if f.width = 6 then 4 else 7
    let on := fun b : Nat => bitOf (lanesOf t o.pre) b
    let rm := RSelMode o.rm t.regs.fpc
    (∃ b, b < nb ∧ on b = true) → ∃ (v : Vec) (fl : Flags),
      exec (.baddq o) s = .next (retired s t (.baddq o) (fun u => addFlags (writeV u o.vd v) fl)) ∧
      ∀ b, b < nb → (v.toNat / 2 ^ (8 * (120 + b)) % 2 ^ 8 = if on b then (baddqSum f rm x y b).1 else old.toNat / 2 ^ (8 * (120 + b)) % 2 ^ 8) ∧
        ∀ j, j < 32 → v.toNat / 2 ^ (32 * f.width * b + f.width * j) % 2 ^ f.width =
          if on b then (baddqSum f rm x y b).2.1.getD j 0 else old.toNat / 2 ^ (32 * f.width * b + f.width * j) % 2 ^ f.width)

/-! ## The memory system's own steps (spec/02, spec/03, spec/05, spec/08, spec/17) -/

namespace Sys2Proof.Machine

/-- Access a of the thread in a slot may be accepted now: no earlier request that comes first waits, of its thread, of its core to its package, or at the
port of its page (R84, R152, R416, R440). -/
def acceptable (s : State) (c : CoreId) (slot k : Nat) (t : Thread) (a : Access) : Prop :=
  getT s c slot = some t ∧ t.acc[k]? = some a ∧ a.buffered = false ∧ mayAccept s (whoOf c t) t k = true ∧ a.pops = [] ∧
    accWaits s (whoOf c t) a = false ∧ ∀ x ∈ a.op.ranges, portBehind s (whoOf c t) x.1 (.access c slot a.no) = none

/-- The thread after the acceptance of access a: the access is gone and its result, if any, is known (R149, R152). -/
def answeredAccess (z : State) (c : CoreId) (slot : Nat) (a : Access) (v : OutVal) : State :=
  modT z c slot (fun u => setOut { u with acc := u.acc.filter (fun b => decide (b.seq ≠ a.seq)) } a.seq v)

/-- Signed reading of the low n bits. -/
def signedNat (n x : Nat) : Int := (BitVec.ofNat n x).toInt

/-- R99, R228: the operation of a read-modify-write, and its new value at n bits from the old value, the operand and the comparand. -/
def rmwRows : List (RmwOp × (Nat → Nat → Nat → Nat → Nat)) := [
  (.add, fun n o v _ => (o + v) % 2 ^ n),
  (.min, fun n o v _ => if signedNat n o ≤ signedNat n v then o else v),
  (.max, fun n o v _ => if signedNat n v ≤ signedNat n o then o else v),
  (.minu, fun _ o v _ => if o ≤ v then o else v),
  (.maxu, fun _ o v _ => if v ≤ o then o else v),
  (.and, fun _ o v _ => o &&& v),
  (.or, fun _ o v _ => o ||| v),
  (.xor, fun _ o v _ => o ^^^ v),
  (.swp, fun _ _ v _ => v),
  (.cas, fun _ o v c => if o = c then v else o)]

/-- The part of the memory of a grid that an access of [ph, ph + n) leaves alone. -/
def sameOutside (u z : State) (g : Option Nat) (ph n : Nat) : Prop := ∀ a, homeOf z g a < ph ∨ ph + n ≤ homeOf z g a → readByte u g a = readByte z g a

end Sys2Proof.Machine

/-- R82, R84, R98, R99, R149, R152, R213, R217: an access that may be accepted reads the bytes of its home, or writes there, or waits there as a store, or
performs its read-modify-write, and its result is then known; a failed one is a precise access fault at its instruction, with the registers of its
issue. -/
def Sys2Proof.Rules.AccessAcceptance : Prop :=
  ∀ (s : State) (c : CoreId) (slot k : Nat) (t : Thread) (a : Access), acceptable s c slot k t a →
    let w := whoOf c t
    let z := settleFor s w slot a
    let i := Instr.accessAcceptance c slot k
    (∀ r n signed z1 ph host, a.op = .read [(r, n)] n (.scalar signed) → 0 < n → judge z w r n .read = (z1, .ok ph host) →
      let v := if windowOf (locOf r) = .hbm ∧ discarded z1 w r = true then 0 else readNat z1 t.gslot ph n
      exec i s = .next (answeredAccess z1 c slot a (.dword (if signed then BitVec.ofInt 64 (signedNat (8 * n) v) else dw v)))) ∧
    (∀ r bs z1 ph host, a.op = .write [(r, bs)] bs.length → bs ≠ [] → judge z w r bs.length .write = (z1, .ok ph host) →
      ph % 64 + bs.length ≤ 64 →
      exec i s = .next (answeredAccess { z1 with
        wbuf := z1.wbuf ++ [{ who := w, slot := slot, seq := a.seq, parts := [(ph, bs)], dest := pkgOf c r, strong := a.strong, pub := publishes a }] } c slot a .none)) ∧
    (∀ ps span pos z1 phs, a.op = .read ps span (.lanes pos) → spanOk z w .read (ps.map (fun x => x.1)) span = true → judgeAll z w .read ps = (z1, .inl phs) →
      exec i s = .next (answeredAccess z1 c slot a (.vec ((pos.zip (ps.zip phs)).map (fun x => (x.1, 8 * x.2.1.2,
        if windowOf (locOf x.2.1.1) = .hbm ∧ discarded z1 w x.2.1.1 = true then 0 else readNat z1 t.gslot x.2.2 x.2.1.2)))))) ∧
    (∀ ps span z1 phs, a.op = .sectors ps span → spanOk z w .write (ps.map (fun x => x.1)) span = true →
      judgeAll z w .write (ps.map (fun x => (x.1, x.2.length))) = (z1, .inl phs) →
      exec i s = .next (answeredAccess { z1 with wbuf := z1.wbuf ++ (bySector (placed phs ps)).map (fun g => {
        who := w, slot := slot, seq := a.seq, parts := g, dest := pkgOf c (ps.headD (0, [])).1, strong := true, pub := pubSector (placed phs ps) g }) }
        c slot a .none)) ∧
    (∀ row ∈ rmwRows, ∀ r n y cmp z1 ph host, a.op = .rmw row.1 r n y cmp → n ∈ [4, 8] →
      judge z w r n (rmwKind row.1 n) = (z1, .ok ph host) →
      let old := readNat z1 t.gslot ph n
      (row.1 = .cas → old = cmp.toNat % 2 ^ (8 * n) → protectedBytes z1 t.gslot ph n = false) →
      let new := row.2 (8 * n) old (y.toNat % 2 ^ (8 * n)) (cmp.toNat % 2 ^ (8 * n))
      ∃ u, exec i s = .next u ∧
        u.mem = (if row.1 = .cas ∧ new = old ∧ old ≠ cmp.toNat % 2 ^ (8 * n) then z1 else writeNat z1 t.gslot ph n new).mem ∧
        (∀ q, getT z1 c slot = some q → slot < 16 → (∃ o ∈ q.out, o.seq = a.seq) → ∃ q', getT u c slot = some q' ∧
          ∀ o ∈ q'.out, o.seq = a.seq → o.ready = true ∧ o.val = .dword (BitVec.ofInt 64 (signedNat (8 * n) old)))) ∧
    (∀ row ∈ [(RmwOp.faddF32, 4, fp32), (RmwOp.faddBf16, 2, bf16)], ∀ r y cmp z1 ph host, a.op = .rmw row.1 r row.2.1 y cmp →
      judge z w r row.2.1 .rmwDev = (z1, .ok ph host) →
      let old := readNat z1 t.gslot ph row.2.1
      ∃ u, exec i s = .next u ∧
        u.mem = (writeNat z1 t.gslot ph row.2.1 (fpArith .add row.2.2 .rne old (y.toNat % 2 ^ (8 * row.2.1)) 0).1).mem ∧
        (∀ q, getT z1 c slot = some q → slot < 16 → (∃ o ∈ q.out, o.seq = a.seq) → ∃ q', getT u c slot = some q' ∧
          ∀ o ∈ q'.out, o.seq = a.seq → o.ready = true ∧ o.val = .dword (dw old))) ∧
    (∀ r bs z1 ph host, a.op = .fill r bs → judge z w r bs.length .fill = (z1, .ok ph host) → z1.redirects = [] → bs.length ≤ 8 →
      ph % 128 + bs.length ≤ 128 → Memory.wf z1.mem = true →
      ∃ u, exec i s = .next u ∧ lineEmpty u t.gslot (lineOf ph) = false ∧ readBytes u t.gslot ph bs.length = bs) ∧
    (∀ r z1 ph host, a.op = .clear r → judge z w r 128 .fill = (z1, .ok ph host) → lineEmpty z1 t.gslot ph = false → z1.redirects = [] →
      Memory.wf z1.mem = true →
      ∃ u, exec i s = .next u ∧ lineEmpty u t.gslot ph = true ∧ readNat u t.gslot ph 16 = 0) ∧
    (∀ r n signed z1 cause, a.op = .read [(r, n)] n (.scalar signed) → judge z w r n .read = (z1, .fail cause) →
      (∀ at_ lim d host, (xlate z w r false).2 = .at_ at_ lim d host → n ≤ lim) →
      exec i s = .next (takeTrap (setT (dropReqs z1 (undone t (rollback t a))) c slot (some (rollback t a))) c slot
        { cls := clsAccess, cause := cause, addr := r, aux := 0, pc := a.pc, seg := a.seg, words := a.words }))

/-- R125, R147 to R149: a result that is known lands in its register with its flags; one that a later writer has made stale leaves the register alone. -/
def Sys2Proof.Rules.ResultLanding : Prop :=
  (∀ (s : State) (c : CoreId) (slot k : Nat) (t : Thread) (o : Out) (r : GReg) (x : Dword), getT s c slot = some t → t.out[k]? = some o →
    o.dst = .g r → o.val = .dword x → o.ready = true → t.acc = [] → slot < 16 →
    (∀ o' ∈ t.out, o'.seq = o.seq → o'.dst = o.dst → o' = o) →
    ∃ u t', exec (.resultLanding c slot k) s = .next u ∧ getT u c slot = some t' ∧ t'.out = t.out.filter (fun y => decide (y ≠ o)) ∧
      t'.regs.fpc = t.regs.fpc ||| o.flags.bits ∧
      (∀ q : GReg, t'.regs.g[q] = if q = r ∧ r ≠ 0 ∧ o.staleBy = none then x else t.regs.g[q]) ∧
      t'.regs.v = t.regs.v ∧ t'.regs.p = t.regs.p ∧ t'.regs.t = t.regs.t ∧ t'.regs.nf = t.regs.nf ∧ t'.pc = t.pc ∧ u.mem = s.mem) ∧
  (∀ (s : State) (c : CoreId) (slot k : Nat) (t : Thread) (o : Out) (r : VReg) (es : List Nat) (w : Nat) (x : Nat → Nat), getT s c slot = some t →
    t.out[k]? = some o → o.dst = .v r → w ∈ [8, 16, 32, 64] → o.val = .vec (es.map (fun e => (w * e, w, x e))) → es.Nodup →
    (∀ e ∈ es, e < 1024 / w ∧ x e < 2 ^ w) → o.ready = true → t.acc = [] → slot < 16 → (∀ o' ∈ t.out, o'.seq = o.seq → o'.dst = o.dst → o' = o) →
    ∃ u t', exec (.resultLanding c slot k) s = .next u ∧ getT u c slot = some t' ∧ t'.out = t.out.filter (fun y => decide (y ≠ o)) ∧
      t'.regs.fpc = t.regs.fpc ||| o.flags.bits ∧
      (∀ e, e < 1024 / w → t'.regs.v[r].toNat / 2 ^ (w * e) % 2 ^ w =
        if e ∈ es ∧ o.staleBy = none then x e else t.regs.v[r].toNat / 2 ^ (w * e) % 2 ^ w) ∧
      (∀ q : VReg, q ≠ r → t'.regs.v[q] = t.regs.v[q]) ∧
      t'.regs.g = t.regs.g ∧ t'.regs.p = t.regs.p ∧ t'.regs.t = t.regs.t ∧ t'.regs.nf = t.regs.nf ∧ t'.pc = t.pc ∧ u.mem = s.mem) ∧
  (∀ (s : State) (c : CoreId) (slot k : Nat) (t : Thread) (o : Out) (r : PReg) (x : Dword), getT s c slot = some t → t.out[k]? = some o →
    o.dst = .p r → o.val = .dword x → o.ready = true → t.acc = [] → slot < 16 →
    (∀ o' ∈ t.out, o'.seq = o.seq → o'.dst = o.dst → o' = o) →
    ∃ u t', exec (.resultLanding c slot k) s = .next u ∧ getT u c slot = some t' ∧ t'.out = t.out.filter (fun y => decide (y ≠ o)) ∧
      t'.regs.fpc = t.regs.fpc ||| o.flags.bits ∧
      (∀ q : PReg, t'.regs.p[q] = if q = r ∧ r ≠ 0 ∧ o.staleBy = none then x.setWidth 32 else t.regs.p[q]) ∧
      t'.regs.g = t.regs.g ∧ t'.regs.v = t.regs.v ∧ t'.regs.t = t.regs.t ∧ t'.regs.nf = t.regs.nf ∧ t'.pc = t.pc ∧ u.mem = s.mem) ∧
  (∀ (s : State) (c : CoreId) (slot k : Nat) (t : Thread) (o : Out), getT s c slot = some t → t.out[k]? = some o →
    (o.ready = false ∨ ∃ r, o.dst = .t r) → exec (.resultLanding c slot k) s = .next (setT s c slot (some t)))

namespace Sys2Proof.Machine

/-- A word of the stores of a line in a reel's path: its arrival one core on (R65). -/
def movedTo (m : ReelMsg) (n : Nat) : ReelMsg := { m with at_ := n }

/-- Item k is on its way, and nothing of its core comes before it: no earlier item, drain or copy, and no request at the port of one of its pages. -/
def itemArrives (s : State) (k : Nat) (i : Item) : Prop :=
  s.items[k]? = some i ∧ i.stage = .sent ∧ itemBlocked s i = false ∧ ∀ a ∈ i.reaches, portBehind s i.who a (.item i.id) = none

/-- The words of a record as a dword list. -/
def recordOf (w : Who) (kind cause : Nat) : Dword :=
  dw (kind * 2 ^ 56 + cause * 2 ^ 52 + w.tid % 16 * 2 ^ 48 + w.seg % 2 ^ 16 * 2 ^ 32 + w.pc % 2 ^ 17)

end Sys2Proof.Machine

/-- R91 to R95, R212, R223, R225, R227: a posted item performs its write at its home and then makes its counted arrival, after the item's data; an
arrival adds 1 to COUNT, sets INC for a failed item, and keeps SW; a record held by its hub enters the inbox, oldest first, once there is room.
It rests on the model's choices of log entries 36 and 32 (a kind 0 arrival that is lost leaves no record). -/
def Obligations.ItemsAndArrivals : Prop :=
  (∀ (s : State) (k : Nat) (i : Item), itemArrives s k i →
    let z := settlePair s i.who i.reaches [i.addr]
    let w := i.who
    let ends := fun (y : State) => exec (.postedItemDelivery k) s = .next (drainRecs (payOwed (itemEnd y i false)))
    i.note = false →
    (∀ bs z1 ph host, i.op = .store [(0, bs)] false → i.pub = false → judge z w i.addr bs.length .write = (z1, .ok ph host) →
      ends (sectorWrites z1 w [(ph, bs)])) ∧
    (∀ bs z1 ph host, i.op = .store [(0, bs)] true → judge z w i.addr bs.length .fill = (z1, .ok ph host) → ph % 128 + bs.length ≤ 128 →
      z1.redirects = [] → Memory.wf z1.mem = true → ∃ y, ends y ∧ lineEmpty y w.gslot (lineOf ph) = false ∧ readBytes y w.gslot ph bs.length = bs) ∧
    (∀ row ∈ rmwRows, ∀ n v z1 ph host, i.op = .red row.1 n v → n ∈ [4, 8] → judge z w i.addr n .rmwDev = (z1, .ok ph host) →
      ends (writeWord z1 w ph n (row.2 (8 * n) (readNat z1 w.gslot ph n) (v.toNat % 2 ^ (8 * n)) 0))) ∧
    (∀ ps z1 phs, i.op = .adds ps → judgeAll z w .rmwDev (ps.map (fun x => (i.addr + dw x.off, if x.op = .faddBf16 then 2 else 4))) = (z1, .inl phs) →
      ends (addSectors z1 w (phs.zip ps))) ∧
    (∀ src fill z1 phs z2 pd host, i.op = .getl src fill →
      judgeAll (drainWhere z (fun b => decide (b.who.core = w.core))) w .read (lineSectors src) = (z1, .inl phs) →
      judge z1 w i.addr 128 (if fill then .fill else .write) = (z2, .ok pd host) → pd % 128 = 0 → z2.redirects = [] → Memory.wf z2.mem = true →
      ∃ y, ends y ∧ (fill = true → lineEmpty y w.gslot pd = false) ∧ readBytes y w.gslot pd 128 = ((lineSectors src).zip phs).flatMap (fun x =>
        if windowOf (locOf x.1.1) = .hbm ∧ discarded z1 w x.1.1 = true then List.replicate 32 0 else readBytes z1 w.gslot x.2 32))) ∧
  (∀ (z : State) (w : Who) (k : Nat) (l : List (Nat × AddPart)), l ≠ [] → (∀ x ∈ l, x.1 / 32 = k) → addSectors z w l = writeEvent z w (l.map (fun x =>
    let n := if x.2.op = .faddBf16 then 2 else 4
    (x.1, leBytes n (rmwNew x.2.op n (readNat z w.gslot x.1 n) x.2.v 0)))) true false) ∧
  (∀ (z : State) (w : Who) (l1 l2 : List (Nat × AddPart)), (∀ x ∈ l1, ∀ y ∈ l2, x.1 / 32 < y.1 / 32) →
    addSectors z w (l1 ++ l2) = addSectors (addSectors z w l1) w l2) ∧
  (∀ (z : State) (i : Item) (failed : Bool), let y := { z with items := z.items.filter (fun j => decide (j.id ≠ i.id)) }
    let sent := fun (u : State) => sendArrival u {
      id := 0, who := i.who, kind := i.kind, flag := i.flag, inc := failed, share := if failed then i.share else 0, domain := i.domain, addr := i.addr,
      tag := 0, stage := .sent, retry := i.retry, no := some i.id }
    (i.flag = 0 → itemEnd z i failed = returnWeight y i.who i.domain i.share) ∧
    (i.flag ≠ 0 → itemEnd z i failed = sent (if failed then y else returnWeight y i.who i.domain i.share))) ∧
  (∀ (z z1 : State) (w : Who) (domain amount ph : Nat) (root : Dword) (job host : Bool), domain ≠ 0 → amount ≠ 0 →
    rootOf z w.core.pkg w.pid domain = some (root, job) → portBehind z w root (.owed z.itemSeq) = none → judge z w root 8 .rmw = (z1, .ok ph host) →
    returnWeight z w domain amount = writeWord z1 w ph 8 ((readNat z1 w.gslot ph 8 + amount) % 2 ^ 64)) ∧
  (∀ (z : State) (w : Who) (domain : Nat), returnWeight z w domain 0 = z ∧ returnWeight z w 0 domain = z) ∧
  (∀ (s : State) (k : Nat) (i : Item) (z1 : State) (bs : List Byte) (cause : Nat), itemArrives s k i → i.op = .store [(0, bs)] false →
    i.flag ≠ 0 ∨ i.share = 0 → judge (settlePair s i.who i.reaches [i.addr]) i.who i.addr bs.length .write = (z1, .fail cause) →
    z1.owed = [] → (∀ x ∈ z1.pkgs, x.2.recs = []) → z1.redirects = [] → isFp i.who.core = false →
    (getCore z1 i.who.core).tenancy = i.who.gslot → (getCore z1 i.who.core).heldRecs = [] → (getCore z1 i.who.core).inbox.length < 32 →
    ∃ u r, exec (.postedItemDelivery k) s = .next u ∧ (∀ j ∈ u.items, j.id ≠ i.id) ∧ r ∈ (getCore u i.who.core).inbox ∧
      r.d0 = recordOf i.who i.kind (if cause = 6 then 2 else if cause = 7 then 3 else if cause = 8 then 4 else 1) ∧ r.d1 = i.addr ∧ r.d2 = i.flag ∧
      (i.flag ≠ 0 → ∃ a ∈ u.arrivals, a.flag = i.flag ∧ a.inc = true ∧ a.share = i.share)) ∧
  (∀ (s : State) (k : Nat) (a : Arrival) (z1 : State) (ph : Nat) (host : Bool), s.arrivals[k]? = some a → a.stage = .sent → a.share = 0 →
    retryBefore s a = false → portBehind s a.who a.flag (.arrival a.id) = none → a.counted = false → (host = true → a.inc = false) →
    judge s a.who a.flag 8 .rmw = (z1, .ok ph host) → Memory.wf z1.mem = true → z1.redirects = [] →
    ∃ u, exec (.countedArrival k) s = .next u ∧
      (let old := readNat z1 a.who.gslot ph 8
       readNat u a.who.gslot ph 8 = (if a.inc then 2 ^ 63 else old / 2 ^ 63 * 2 ^ 63) + old % 2 ^ 63 / 2 ^ 32 * 2 ^ 32 + (old + 1) % 2 ^ 32) ∧
      sameOutside u z1 a.who.gslot ph 8) ∧
  (∀ (s : State) (k : Nat) (a : Arrival) (z1 : State) (ph : Nat), s.arrivals[k]? = some a → a.stage = .sent → a.share = 0 →
    retryBefore s a = false → portBehind s a.who a.flag (.arrival a.id) = none → a.counted = false → a.inc = true →
    judge s a.who a.flag 8 .rmw = (z1, .ok ph true) → Memory.wf z1.mem = true → z1.redirects = [] →
    ∃ u, exec (.countedArrival k) s = .next u ∧ (∃ b ∈ u.arrivals, b.id = a.id ∧ b.counted = true) ∧
      (let old := readNat z1 a.who.gslot ph 8
       readNat u a.who.gslot ph 8 = old / 2 ^ 32 * 2 ^ 32 + (old + 1) % 2 ^ 32)) ∧
  (∀ (s : State) (k : Nat) (a : Arrival), s.arrivals[k]? = some a → a.stage = .sent → retryBefore s a = true →
    exec (.countedArrival k) s = .next s) ∧
  (∀ (s : State) (k : Nat) (a : Arrival) (z1 : State) (cause : Nat), s.arrivals[k]? = some a → a.stage = .sent → a.share = 0 → a.kind = 0 →
    retryBefore s a = false → portBehind s a.who a.flag (.arrival a.id) = none →
    judge s a.who a.flag 8 .rmw = (z1, .fail cause) →
    exec (.countedArrival k) s = .next { z1 with arrivals := z1.arrivals.filter (fun x => decide (x.id ≠ a.id)) }) ∧
  (∀ (s : State) (c : CoreId) (r : Rec) (l : List Rec), (getCore s c).heldRecs = r :: l →
    ((getCore s c).inbox.length < 32 → exec (.heldInboxRecordEntry c) s = .next (modCore s c (fun k =>
      { k with inbox := k.inbox ++ [r], heldRecs := l }))) ∧
    (32 ≤ (getCore s c).inbox.length → exec (.heldInboxRecordEntry c) s = .next s))

/-- R61 to R63, R65, R126, R249, R257, R361, R372: the remaining steps of waits and of words between cores: a walk moves one record of a deferred list to
the run queue; polls wake what they find met; a neighbour word joins its queue; a reel's arrival moves one core on and its release advances PHASE within
the enabling; a late result lands in its image; a timer and a queued notification reach a fault processor.
It rests on the model's choices of log entries 26 and 29. -/
def Obligations.WaitsAndWords : Prop :=
  (∀ (s : State) (k : Nat) (w : Walk) (i : Nat), s.walks[k]? = some w → ringFree (getHub s w.pkg w.cluster) = some i →
    let x := readNat s none (heapAt s w.pkg w.pid w.cluster (w.next - 1)) 64
    ∃ u, exec (.deferredListWalk k) s = .next u ∧
      (getHub u w.pkg w.cluster).ring.map (fun e => e.slot) = (getHub s w.pkg w.cluster).ring.map (fun e => e.slot) ++ [i] ∧
      u.walks = (if x / 2 ^ 32 % 2 ^ 16 = 0 then s.walks.eraseIdx k else s.walks.set k { w with next := x / 2 ^ 32 % 2 ^ 16 }) ∧
      (Memory.wf s.mem = true → 0 < w.next → w.next ≤ (heapOf s w.pkg w.pid).2 →
        readNat u none (ringAt w.pkg w.cluster i) 64 = x % 2 ^ 504 - x / 2 ^ 17 % 2 ^ 31 * 2 ^ 17 + 2 ^ 504 ∧
        readNat u none (heapAt s w.pkg w.pid w.cluster (w.next - 1) + 63) 1 = 0)) ∧
  (∀ (s : State) (c : CoreId) (slot : Nat) (a : Dword) (t : Thread), getT s c slot = some t → portBehind s (whoOf c t) a (.issue c slot t.seq) = none →
    (∀ z1 ph host, judge s (whoOf c t) a 8 .read = (z1, .ok ph host) →
      let v := leNat (readJudged z1 (whoOf c t) a ph 8)
      let woken := modT z1 c slot (fun u => { u with run := .ready, woken := some (dw v) })
      (∀ n, t.run = .parked (.flag a n) false → exec (.waitcPoll c slot) s = .next (if reached v n then woken else z1)) ∧
      (t.run = .parked (.root a) false → exec (.wquietPoll c slot) s = .next (if v = 2 ^ 63 then woken else z1))) ∧
    (∀ z1 p q, judge s (whoOf c t) a 8 .read = (z1, .asleep p q) →
      (∀ n, t.run = .parked (.flag a n) false → exec (.waitcPoll c slot) s = .next (wakeCluster z1 p q)) ∧
      (t.run = .parked (.root a) false → exec (.wquietPoll c slot) s = .next (wakeCluster z1 p q)))) ∧
  (∀ (s : State) (k : Nat) (w : NWord), s.nwords[k]? = some w →
    (∀ x ∈ s.nwords.take k, ¬ (x.pkg = w.pkg ∧ x.dst = w.dst ∧ x.dir = w.dir)) →
    let c : CoreId := { pkg := w.pkg, n := w.dst }
    let s1 := { s with nwords := s.nwords.eraseIdx k }
    ((getCore s c).tenancy = some w.gslot → (getCore s c).era = w.era → w.dir < 4 → ∃ u, exec (.neighbourWordArrival k) s = .next u ∧ u.nwords = s1.nwords ∧
      (getCore u c).nq[w.dir]?.getD [] = (getCore s c).nq[w.dir]?.getD [] ++ w.words ∧
      ∀ e, e ≠ w.dir → (getCore u c).nq[e]? = (getCore s c).nq[e]?) ∧
    ((getCore s c).tenancy ≠ some w.gslot ∨ (getCore s c).era ≠ w.era → exec (.neighbourWordArrival k) s = .next s1)) ∧
  (∀ (s : State) (k n n2 : Nat) (m : ReelMsg), s.reelArr[k]? = some m → reelNext m.reg m.at_ = some n → reelNext m.reg n = some n2 →
    exec (.reelArrivalCombine k) s = .next { s with reelArr := s.reelArr.set k (movedTo m n) }) ∧
  (∀ (s : State) (k n : Nat) (m : ReelMsg) (r : Reel), s.reelArr[k]? = some m → reelNext m.reg m.at_ = some n → reelNext m.reg n = none →
    let c : CoreId := { pkg := m.pkg, n := n }
    let all := s.reelArr.set k (movedTo m n)
    let here := fun (x : ReelMsg) => decide (x.pkg = m.pkg ∧ x.at_ = n ∧ x.unit = m.unit ∧ x.phase = r.reg.toNat / 2 ^ 32 % 2 ^ 16 ∧ x.gslot = (getCore s c).tenancy ∧
      reelRect x.reg = reelRect r.reg)
    (getCore s c).reel[m.unit]? = some r → m.unit < 4 → r.reg.toNat / 2 ^ 63 = 1 →
    ((∃ e ∈ rectCores (reelRect r.reg), ∀ x ∈ all.filter here, x.src ≠ e) → exec (.reelArrivalCombine k) s = .next { s with reelArr := all }) ∧
    ((∀ e ∈ rectCores (reelRect r.reg), ∃ x ∈ all.filter here, x.src = e) →
      ∃ u r', exec (.reelArrivalCombine k) s = .next u ∧ u.reelArr = all.filter (fun x => !(all.filter here).contains x) ∧
        (∀ e ∈ rectCores (reelRect r.reg), e ≠ n → ∃ x ∈ u.reelRel, x ∈ all.filter here ∧ x.src = e) ∧ (getCore u c).reel[m.unit]? = some r' ∧
        r'.reg.toNat / 2 ^ 32 % 2 ^ 16 = (r.reg.toNat / 2 ^ 32 + 1) % 2 ^ 16 ∧ r'.reg.toNat % 2 ^ 32 = r.reg.toNat % 2 ^ 32 ∧
        r'.reg.toNat / 2 ^ 48 = r.reg.toNat / 2 ^ 48 ∧ r'.now = r.next ∧ r'.next = 0)) ∧
  (∀ (s : State) (k : Nat) (m : ReelMsg) (r : Reel), s.reelRel[k]? = some m →
    let c : CoreId := { pkg := m.pkg, n := m.src }
    (∀ x ∈ s.redirects, ¬ (x.pkg = m.pkg ∧ x.core = m.src ∧ some x.gslot = m.gslot)) → (getCore s c).tenancy = m.gslot →
    (getCore s c).reel[m.unit]? = some r →
    (r.reg.toNat / 2 ^ 63 = 1 → r.era = m.era → m.unit < 4 → ∃ u r', exec (.reelRelease k) s = .next u ∧ u.reelRel = s.reelRel.eraseIdx k ∧
      (getCore u c).reel[m.unit]? = some r' ∧ r'.reg.toNat / 2 ^ 32 % 2 ^ 16 = (r.reg.toNat / 2 ^ 32 + 1) % 2 ^ 16 ∧
      r'.reg.toNat % 2 ^ 32 = r.reg.toNat % 2 ^ 32 ∧ r'.reg.toNat / 2 ^ 48 = r.reg.toNat / 2 ^ 48 ∧ r'.now = r.next ∧ r'.next = 0) ∧
    ((r.reg.toNat / 2 ^ 63 = 0 ∨ r.era ≠ m.era) → exec (.reelRelease k) s = .next { s with reelRel := s.reelRel.eraseIdx k })) ∧
  (∀ (s : State) (k e : Nat) (l : Late) (r : GReg) (x : Dword), s.lates[k]? = some l → l.out.ready = true → l.entry = some e →
    (∀ y ∈ s.lates.take k, ¬ (y.img = l.img ∧ y.out.dst = l.out.dst)) → l.out.dst = .g r → r ≠ 0 → l.out.val = .dword x → l.out.staleBy = none →
    s.redirects = [] →
    Memory.wf s.mem = true → e < 32 → 0x100 ≤ regAt l.allot (.g r) →
    ∃ u, exec (.lateResultLanding k) s = .next u ∧ u.lates = s.lates.eraseIdx k ∧ readNat u none (l.img + regAt l.allot (.g r)) 8 = x.toNat ∧
      readNat u none (l.img + 0x80 + 4 * e) 4 / 2 ^ 31 = 1 ∧
      readNat u none (l.img + 0x20) 8 = (dw (readNat s none (l.img + 0x20) 8) ||| l.out.flags.bits).toNat) ∧
  (∀ (s : State) (c : CoreId) (slot : Nat) (t : Thread), getT s c slot = some t → t.run = .held .wfi →
    (heldMet s c slot t .wfi = true → exec (.timerWake c slot) s = .next (setT s c slot (some { t with run := .ready }))) ∧
    (heldMet s c slot t .wfi = false → exec (.timerWake c slot) s = .next (setT s c slot (some t)))) ∧
  (∀ (s : State) (p : Nat) (q : NoteQueue) (sender : Nat) (x : Nat × Dword), let c : CoreId := { pkg := p, n := 8192 + q.fp }
    (((getCore s c).notify.map (fun y => y.1)).eraseDups)[q.k]? = some sender →
    (getCore s c).notify.find? (fun y => decide (y.1 = sender)) = some x →
    ((getCore s c).mailbox.length < 64 → exec (.mailboxNotificationEntry p q) s = .next (modCore s c (fun k =>
      { k with mailbox := k.mailbox ++ [x.2], notify := k.notify.erase x }))) ∧
    (64 ≤ (getCore s c).mailbox.length → ∃ u, exec (.mailboxNotificationEntry p q) s = .next u ∧ getCore u c = getCore s c))

/-- R156, R158, R455: words that encode no instruction trap with their CAUSE, a privileged row at level U with CAUSE 4 unless its page or major is
unassigned. -/
def Sys2Proof.Rules.UndefinedWords : Prop :=
  ∀ (e : DecErr) (s : State) (t : Thread), inHand s t →
    exec (.undefinedInstruction e) s =
      .next (trapped s t clsIllegal (if e.priv = true ∧ s.cur.core.n < 8192 ∧ e.cause ≠ 1 then 4 else e.cause) 0 (dw e.aux))

/-- R408, R411, R416: run-ahead being over, or the thread having no shadow slot, the batch of its pages is sent under its ticket, LAST on the final one
for each home; till then nothing is. A refused request is sent again, unless an earlier one of its core to the same page waits. -/
def Sys2Proof.Rules.FaultRequests : Prop :=
  (∀ (s : State) (c : CoreId) (slot ticket : Nat) (f : FaultWait) (t : Thread),
    (getPkg s c.pkg).waits.find? (fun w => decide (w.core = c ∧ w.slot = slot ∧ w.ticket = ticket) && !w.sent) = some f → getT s c slot = some t →
    t.run = .held (.ticket f.ticket) →
    ((f.shadow = false ∨ aheadOver s f = true) → ∃ l, exec (.runAheadEnd c slot ticket) s = .next (drainRecs (modPkg s c.pkg (fun k => { k with
      waits := k.waits.map (fun x => if x = f then { x with sent := true, shadow := false, ahead := none } else x), recs := k.recs ++ l }))) ∧
      (∀ r ∈ l, r.d0.toNat % 2 ^ 32 = f.ticket % 2 ^ 32 ∧ r.d0.toNat / 2 ^ 62 = 0) ∧ l.map (fun r => r.page) = (batchPages f).map (fun x => dw x.page) ∧
      (∀ i r, l[i]? = some r → (r.d0.toNat / 2 ^ 61 % 2 = 1 ↔ ∀ x ∈ l.drop (i + 1), ¬ (x.homePkg = r.homePkg ∧ x.homeFp = r.homeFp)))) ∧
    (f.shadow = true → aheadOver s f = false → exec (.runAheadEnd c slot ticket) s = .next s)) ∧
  (∀ (s : State) (k p : Nat) (q : PortReq), let z := (s.pkgs.map (fun x => x.1)).foldl portsOn s
    (allRetries z)[k]? = some (p, q) →
    let l := (getPkg z p).retries
    let same := fun (x : PortReq) => decide (x.core = q.core ∧ x.stack = q.stack ∧ x.pid = q.pid ∧ x.asid = q.asid ∧ x.page = q.page)
    let before := l.takeWhile (fun x => decide (x ≠ q))
    let atPort := ((getPkg z p).held ++ (getPkg z p).faults.filter (fun x => !x.refused)).filter same
    ((∃ x ∈ before, same x = true) → exec (.refusedRequestRetry k) s = .next (drainRecs z)) ∧
    ((∀ x ∈ before, same x = false) →
      (∀ x, atPort.getLast? = some x → exec (.refusedRequestRetry k) s = .next (drainRecs (holdBehind z (p, x) q.req).1)) ∧
      (atPort = [] → awaited z q = true → exec (.refusedRequestRetry k) s = .next (drainRecs (readyFor z q))) ∧
      (atPort = [] → awaited z q = false →
        let z1 := besideRetries (modPkg z p (fun x => { x with retries := x.retries.filter (fun y => decide (y ≠ q)) })) p same (fun s => resend s q)
        exec (.refusedRequestRetry k) s = .next (drainRecs (
          if (getPkg z1 p).retries.any (fun x => same x && decide (x.req = q.req)) then z else z1)))))

/-! ## The engines' own steps (spec/11) -/

namespace Sys2Proof.Machine

/-- No request of the operation has to wait, whichever of its addresses it goes to (R412, R416), and none has been answered with REFUSE (R413). -/
def noWait (s : State) (w : Who) (r : Req) (l : List (Dword × Bool)) : Prop := engineWait s w r l = .inr s ∧ ∀ x ∈ l, refusedAt s w x.1 r = false

/-- The address of the element of indices i0 to i3 on a side of a layout record, side 0 the source's and side 1 the destination's (R318). -/
def elementAt (rcd : Nat) (side : Nat) (base : Dword) (i : Nat → Nat) : Dword :=
  base + BitVec.ofInt 64 (((List.range 4).map (fun d => signedNat 32 (rcd / 2 ^ (192 + 128 * side + 32 * d) % 2 ^ 32) * (i d : Int))).foldl (· + ·) 0)

/-- The elements of a copy in the order of their linear index: source and destination (R318, R321). -/
def copyElements (rcd : Nat) (src dst : Dword) : List (Dword × Dword) :=
  let ext := fun d : Nat => rcd / 2 ^ (64 + 32 * d) % 2 ^ 32
  (List.range (ext 1 * ext 2 * ext 3)).flatMap (fun r => (List.range (ext 0)).map (fun i0 =>
    let i := fun d : Nat => if d = 0 then i0 else if d = 1 then r % ext 1 else if d = 2 then r / ext 1 % ext 2 else r / ext 1 / ext 2
    (elementAt rcd 0 src i, elementAt rcd 1 dst i)))

/-- One complex amplitude of R332: row u of the unitary times the members x, real part in the low half. -/
def complexRow (us xs : List Nat) : Nat × Nat :=
  let re := fun x : Nat => decodeFp fp32 (x % 2 ^ 32)
  let im := fun x : Nat => decodeFp fp32 (x / 2 ^ 32 % 2 ^ 32)
  (matSum (plusZero :: (us.zip xs).flatMap (fun p => [mulTerm (re p.1) (re p.2), mulTerm (im p.1).flip (im p.2)])),
   matSum (plusZero :: (us.zip xs).flatMap (fun p => [mulTerm (re p.1) (im p.2), mulTerm (im p.1) (re p.2)])))

end Sys2Proof.Machine

/-- R318, R321, R322: the oldest copy of an engine whose record R319 does not allow ends with a failure record of CAUSE 8; a copy of one element moves
its bytes and ends with its counted arrival. -/
def Sys2Proof.Rules.CopyRuns : Prop :=
  ∀ (s : State) (c : CoreId) (j : CopyJob), s.copies.find? (fun j => decide (j.core = c)) = some j →
    (copyBlocked s j = true → exec (.copyRun c) s = .next s) ∧
    (copyBlocked s j = false → j.job.packet = none → j.job.failed = false →
      let w := j.job.who
      let z := settlePair s w [j.src, j.dst] [j.dst]
      let gone := { z with copies := z.copies.filter (fun y => decide (y.id ≠ j.id)) }
      let x := j.rcd.toNat
      let n := 2 ^ (x % 2 ^ 8)
      let arrived := fun (u : State) (inc : Bool) (share : Nat) =>
        ∃ a ∈ u.arrivals, a.flag = j.job.flag ∧ a.inc = inc ∧ a.who = w ∧ a.share = share ∧ a.domain = j.domain ∧ a.no = some j.id
      (layoutOk (x % 2 ^ 496) = false → j.job.flag ≠ 0 → z.redirects = [] → isFp w.core = false → (getCore z w.core).tenancy = w.gslot →
        (getCore z w.core).heldRecs = [] → (getCore z w.core).inbox.length < 32 →
        ∃ u r, exec (.copyRun c) s = .next u ∧ u.copies = gone.copies ∧ u.mem = z.mem ∧ (getCore u w.core).inbox = (getCore z w.core).inbox ++ [r] ∧
          r.d0 = recordOf w 0x21 8 ∧ r.d1 = j.dst ∧ arrived u true j.share) ∧
      (layoutOk (x % 2 ^ 496) = true → x / 2 ^ 16 % 2 = 0 → j.job.note = false → j.share = 0 →
        (∀ z1 z2 p1 p2 h1 h2, (∀ k, k < 4 → x / 2 ^ (64 + 32 * k) % 2 ^ 32 = 1) → noWait z w (.copy j.id) [(j.src, false), (j.dst, true)] →
          judge gone w j.src n .read = (z1, .ok p1 h1) → judge z1 w j.dst n .write = (z2, .ok p2 h2) →
          ∃ u, exec (.copyRun c) s = .next u ∧ u.mem = (writeBytes z2 w.gslot p2 (readJudged z1 w j.src p1 n)).mem ∧ u.copies = gone.copies ∧
            (j.job.flag ≠ 0 → arrived u false 0)) ∧
        (∀ (ps pd : Dword → Nat), let es := copyElements x j.src j.dst
          noWait z w (.copy j.id) (es.flatMap (fun e => [(e.1, false), (e.2, true)])) →
          (∀ e ∈ es, (∃ h, judge gone w e.1 n .read = (gone, .ok (ps e.1) h)) ∧ ∃ h, judge gone w e.2 n .write = (gone, .ok (pd e.2) h)) →
          ∃ u, exec (.copyRun c) s = .next u ∧ u.copies = gone.copies ∧ (j.job.flag ≠ 0 → arrived u false 0) ∧
            u.mem = (sectorWrites gone w (es.map (fun e => (pd e.2, readJudged gone w e.1 (ps e.1) n)))).mem)))

/-- R329, R391: an overlay load writes the segment's bytes into instruction memory and makes it resident; R332: an amplitude group is the product of the
unitary and its members; R333: a permutation writes every amplitude at its new place, then the new record. -/
def Sys2Proof.Rules.LoadsAndAmplitudes : Prop :=
  (∀ (s : State) (c : CoreId) (l : SegLoad) (rest : List SegLoad) (w : Who) (s1 : State) (bs : List (List Byte)),
    (getCore s c).loads = l :: rest → l.who = some w → l.seg.id ≠ 0 → l.note = false → l.flag = 0 → l.era = (getCore s c).era →
    noWait s w (.load c) ((sectorParts l.seg.size l.image l.seg.size).map (fun p => (p.1, false))) →
    engineRead s w (.load c) (sectorParts l.seg.size l.image l.seg.size) = (s1, .inl bs) →
    ∃ u, exec (.cfetchLoadComplete c) s = .next u ∧ isResident (getCore u c) l.seg.id = true ∧ (getCore u c).loads = rest ∧
      ∀ i b, bs.flatten[i]? = some b → imemByte (getCore u c).imem (l.seg.load + i) = b) ∧
  (∀ (s : State) (p cl g : Nat) (j : AmpJob) (rest : List AmpJob) (s1 s2 s3 : State) (xs us : List (List Byte)) (phs : List Nat),
    (getHub s p cl).amps = j :: rest → j.perm = false → dword j.blk.toNat 3 ≤ g → g < dword j.blk.toNat 4 → g ∉ j.doneGroups →
    j.doneGroups.length + 1 < dword j.blk.toNat 4 - dword j.blk.toNat 3 →
    let rq : Req := .amp p cl (some g)
    noWait s j.job.who rq ((groupMembers j g).map (fun p => (p.1, true)) ++ (ampUni j).map (fun p => (p.1, false))) →
    engineRead s j.job.who rq (groupMembers j g) = (s1, .inl xs) → engineRead s1 j.job.who rq (ampUni j) = (s2, .inl us) →
    engineAt s2 j.job.who rq .write (groupMembers j g) = (s3, .inl phs) →
    let n := (groupMembers j g).length
    ∃ u, exec (.ampGroup p cl g) s = .next u ∧ ((getHub u p cl).amps.head?.map (fun x => x.doneGroups)) = some (g :: j.doneGroups) ∧
      u.mem = (sectorWrites s3 j.job.who ((phs.zip (List.range n)).map (fun x =>
        let v := complexRow (((us.map leNat).drop (n * x.2)).take n) (xs.map leNat)
        (x.1, leBytes 8 (v.1 + v.2 * 2 ^ 32))))).mem) ∧
  (∀ (s : State) (p cl : Nat) (j : AmpJob) (rest : List AmpJob) (s1 s2 s4 : State) (xs : List (List Byte)) (phs prs : List Nat),
    (getHub s p cl).amps = j :: rest → j.perm = true → j.job.packet = none → j.job.note = false → j.job.flag = 0 → j.failGroups = [] →
    let idx := List.range (2 ^ (j.qlr.toNat % 2 ^ 8))
    let old := idx.map (fun i => (issuerAddr j.job.who (ampAt j.qlr.toNat i), 8))
    let new := idx.map (fun i => (issuerAddr j.job.who (ampAt j.uniRec.toNat i), 8))
    let rcd := sectorParts 64 (dw (j.blk.toNat % 2 ^ 64)) 64
    let rq : Req := .amp p cl none
    noWait s j.job.who rq (old.map (fun p => (p.1, false)) ++ (new ++ rcd).map (fun p => (p.1, true))) →
    engineRead s j.job.who rq old = (s1, .inl xs) → engineAt s1 j.job.who rq .write rcd = (s2, .inl prs) →
    engineAt s2 j.job.who rq .write new = (s4, .inl phs) →
    ∃ u, exec (.ampPermRun p cl) s = .next u ∧ (getHub u p cl).amps = rest ∧
      u.mem = (sectorWrites (sectorWrites s4 j.job.who (phs.zip xs)) j.job.who (prs.zip [leBytes 32 j.uniRec.toNat, leBytes 32 (j.uniRec.toNat / 2 ^ 256)])).mem)

/-- R336 to R338: a run starts while fewer than four run, with every step's count of predecessors; a step that is ready completes its work and counts its
successors down; a QUEUE step pushes its next block. -/
def Sys2Proof.Rules.BraidSteps : Prop :=
  (∀ (s : State) (p cl : Nat) (r : BraidRun) (s1 : State) (steps : List Step),
    (getHub s p cl).runs.find? (fun r => !r.started) = some r → ((getHub s p cl).runs.filter (fun x => x.started)).length < 4 →
    readBraid s p cl r = (s1, .inl (some steps)) →
    ∃ u, exec (.braidRunStart p cl) s = .next u ∧ (getHub u p cl).runs = (getHub s1 p cl).runs.map (fun x => if x.id = r.id then
      { x with started := true, steps := steps, st := steps.map (fun y =>
        { cnt := y.ndep, done := false, failed := false, tainted := false, pushed := 0, marked := 0, ticket := none }) } else x)) ∧
  (∀ (s : State) (p cl run step : Nat) (r : BraidRun) (x : Step) (t : StepRun), readyStep s p cl run step = some (r, x, t) → x.kind ≠ 6 →
    let rq : Req := .braid p cl run (some step)
    (∀ s1, stepWork s r.job.who rq x t.tainted (stepSrc r x) (stepDst r x) = .done s1 →
      exec (.braidStepComplete p cl run step) s = .next (afterStep s1 p cl (stepDone r step false))) ∧
    (∀ s1 cause a, stepWork s r.job.who rq x t.tainted (stepSrc r x) (stepDst r x) = .failed s1 cause a →
      let y := jobFail (dropRefused s1 r.job.who.core rq) r.job 0x39 cause a step
      exec (.braidStepComplete p cl run step) s = .next (afterStep y.1 p cl (stepDone { r with job := y.2 } step true))) ∧
    (∀ s1, stepWork s r.job.who rq x t.tainted (stepSrc r x) (stepDst r x) = .wait s1 → exec (.braidStepComplete p cl run step) s = .next s1)) ∧
  (∀ (s : State) (w : Who) (rq : Req) (x : Step) (tainted : Bool) (src dst : Dword) (s1 : State) (ph : Nat) (host : Bool), x.kind = 5 → dst.toNat % 8 = 0 →
    noWait s w rq [(dst, true)] → judge s w dst 8 .rmw = (s1, .ok ph host) → Memory.wf s1.mem = true → s1.redirects = [] →
    ∃ u, stepWork s w rq x tainted src dst = .done u ∧ (let old := readNat s1 w.gslot ph 8
      readNat u w.gslot ph 8 = (if tainted then 2 ^ 63 else old / 2 ^ 63 * 2 ^ 63) + old % 2 ^ 63 / 2 ^ 32 * 2 ^ 32 + (old + 1) % 2 ^ 32)) ∧
  (∀ (r : BraidRun) (k : Nat) (x : Step) (i : Nat) (t : StepRun), r.steps[k]? = some x → r.st[i]? = some t → i ≠ k →
    (stepDone r k false).st[i]? = some (if i ∈ x.succ then
      { t with cnt := t.cnt - 1, tainted := t.tainted || (match r.st[k]? with | some y => y.tainted | none => false) } else t)) ∧
  (∀ (s : State) (p cl run step : Nat) (r : BraidRun) (x : Step) (t : StepRun), readyStep s p cl run step = some (r, x, t) → x.kind = 6 →
    let q := x.len / 2 ^ 16 % 2 ^ 9
    hasFord s p r.job.who.pid q = true → t.pushed < x.len % 2 ^ 16 → (getHub s p q).blocks.length < 4096 →
    ∃ u b, exec (.queueStepPush p cl run step) s = .next u ∧ (getHub u p q).blocks = (getHub s p q).blocks ++ [b] ∧ b.k = t.pushed ∧
      b.src = issuerAddr r.job.who (r.base.getD x.sb 0 + x.soff + dw (128 * t.pushed)) ∧
      b.dst = issuerAddr r.job.who (r.base.getD x.db 0 + x.doff + dw (128 * t.pushed)) ∧ b.tag = r.job.tag ∧ b.runId = r.id ∧ b.step = step)

/-- R106, R328: the shoot-down of a shard entry: at the root, at each package's node, at each hub, and its completion with the status. -/
def Sys2Proof.Rules.ShardShootdowns : Prop :=
  (∀ (s : State) (x : Shoot) (l : List Shoot), s.shoots = x :: l → x.atRoot = false → (∀ y ∈ l, y.id ≠ x.id) →
    let up := fun p : Nat => (route s 1 p).isSome && (route s p 1).isSome
    exec .shootdownAtRoot s = .next { s with shoots := { x with atRoot := true, nodes := ((s.pkgs.map (fun y => y.1)).filter (inJob s)).filter up
                                                                passed := ((s.pkgs.map (fun y => y.1)).filter (inJob s)).any (fun p => !up p) } :: l }) ∧
  (∀ (s : State) (p : Nat) (x : Shoot) (l : List Shoot), s.shoots = x :: l → x.atRoot = true → p ∈ x.nodes →
    (∀ q, treeParent s p = some q → q ∉ x.nodes) →
    let at_ := shardBase s p x.who.pid + 64 * x.handle
    shardBase s p x.who.pid ≠ 0 → devOk s p x.who.pid at_ = true →
    ∃ u, exec (.shootdownAtNode p) s = .next u ∧ u.mem = (writeNat s none (devPhys p at_) 64 x.entry.toNat).mem ∧
      ∃ y, u.shoots.head? = some y ∧ y.nodes = x.nodes.filter (· ≠ p) ∧
        ∀ q k, (q, k) ∈ y.hubs ↔ (q, k) ∈ x.hubs ∨ (q = p ∧ k < 512 ∧ inReach s p x.who.pid (k / 32) = true)) ∧
  (∀ (s : State) (p cl : Nat) (x : Shoot) (l : List Shoot), s.shoots = x :: l → (p, cl) ∈ x.hubs →
    (isAwake (getHub s p cl).ret = true → shardPending s p cl x.handle = true → exec (.hubShootdownAck p cl) s = .next s) ∧
    (isAwake (getHub s p cl).ret = true → shardPending s p cl x.handle = false → ∃ u y, exec (.hubShootdownAck p cl) s = .next u ∧
      (getHub u p cl).shard = (getHub s p cl).shard.filter (fun e => decide (e.1 ≠ x.handle)) ∧ u.shoots.head? = some y ∧
      y.hubs = x.hubs.filter (· ≠ (p, cl))) ∧
    (isAwake (getHub s p cl).ret = false → ∃ u, exec (.hubShootdownAck p cl) s = .next u ∧ (getHub u p cl).shard = [])) ∧
  (∀ (s : State) (x : Shoot) (l : List Shoot) (t : Thread) (o : Out) (r : GReg), s.shoots = x :: l → x.atRoot = true → x.nodes = [] → x.hubs = [] →
    getT s x.who.core x.slot = some t → t.run = .held (.shinv x.id) → t.out = [o] → o.seq = x.seq → o.dst = .g r → o.staleBy = none → r ≠ 0 →
    x.slot < 16 →
    ∃ u t', exec .shinvCompletion s = .next u ∧ u.shoots = l ∧ getT u x.who.core x.slot = some t' ∧ t'.run = .ready ∧ t'.out = [] ∧
      t'.regs.g[r] = if x.passed then 1 else 0)

/-! ## Queues, weirs and run queues (spec/16) -/

namespace Sys2Proof.Machine

/-- The packet events: the row, and the TYPEs that it is about (R383, R385 to R387). -/
noncomputable def packetRows : List ((Nat → Nat → Instr) × List Nat) := [
  (.kernelPacket, [1]), (.copyPacket, [2]), (.braidPacket, [3]), (.ampPacket, [4]), (.waitflagPacket, [5]), (.signalPacket, [6])]

/-- The next packet of a queue may start (R384, R387): it is well formed, and what BARRIER or SIGNAL asks for has happened. -/
def startable (s : State) (p q : Nat) (k : Packet) (type : Nat) : Prop :=
  (∀ x ∈ (getQueue s p q).pkts, x.report = none) ∧ nextPacket s p q = some k ∧ k.type = type ∧ k.bad = [] ∧ packetOk k.bits.toNat = true ∧ barrierMet s p q k = true

/-- The packet has started. -/
def begunPacket (s : State) (p q : Nat) (k : Packet) : State := modPacket s p q k.no (fun x => { x with started := true })

/-- An arrival is that of a SIGNAL packet (R387): the weir's, under the queue's number and the packet's own. -/
def signalOf (p q : Nat) (k : Packet) (a : Arrival) : Prop := a.who = packetWho p q k ∧ a.kind = 0 ∧ a.addr = dw q ∧ a.tag = k.no + 1

/-- The frame of an engine packet (R386): its cluster lies in the partition, REPORT is aligned, and the n bytes at its aligned address are b. -/
def engineOperand (s : State) (p q : Nat) (k : Packet) (a : Dword) (n : Nat) (s1 : State) (b : Nat) : Prop :=
  let cl := k.bits.toNat / 2 ^ 256 % 2 ^ 64
  let c : CoreId := { pkg := p, n := 16 * cl }
  inReach s p k.pid (reachOfCluster cl) = true ∧ k.bits.toNat / 2 ^ 192 % 2 ^ 64 % 8 = 0 ∧ a.toNat % n = 0 ∧
    ∃ r, resolve c a = some r ∧ weirRead s (weirWho c k.pid k.asid) (.packet q k.no) r n 7 = .bytes s1 b

/-- The job of an engine packet. -/
def packetJob (p q : Nat) (k : Packet) (flag : Dword) (tag : Nat) : Job :=
  {
    who := weirWho { pkg := p, n := 16 * (k.bits.toNat / 2 ^ 256 % 2 ^ 64) } k.pid k.asid, flag := flag, tag := tag, note := false
    packet := some (q, dw (k.bits.toNat / 2 ^ 192 % 2 ^ 64), k.no), failed := false, firstRec := none }

end Sys2Proof.Machine

/-- R380 to R384, R389: the lead weir takes a published packet of a VALID queue: STATE becomes 0, HIDX goes up by 1, and HEADF has an arrival; in HBM it is
the line that its home forwarded. A malformed packet is refused with REASON 1, one whose last dword has an uncorrectable error with REASON 9; a notified descriptor is read. -/
def Sys2Proof.Rules.PacketsTaken : Prop :=
  (∀ row ∈ packetRows, ∀ (s : State) (p q : Nat) (e : Desc) (s1 : State) (ph lim type : Nat) (host : Bool), type ∈ row.2 →
    nextPacket s p q = none → (∀ k ∈ (getQueue s p q).pkts, k.type ≠ 6 ∧ k.report = none) → descValid (descBits s p q) = true →
    descOf (descBits s p q) = some e →
    let s0 := if (getQueue s p q).served then s else openQueue s p q (descBits s p q)
    let w := weirOf p (q % 4) e.pid e.asid
    let a := dw (e.ring + 64 * (e.hidx % 2 ^ e.len))
    noWait s0 w (.weir (.head q e.hidx)) [(a, true)] → xlate s0 w a true = (s1, .at_ ph lim none host) → ∀ x bad, headPacket s1 ph = some (x, bad) →
    x / 2 ^ 496 % 2 ^ 8 = type → x < 2 ^ 512 → ph + 64 < 2 ^ 60 → Memory.wf s1.mem = true → (getPkg s1 p).qtab = (getPkg s p).qtab →
    ∃ u k, exec (row.1 p q) s = .next u ∧ (getQueue u p q).pkts = (getQueue s1 p q).pkts ++ [k] ∧ k.index = e.hidx ∧ k.no = s1.itemSeq ∧ k.bits.toNat = x ∧
      k.pid = e.pid ∧ k.asid = e.asid ∧ k.started = false ∧ k.bad = bad ∧
      (ph + 63 < descAt s p q + 0x10 ∨ descAt s p q + 0x14 ≤ ph + 63 → readByte u none (ph + 63) = 0) ∧ readNat u none (descAt s p q + 0x10) 4 = (e.hidx + 1) % 2 ^ 32 ∧
      ∃ y ∈ u.arrivals, y.flag = e.headf ∧ y.inc = false) ∧
  (∀ row ∈ packetRows, ∀ (s : State) (p q : Nat) (k : Packet), nextPacket s p q = some k → k.type ∈ row.2 →
    (∀ x ∈ (getQueue s p q).pkts, (x.started = true → x.type ≠ 6) ∧ x.report = none) →
    (7 ∈ k.bad → exec (row.1 p q) s = .next (refusePacket s p q k 9)) ∧
    (7 ∉ k.bad → packetOk k.bits.toNat = false → exec (row.1 p q) s = .next (refusePacket s p q k 1))) ∧
  (∀ (s : State) (ph : Nat), poisoned s none ph 64 = false →
    let x := readNat s none ph 64
    (x / 2 ^ 504 = 0 → headPacket s ph = none) ∧ (1 < x / 2 ^ 504 → headPacket s ph = some (x, [])) ∧
    (x / 2 ^ 504 = 1 → headPacket s ph = (aGet s.lines ph).map (fun y => (y.toNat, [])))) ∧
  (∀ (s : State) (p q : Nat), q ∈ (getPkg s p).descs → descValid (descBits s p q) = false →
    let s1 := modPkg s p (fun k => { k with descs := k.descs.filter (· ≠ q) })
    exec (.descriptorNotification p q) s = .next (closeQueue s1 p q) ∧
      ((getQueue s p q).served = false → closeQueue s1 p q = s1)) ∧
  (∀ (s : State) (p q : Nat), q ∈ (getPkg s p).descs → descValid (descBits s p q) = true → (descOf (descBits s p q)).isSome = true →
    let s1 := modPkg s p (fun k => { k with descs := k.descs.filter (· ≠ q) })
    exec (.descriptorNotification p q) s = .next (openQueue s1 p q (descBits s p q))) ∧
  (∀ (s : State) (p q : Nat), q ∈ (getPkg s p).descs → descValid (descBits s p q) = true → descOf (descBits s p q) = none →
    let pid := descBits s p q / 2 ^ 504 % 2 ^ 4
    noteRoom s p pid (weirSender (q % 4)) = true →
    exec (.descriptorNotification p q) s = .next (refusalMessage (modPkg s p (fun k => { k with descs := k.descs.filter (· ≠ q) })) p q pid 1 0
      (descBits s p q / 2 ^ 128 % 2 ^ 64)))

/-- R386, R387: a COPY, BRAID or AMP packet that passes its checks starts its operation; WAITFLAG completes when its flag has been reached and stays
otherwise; SIGNAL makes one arrival on G, with INC where an earlier packet of the queue failed, and completes after it. -/
def Sys2Proof.Rules.PacketsStarted : Prop :=
  (∀ (s : State) (p q : Nat) (k : Packet) (s1 : State) (b : Nat) (d r f : Dword), startable s p q k 2 →
    let x := k.bits.toNat
    engineOperand s p q k (dw (x % 2 ^ 64)) 64 s1 b →
    copyCheck s1 { pkg := p, n := 16 * (x / 2 ^ 256 % 2 ^ 64) } k.pid b (dw (x / 2 ^ 64 % 2 ^ 64)) (dw (x / 2 ^ 128 % 2 ^ 64)) 0 = .inr (d, r, f) →
    b / 2 ^ 17 % 2 = 0 →
    exec (.copyPacket p q) s = .next (begunPacket { s1 with
      copies := s1.copies ++ [{
        id := s1.itemSeq, job := packetJob p q k 0 (b / 2 ^ 32 % 2 ^ 32), core := { pkg := p, n := 16 * (x / 2 ^ 256 % 2 ^ 64) }
        rcd := BitVec.ofNat 512 b, dst := d, src := r, share := 0, domain := 0 }]
      itemSeq := s1.itemSeq + 1 } p q k)) ∧
  (∀ (s : State) (p q : Nat) (k : Packet) (s1 : State) (b : Nat) (r f : Dword), startable s p q k 3 →
    let x := k.bits.toNat
    let c : CoreId := { pkg := p, n := 16 * (x / 2 ^ 256 % 2 ^ 64) }
    engineOperand s p q k (dw (x / 2 ^ 64 % 2 ^ 64)) 128 s1 b → x % 2 ^ 64 % 32 = 0 → baseCheck s1 c k.pid (dw (x % 2 ^ 64)) = .inr r →
    baseLineCheck s1 c b = .inr f →
    exec (.braidPacket p q) s = .next (begunPacket (startRun s1 p (x / 2 ^ 256 % 2 ^ 64) (packetJob p q k f (b / 2 ^ 576 % 2 ^ 32)) r
      ((List.range 8).map (fun i => dw (b / 2 ^ (64 * i) % 2 ^ 64))) false) p q k)) ∧
  (∀ (s : State) (p q : Nat) (k : Packet) (s1 s2 : State) (b qr : Nat) (qa ua f : Dword), startable s p q k 4 →
    let x := k.bits.toNat
    let c : CoreId := { pkg := p, n := 16 * (x / 2 ^ 256 % 2 ^ 64) }
    x / 2 ^ 489 % 2 = 0 → engineOperand s p q k (dw (x % 2 ^ 64)) 64 s1 b → ampAddrs s1 c k.pid false b = .inr (qa, ua, f) →
    weirRead s1 (weirWho c k.pid k.asid) (.packet q k.no) qa 64 7 = .bytes s2 qr → ampOk false b qr 0 = true →
    exec (.ampPacket p q) s = .next (begunPacket (startAmp s2 p (x / 2 ^ 256 % 2 ^ 64) (packetJob p q k f (b / 2 ^ 448 % 2 ^ 32)) false
      (ampBlock b qa ua f) qr 0) p q k)) ∧
  (∀ (s : State) (p q : Nat) (k : Packet), startable s p q k 5 →
    (k.met = true → exec (.waitflagPacket p q) s = .next (completePacket s p q k.no false)) ∧
    (k.met = false → ∀ s1 v, weirRead s (packetWho p q k) (.packet q k.no) (dw (k.bits.toNat % 2 ^ 64)) 8 1 = .bytes s1 v →
      (reached v (k.bits.toNat / 2 ^ 64 % 2 ^ 64) = true → exec (.waitflagPacket p q) s = .next (completePacket s1 p q k.no false)) ∧
      (reached v (k.bits.toNat / 2 ^ 64 % 2 ^ 64) = false →
        exec (.waitflagPacket p q) s = .next (modPacket s1 p q k.no (fun x => { x with watching := true }))))) ∧
  (∀ (s : State) (p q : Nat) (k : Packet), startable s p q k 6 → (∀ x ∈ (getQueue s p q).pkts, x.started = true → x.type ≠ 6) →
    ∃ a, exec (.signalPacket p q) s = .next (sendArrival (begunPacket s p q k) a) ∧ a.flag = dw (k.bits.toNat % 2 ^ 64) ∧
      a.inc = (getQueue s p q).failed ∧ a.who = packetWho p q k ∧ signalOf p q k a) ∧
  (∀ (s : State) (p q : Nat) (k : Packet), (getQueue s p q).pkts.find? (fun x => x.started && decide (x.type = 6)) = some k →
    ((∃ a ∈ s.arrivals, signalOf p q k a) → exec (.signalPacket p q) s = .next s) ∧
    ((∀ a ∈ s.arrivals, ¬ signalOf p q k a) → exec (.signalPacket p q) s = .next (completePacket s p q k.no false))) ∧
  (∀ (s : State) (p q no : Nat) (failed : Bool) (k : Packet), (getQueue s p q).pkts.find? (fun x => decide (x.no = no)) = some k →
    let u := completePacket s p q no failed
    (getQueue u p q).pkts = (getQueue s p q).pkts.filter (fun x => decide (x.no ≠ no)) ∧ (getQueue u p q).failed = ((getQueue s p q).failed || failed) ∧
    (k.type = 6 → u.arrivals = s.arrivals) ∧
    (k.type ≠ 6 → k.done ≠ 0 → k.done % 8 = 0 → ∃ a ∈ u.arrivals, a.flag = dw k.done ∧ a.inc = failed))

/-- R385, R388 to R390: a KERNEL packet whose grid is neither co-resident nor of a domain is admitted to the free entry of lowest number, RUNNING, with the
packet's and the header's fields; one that a check refuses has its REASON; the weir of a die places the group whose turn it is; a complete grid gives
back its entry, its cores and its DONE arrival. -/
def Sys2Proof.Rules.GridLife : Prop :=
  (∀ (s : State) (p q : Nat) (k : Packet), startable s p q k 1 →
    let z := updateReserve s p
    let f := kFields k.bits.toNat
    waitingSlot z p q k = none → (k.asid = 0xFFFF → exec (.gridAdmission p q) s = .next (refusePacket z p q k 1)) ∧ (k.asid ≠ 0xFFFF →
    (∀ z1, readHeader z (packetWho p q k) (.packet q k.no) (dw f.khdr) = .bad z1 → exec (.gridAdmission p q) s = .next (refuseAfter z1 p q k (packetWho p q k).core 2)) ∧
    ∀ z1 h, readHeader z (packetWho p q k) (.packet q k.no) (dw f.khdr) = .ok z1 h →
    (admitReason z1 p k.pid f h ≠ 0 →
      exec (.gridAdmission p q) s = .next (refuseAfter z1 p q k (packetWho p q k).core (admitReason z1 p k.pid f h))) ∧
    (admitReason z1 p k.pid f h = 0 → f.coloc = false → h.coloc = false → h.net = false → f.domain = 0 → ∀ gs, gs < 255 →
      getGrid z1 p gs = none → (∀ i, i < gs → (getGrid z1 p i).isSome = true) →
      ∃ u g, exec (.gridAdmission p q) s = .next u ∧ getGrid u p gs = some g ∧ g.st = .running ∧ g.hdr = h ∧ g.pid = k.pid ∧ g.asid = k.asid ∧
        g.gcount = k.bits.toNat / 2 ^ 320 % 2 ^ 32 ∧ g.next = 0 ∧ g.live = 0 ∧ g.groups = [] ∧ g.queue = q ∧ g.index = k.index ∧ g.packet = k.no))) ∧
  (∀ (s : State) (p d gs : Nat) (x : List Spot), firstBy (candidates (updateReserve s p) p d) = some (.place gs x) →
    exec (.groupPlacement p d) s = .next (placeUnit (updateReserve s p) p gs d x)) ∧
  (∀ (s : State) (p gs : Nat) (g : Grid) (spots : List Spot), getGrid s p gs = some g → gs < 255 → g.hdr.reel = false →
    (∀ x ∈ spots, x.crew < 16 ∧ x.core < 8192 ∧ x.slots = [0]) → spots.length = 1 →
    let share := if g.domain = 0 then 0 else 2 ^ g.wexp
    ∃ g', getGrid (startGroup s p gs spots) p gs = some g' ∧ g'.next = g.next + 1 ∧ g'.live = g.live + 1 ∧
      (∀ x ∈ spots, ∃ t, getT (startGroup s p gs spots) { pkg := p, n := x.core } 0 = some t ∧ t.pc = g.hdr.entry ∧ t.seg = 0 ∧ t.run = .ready ∧
        t.group = g.next ∧ t.tid = 0 ∧ t.crew = x.crew ∧ t.weight = share ∧ t.domain = g.domain ∧ t.pid = g.pid ∧ t.asid = g.asid)) ∧
  (∀ (s : State) (p gs : Nat) (g : Grid), getGrid s p gs = some g → gs < 255 → gridComplete g = true → gridQuiet s p gs = true → g.domain = 0 →
    ∃ u, exec (.gridDoneArrival p gs) s = .next u ∧ getGrid u p gs = none ∧
      (∀ c k, aGet u.cores c = some k → c.pkg = p → k.tenancy ≠ some gs) ∧
      (∀ k, (getQueue s p g.queue).pkts.find? (fun x => decide (x.no = g.packet)) = some k → k.type = 1 → k.done ≠ 0 → k.done % 8 = 0 →
        ∃ a ∈ u.arrivals, a.flag = dw k.done ∧ a.inc = g.failed))

/-- R47, R55, R56, R391 to R394: ageing raises a grid whose next group has been pending for 2^20 cycles; an eviction saves the groups it needs, all or none;
a restore puts back the group whose turn it is; a pickup starts the head record's thread on a core in rotation, and a malformed record is dropped; the
weir loads the segment that the head record needs. -/
def Sys2Proof.Rules.WeirTurns : Prop :=
  (∀ (s : State) (p gs : Nat) (g : Grid), getGrid s p gs = some g → gs < 255 →
    (hasPending g = true → g.pendSince + 2 ^ 20 ≤ s.clock → ∃ u, exec (.ageingPromotion p gs) s = .next u ∧ getGrid u p gs = some { g with raised := true }) ∧
    (s.clock < g.pendSince + 2 ^ 20 → ∃ u, exec (.ageingPromotion p gs) s = .next u ∧ getGrid u p gs = some g)) ∧
  (∀ (s : State) (p d : Nat) (r : Group) (gs : Nat) (g : Grid), firstBy (candidates (updateReserve s p) p d) = some (.restore gs r) →
    getGrid (updateReserve s p) p gs = some g →
    exec (.groupRestore p d) s = .next (restoreGroup (updateReserve s p) p d gs g r)) ∧
  (∀ (s : State) (p d key rk gs : Nat) (vs : List (Nat × Group)), let z := updateReserve s p
    wanting z p d = [(key, rk, .place gs)] → enough z p d (.place gs) (victims z p d rk) [] = some vs →
    exec (.eviction p d) s = .next ((vs.foldl (fun (o : Option State) v => o.bind (fun s => evictGroup s p v.1 v.2)) (some z)).getD z)) ∧
  (∀ (s : State) (p cl : Nat) (e : RingEnt) (g : Grid) (i sl : Nat), ringHead (getHub s p cl) = some e →
    let b := readNat s none (ringAt p cl e.slot) 64
    let r := CRec.ofBits b
    crecOk b = true → getGrid s p r.gslot = some g → g.st ≠ .halted →
    (rotation (getHub s p cl).pickLast).findSome? (fun i => (takesThread s p (16 * cl + i) r.gslot g.hdr r.seg).map (fun sl => (i, sl))) = some (i, sl) →
    sl < 16 →
    ∃ u t, exec (.runQueuePickup p cl) s = .next u ∧ getT u { pkg := p, n := 16 * cl + i } sl = some t ∧ t.run = .ready ∧ t.pc = r.pc ∧ t.seg = r.seg ∧
      t.weight = r.weight ∧ t.domain = r.domain ∧ t.prio = r.prio ∧ t.tid = r.tid ∧ (getHub u p cl).pickLast = i ∧
      (∀ x ∈ (getHub u p cl).ring, x.slot ≠ e.slot)) ∧
  (∀ (s : State) (p cl : Nat) (e : RingEnt), ringHead (getHub s p cl) = some e → crecOk (readNat s none (ringAt p cl e.slot) 64) = false →
    ∃ u, exec (.runQueuePickup p cl) s = .next u ∧ ∀ x ∈ (getHub u p cl).ring, x.slot ≠ e.slot) ∧
  (∀ (s : State) (p cl : Nat) (e : RingEnt) (g : Grid) (n load size image : Nat), ringHead (getHub s p cl) = some e →
    let s1 := ((List.range 16).map (fun i => 16 * cl + i)).foldl (fun s n => fetchMissing s { pkg := p, n := n }) s
    ringHead (getHub s1 p cl) = some e →
    let b := readNat s1 none (ringAt p cl e.slot) 64
    let r := CRec.ofBits b
    crecOk b = true → getGrid s1 p r.gslot = some g → g.hdr.segs.find? (fun x => decide (x.1 = r.seg)) = some (r.seg, load, size, image) →
    (∀ i, i < 16 → let k := getCore s1 { pkg := p, n := 16 * cl + i }
      k.tenancy = some r.gslot → isResident k r.seg = false ∧ isPending k r.seg = false) →
    loadCore s1 p cl r.gslot g.hdr load size = some n → r.seg ≠ 0 →
    exec (.headSegmentLoad p cl) s = .next (fetchFor s1 { pkg := p, n := n } r.seg g))

/-! ## Traps, halts and images (spec/06 R209, spec/15 R347, R364 to R376) -/

namespace Sys2Proof.Machine

/-- The halts: the row with its arguments, OP, and what it is about (R369). -/
noncomputable def haltRows : List ((Nat → Nat → Nat → Nat → Instr) × Nat) := [
  (fun p pid g _ => .preemptHaltGrid p pid g, 0), (fun p pid _ _ => .preemptHaltPartition p pid, 1),
  (fun p pid g c => .preemptHaltCrews p pid g c, 2)]

/-- A message of the LX9 to NOTIFY of a partition has been sent (R361): it stands last in the mailbox, or, where that is full or earlier messages of its
sender wait, last among those that the sender keeps. -/
def sentNote (s u : State) (p pid sender : Nat) (d : Nat) : Prop :=
  let f : CoreId := { pkg := p, n := 8192 + notifyOf s p pid }
  if (getCore s f).mailbox.length < 64 ∧ (getCore s f).notify.filter (fun x => decide (x.1 = senderAt p sender)) = [] then
    (getCore u f).mailbox = (getCore s f).mailbox ++ [dw d] ∧ (getCore u f).notify = (getCore s f).notify
  else (getCore u f).mailbox = (getCore s f).mailbox ∧ (getCore u f).notify = (getCore s f).notify ++ [(senderAt p sender, dw d)]

end Sys2Proof.Machine

/-- R150, R347, R364, R365: a trap that waited for its thread's results is taken when they have landed: by the user handler, or delivered; a record that
waits goes to the trap queue, TQTAIL goes up by 1, and the message is sent. -/
def Sys2Proof.Rules.TrapsThatWaited : Prop :=
  (∀ (s : State) (c : CoreId) (slot : Nat) (t : Thread) (i : TrapInfo), getT s c slot = some t → t.trap = some i → t.run = .held .trap → t.out = [] →
    t.acc = [] → t.halted = false → (getCore s c).halted = false →
    (userHandled s c t i = true → exec (.userTrapEntry c slot) s = .next (enterTrap s c slot i) ∧ exec (.trapDelivery c slot) s = .next s) ∧
    (userHandled s c t i = false → exec (.trapDelivery c slot) s = .next (enterTrap s c slot i) ∧ exec (.userTrapEntry c slot) s = .next s)) ∧
  (∀ (s : State) (p pid a : Nat) (x : TrapWait) (l : List TrapWait), (getPkg s p).trapWaits = x :: l → x.pid = pid → x.sent = none →
    trapEntryAt s p pid = some a → pid < 16 → Memory.wf s.mem = true →
    let hub := clusterOf (x.rcd.toNat / 2 ^ 384 % 2 ^ 13)
    let tail := (block s p pid).tqtail
    ∃ u, exec (.trapRecordAppend p pid) s = .next u ∧
      (block u p pid).tqtail = (tail + 1) % 2 ^ 32 ∧ readNat u none (devPhys p a) 64 = x.rcd.toNat ∧
      (noteRoom s p pid hub = true → (getPkg u p).trapWaits = l ∧ sentNote s u p pid hub (4 * 2 ^ 56 + pid * 2 ^ 48 + (x.gslot * 2 ^ 32 + tail))) ∧
      (noteRoom s p pid hub = false → (getPkg u p).trapWaits = { x with sent := some tail } :: l)) ∧
  (∀ (s : State) (p pid n : Nat) (x : TrapWait) (l : List TrapWait), (getPkg s p).trapWaits = x :: l → x.pid = pid → x.sent = some n →
    let hub := clusterOf (x.rcd.toNat / 2 ^ 384 % 2 ^ 13)
    noteRoom s p pid hub = true → ∃ u, exec (.trapRecordAppend p pid) s = .next u ∧ (getPkg u p).trapWaits = l ∧ u.mem = s.mem ∧
      (block u p pid).tqtail = (block s p pid).tqtail ∧ sentNote s u p pid hub (4 * 2 ^ 56 + pid * 2 ^ 48 + (x.gslot * 2 ^ 32 + n))) ∧
  (∀ (s : State) (p pid : Nat) (x : TrapWait) (l : List TrapWait), (getPkg s p).trapWaits = x :: l → x.pid = pid → x.sent = none →
    trapEntryAt s p pid = none → exec (.trapRecordAppend p pid) s = .next s)

/-- R369, R370: a halt whose area is large enough halts the threads of its crews and, whole grids, makes them HALTED; one whose area is too small ends
with ERR 1; it is complete when nothing is in flight, with STATE 2 and the message of top byte 1; the save ends with STATE 3 and top byte 2. -/
def Sys2Proof.Rules.Halts : Prop :=
  (∀ row ∈ haltRows, ∀ (s : State) (p pid g c : Nat) (q : Preempt), getPreempt s p pid = some q → q.at_ = 0 → q.op = row.2 →
    (row.2 ≠ 1 → q.gslot = g) → (row.2 = 2 → q.core = c) → pid < 16 →
    let target := haltTarget s p pid q.op q.gslot q.core
    ((block s p pid).pasize.toNat < needOf s p target → ∃ u, exec (row.1 p pid g c) s = .next u ∧ getPreempt u p pid = none ∧
      (block u p pid).pstat = pstatOf q.was (needOf s p target) 1) ∧
    (needOf s p target ≤ (block s p pid).pasize.toNat → ∃ u q', exec (row.1 p pid g c) s = .next u ∧ getPreempt u p pid = some q' ∧ q'.at_ = 1 ∧
      q'.todo = target ∧ (∀ x ∈ target, ∀ sl, sl ∈ crewSlots (getCore s { pkg := p, n := x.2.1 }) x.1 x.2.2 → sl < 16 →
        ∀ t, getT u { pkg := p, n := x.2.1 } sl = some t → t.halted = true) ∧
      ∀ gs g0, getGrid s p gs = some g0 → gs < 255 → getGrid u p gs = some (
        if (q.op = 0 ∧ gs = q.gslot) ∨ (q.op = 1 ∧ gs ∈ liveGrids s p pid) then
          { g0 with before := if g0.st = .halted then g0.before else g0.st, st := .halted } else g0))) ∧
  (∀ (s : State) (p pid : Nat) (q : Preempt), getPreempt s p pid = some q → q.at_ = 1 → q.op ≠ 3 →
    (∀ x ∈ q.todo, inFlight s p x.1 x.2.1 = false) → noteRoom s p pid (preemptWeir s p q) = true → pid < 16 →
    ∃ u q', exec (.haltComplete p pid) s = .next u ∧ getPreempt u p pid = some q' ∧ q'.at_ = 2 ∧ (block u p pid).pstat = pstatOf 2 0 0 ∧
      sentNote s u p pid (preemptWeir s p q) (2 ^ 56 + pid * 2 ^ 48 + (if q.op = 1 then 0xFF else q.gslot) * 2 ^ 32)) ∧
  (∀ (s : State) (p pid : Nat) (q : Preempt), getPreempt s p pid = some q → q.at_ = 2 → (∀ x ∈ q.todo, trapOpen s p x = false) →
    noteRoom s p pid (preemptWeir s p q) = true → pid < 16 →
    ∃ u, exec (.saveComplete p pid) s = .next u ∧ getPreempt u p pid = none ∧ (block u p pid).pstat = pstatOf 3 0 0 ∧
      (q.op ≠ 3 → sentNote s u p pid (preemptWeir s p q) (2 * 2 ^ 56 + pid * 2 ^ 48 + (if q.op = 1 then 0xFF else q.gslot) * 2 ^ 32))) ∧
  (∀ (s : State) (p pid : Nat) (q : Preempt), getPreempt s p pid = some q → noteRoom s p pid (preemptWeir s p q) = false →
    exec (.haltComplete p pid) s = .next s ∧ exec (.saveComplete p pid) s = .next s)

/-- R369, R375, R376: a resume of an area with no valid image gives ERR 4; it begins with the images of the area, and ends with STATE 0 and the message of
top byte 3; IMGCTL restores a trapped thread's image where its core can take it, discards one, and refuses an image that is not one. -/
def Sys2Proof.Rules.ResumesAndImages : Prop :=
  (∀ (s : State) (p pid : Nat) (q : Preempt), getPreempt s p pid = some q → q.op = 3 → pid < 16 →
    let l := areaImages s p 131072 (devPhys p ((block s p pid).parea.toNat / 2 ^ 6 % 2 ^ 42 * 64))
    (q.at_ = 0 → areaOk s p pid l = false → ∃ u, exec (.preemptResume p pid) s = .next u ∧ getPreempt u p pid = none ∧
      (block u p pid).pstat = pstatOf q.was 0 4) ∧
    (q.at_ = 0 → areaOk s p pid l = true → ∃ u q', exec (.preemptResume p pid) s = .next u ∧ getPreempt u p pid = some q' ∧ q'.at_ = 1 ∧
      q'.todo = (l.filterMap id).map (fun x => (x.1.gslot, x.2, x.1.crew)) ∧
      ∀ gs g0, getGrid s p gs = some g0 → gs < 255 → g0.st = .halted → (∃ x ∈ l.filterMap id, x.1.gslot = gs) →
        ∃ g1, getGrid u p gs = some g1 ∧ g1.st = g0.before) ∧
    (q.at_ ≠ 0 → (∀ x ∈ q.todo, isOffCore s p x.2.1 x.1 x.2.2 = false) → noteRoom s p pid (preemptWeir s p q) = true →
      ∃ u, exec (.preemptResume p pid) s = .next u ∧ getPreempt u p pid = none ∧ (block u p pid).pstat = pstatOf 0 0 0 ∧
        ∀ gs, (q.todo ≠ [] ∧ ∀ x ∈ q.todo, x.1 = gs) ∨ (gs = 0xFF ∧ ∃ x ∈ q.todo, ∃ y ∈ q.todo, x.1 ≠ y.1) →
          sentNote s u p pid (preemptWeir s p q) (3 * 2 ^ 56 + pid * 2 ^ 48 + gs * 2 ^ 32)) ∧
    (q.at_ ≠ 0 → (∀ x ∈ q.todo, isOffCore s p x.2.1 x.1 x.2.2 = false) → noteRoom s p pid (preemptWeir s p q) = false →
      exec (.preemptResume p pid) s = .next s)) ∧
  (∀ (s : State) (p pid : Nat) (img : Dword), pid < 16 →
    ((block s p pid).imgreq = some (1, img.toNat) → trapImage s p pid img.toNat = none → ∃ u, exec (.imgctlRestore p pid img) s = .next u ∧
      (block u p pid).istat = 2 ∧ (block u p pid).imgreq = none) ∧
    ((block s p pid).imgreq = some (2, img.toNat) → trapImage s p pid img.toNat = none → ∃ u, exec (.imgctlDiscard p pid img) s = .next u ∧
      (block u p pid).istat = 2 ∧ (block u p pid).imgreq = none) ∧
    ((block s p pid).imgreq = some (1, img.toNat) → ∀ t g, trapImage s p pid img.toNat = some (t, g) → g.st ≠ .halted →
      (getCore s { pkg := p, n := t.core }).tenancy = some t.gslot → isOffCore s p t.core t.gslot t.crew = false →
      getT s { pkg := p, n := t.core } (imgSlot s (devPhys p img.toNat)) = none →
      (getCore s { pkg := p, n := t.core }).mq.length + readNat s none (devPhys p img.toNat + 0x18) 8 / 2 ^ 40 % 2 ^ 8 ≤ 8 →
      ∃ s1, exec (.imgctlRestore p pid img) s = .next (imgEnd (fetchMissing (restoreThread s1 { pkg := p, n := t.core } g t.crew (devPhys p img.toNat))
        { pkg := p, n := t.core }) p pid 0 (some t)) ∧ s1.mem = (writeNat s none (devPhys p img.toNat) 8
          (readNat s none (devPhys p img.toNat) 8 - readNat s none (devPhys p img.toNat) 8 / 2 ^ 56 % 2 * 2 ^ 56)).mem) ∧
    ((block s p pid).imgreq = some (2, img.toNat) → ∀ t g, trapImage s p pid img.toNat = some (t, g) → t.pid = pid →
      ∃ u, exec (.imgctlDiscard p pid img) s = .next u ∧ (block u p pid).istat = 0 ∧ (block u p pid).imgreq = none ∧ t ∉ (getPkg u p).trapImgs))

/-! ## Errors and the host (spec/17 R420 to R426, spec/18 R429 to R447) -/

namespace Sys2Proof.Machine

/-- Where every 64-bit word of memory, each entry of the empty bits and each flag word is the same: what an event of the links leaves. -/
def sameMemory (s u : State) : Prop := u.mem = s.mem ∧ u.poison = s.poison ∧ u.cores = s.cores ∧ u.wbuf = s.wbuf ∧ u.items = s.items ∧ u.arrivals = s.arrivals

/-- The stores, items and arrivals on their way, but for the mark of those that are being delivered again (R96). -/
def sameTraffic (s u : State) : Prop :=
  u.wbuf = s.wbuf ∧ u.items.map (fun i => { i with retry := false }) = s.items.map (fun i => { i with retry := false }) ∧
    u.arrivals.map (fun a => { a with retry := false }) = s.arrivals.map (fun a => { a with retry := false })

/-- The exits of sleeping clusters have begun (R452): at once, or after an entry in progress. -/
def clustersWoken (s u : State) (p : Nat) (l : List Nat) : Prop := ∀ k ∈ l,
  ((getHub s p k).ret = .asleep → (getHub u p k).ret = .exiting (s.clock + 7600)) ∧
    ∀ t w, (getHub s p k).ret = .entering t w → (getHub u p k).ret = .entering t true

/-- No request of the function is held (R431, R452): one that is holds those behind it. -/
def noneHeld (s : State) (p fn : Nat) : Prop := ∀ x ∈ (getPkg s p).hostReqs, x.fn ≠ fn

end Sys2Proof.Machine

/-- R420 to R423, R426, R439, R440, R447: an uncorrectable error of data fails every later read of its dword until all 8 bytes are written, and changes no
byte; one of a thread gives it the machine trap of class 8 and an error entry, one of a crew gives it to all its threads; one of instruction memory takes
the segment out of the resident set; one of a cache makes the hub fetch anew. A corrected error, a replayed flit, a message sent again and a new key change
no byte, no thread and no item; a link that failed 16 replays is down from then on.
It rests on the model's choices of log entries 62 and 68. -/
def Obligations.ErrorsAreContained : Prop :=
  (∀ (s : State) (p loc : Nat), (exec (.uncorrectableError p (.data loc)) s = .next (strike s (p * 2 ^ 48 + loc / 8 * 8))) ∧
    exec (.uncorrectableError p (.scrubbed loc)) s = .next (poisonEntry (strike s (p * 2 ^ 48 + loc / 8 * 8)) (p * 2 ^ 48 + loc / 8 * 8))) ∧
  (∀ (s : State) (a : Nat), (strike s a).mem = s.mem ∧ (strike s a).poison.contains a = true) ∧
  (∀ (s : State) (a n d : Nat), (s.poison.contains d = true → a < d + 8 → d < a + n → poisoned s none a n = true) ∧
    (∀ bs : List Byte, bs.length = n → a ≤ d → d + 8 ≤ a + n → ((writeBytes s none a bs).poison.contains d = false))) ∧
  (∀ (s : State) (p n slot : Nat), n < 8192 → exec (.uncorrectableError p (.thread n slot)) s =
    .next (machineTrap (reportErr s p (clusterOf n) (errEntry 4 2 (clusterOf n) n 1 slot 0)) { pkg := p, n := n } slot)) ∧
  (∀ (s : State) (p n crew : Nat), n < 8192 → exec (.uncorrectableError p (.crew n crew)) s = .next
    (((List.range 16).filter (fun i => match getT s { pkg := p, n := n } i with
      | some t => decide (t.crew = crew)
      | none => false)).foldl (fun u i => machineTrap u { pkg := p, n := n } i) (reportErr s p (clusterOf n) (errEntry 4 2 (clusterOf n) n 1 crew 0)))) ∧
  (∀ (s : State) (p n seg : Nat), n < 8192 → seg ≠ 0 → ∃ u, exec (.uncorrectableError p (.imem n seg)) s = .next u ∧
    (∀ x ∈ (getCore u { pkg := p, n := n }).resident, x.id ≠ seg)) ∧
  (∀ (s : State) (p k : Nat), ∃ u, exec (.uncorrectableError p (.cacheEntry k)) s = .next u ∧ (getHub u p k).ranges = [] ∧ (getHub u p k).shard = []) ∧
  (∀ (s : State) (p stack k : Nat) (t : Tlb), ((getPkg s p).tlb.filter (fun x => decide (x.stack = stack)))[k]? = some t →
    ∃ u, exec (.uncorrectableError p (.tlbEntry stack k)) s = .next u ∧ (getPkg u p).tlb = (getPkg s p).tlb.filter (fun x => decide (x ≠ t))) ∧
  (∀ (s : State) (p die : Nat), exec (.uncorrectableError p (.headerEntry die)) s =
    .next (reportErr s p (weirHub die) (errEntry 4 1 (weirHub die) 0 1 0 0))) ∧
  (∀ (s : State) (p link : Nat), (∃ u, exec (.linkReplay p link) s = .next u ∧ sameTraffic s u) ∧
    (8 ≤ link → ∃ u, exec (.linkReplay p link) s = .next u ∧ u.mem = s.mem ∧ u.poison = s.poison ∧ u.cores = s.cores) ∧
    (∃ u, exec (.fabricResend p link) s = .next u ∧ sameTraffic s u ∧ u.mem = s.mem ∧ u.poison = s.poison ∧ u.cores = s.cores ∧ u.pkgs = s.pkgs) ∧ (∃ u, exec (.channelRekey p link) s = .next u ∧ sameMemory s u) ∧
    (∃ u, exec (.linkDown p link) s = .next u ∧ (getPkg u p).linksDown.contains link = true ∧ u.wbuf = s.wbuf ∧ u.items = s.items ∧ u.arrivals = s.arrivals)) ∧
  (∀ (s : State) (p k : Nat), (∃ u, exec (.scrubPass p k) s = .next u ∧ u.wbuf = s.wbuf ∧ u.items = s.items ∧ u.arrivals = s.arrivals ∧
      (s.poison.filter (inCluster p k) = [] → sameMemory s u ∧ (getHub u p k).corrected = (getHub s p k).corrected + Config.softErrors s.tick)) ∧
    (∃ u, exec (.correctedErrorReport p k) s = .next u ∧ ((getHub s p k).errs = [] → (getHub s p k).corrected = 0 → sameMemory s u)) ∧
    (∀ at_, (getHub s p k).errs = [] → 0 < (getHub s p k).corrected → (getHub s p k).lastReport = some at_ → s.clock < at_ + 2 ^ 20 →
      ∃ u, exec (.correctedErrorReport p k) s = .next u ∧ (getHub u p k).corrected = (getHub s p k).corrected) ∧
    ((getHub s p k).errs = [] → 0 < (getHub s p k).corrected → (∀ at_, (getHub s p k).lastReport = some at_ → at_ + 2 ^ 20 ≤ s.clock) → pidOfReach s p (reachOfCluster k) = none →
      (getPkg s p).errLog.length < 1024 → ∃ u, exec (.correctedErrorReport p k) s = .next u ∧ (getHub u p k).corrected = 0 ∧
        (getPkg u p).errLog = (getPkg s p).errLog ++ [errEntry 1 0 k 0 (getHub s p k).corrected 0 0]))

/-- R429, R431, R452: a window access of a function is performed at the addresses that its window names, byte for byte; one outside the function's
partition, its window or the dies out of reset is discarded with an error entry, or answered with Unsupported Request; one that touches a sleeping cluster
wakes it and is held, and those of its function behind it. An access to a register is 8 bytes wide and 8-aligned, and one that is write-only reads zero. -/
def Sys2Proof.Rules.HostWindows : Prop :=
  (∀ (s : State) (p fn : Nat) (hbm : Bool) (off : Dword) (bytes : List Byte), noneHeld s p fn →
    let i := Instr.hostWindowWrite p fn (if hbm then .hbm else .sram) off bytes
    (windowAt s p fn hbm off.toNat bytes.length = none → exec i s = .next (windowEntry s p off.toNat)) ∧
    (∀ a, windowAt s p fn hbm off.toNat bytes.length = some a → windowAsleep s p hbm off.toNat bytes.length = [] → protectedBytes s none a bytes.length = false →
      ∃ u, exec i s = .next u ∧ u.mem = (writeBytes s none a bytes).mem ∧ u.cores.map (fun c => (c.1, c.2.imem)) = s.cores.map (fun c => (c.1, c.2.imem))) ∧
    (∀ a, windowAt s p fn hbm off.toNat bytes.length = some a → windowAsleep s p hbm off.toNat bytes.length ≠ [] →
      ∃ u, exec i s = .next u ∧ u.mem = s.mem ∧ u.cores = s.cores ∧ clustersWoken s u p (windowAsleep s p hbm off.toNat bytes.length) ∧
        (getPkg u p).hostReqs = (getPkg s p).hostReqs ++ [{ fn := fn, bar := if hbm then .hbm else .sram, off := off.toNat, op := .inl bytes }])) ∧
  (∀ (s : State) (p fn : Nat) (hbm : Bool) (off : Dword) (n : Nat), noneHeld s p fn →
    let i := Instr.hostWindowRead p fn (if hbm then .hbm else .sram) off n
    (windowAt s p fn hbm off.toNat n = none → exec i s = .next (answerHost s p .unsupported)) ∧
    (∀ a, windowAt s p fn hbm off.toNat n = some a → windowAsleep s p hbm off.toNat n = [] →
      (poisoned s none a n = false → exec i s = .next (answerHost s p (.read (readBytes s none a n)))) ∧
      (poisoned s none a n = true → ∃ u, exec i s = .next u ∧ (getPkg u p).hostOut.getLast? = some .unsupported)) ∧
    (∀ a, windowAt s p fn hbm off.toNat n = some a → windowAsleep s p hbm off.toNat n ≠ [] →
      ∃ u, exec i s = .next u ∧ u.mem = s.mem ∧ u.cores = s.cores ∧ clustersWoken s u p (windowAsleep s p hbm off.toNat n) ∧
        (getPkg u p).hostOut = (getPkg s p).hostOut ∧
        (getPkg u p).hostReqs = (getPkg s p).hostReqs ++ [{ fn := fn, bar := if hbm then .hbm else .sram, off := off.toNat, op := .inr n }])) ∧
  (∀ (s : State) (p fn : Nat) (bar : HostBar) (off : Dword) (bytes : List Byte) (n : Nat), ¬ noneHeld s p fn →
    let held := fun r : HostReq => modPkg s p (fun k => { k with hostReqs := k.hostReqs ++ [r] })
    exec (.hostWindowWrite p fn bar off bytes) s = .next (held { fn := fn, bar := bar, off := off.toNat, op := .inl bytes }) ∧
      exec (.hostWindowRead p fn bar off n) s = .next (held { fn := fn, bar := bar, off := off.toNat, op := .inr n })) ∧
  (∀ (s : State) (p fn n : Nat) (off : Dword) (bytes : List Byte), noneHeld s p fn →
    (n ≠ 8 ∨ off.toNat % 8 ≠ 0 → exec (.hostWindowRead p fn .regs off n) s = .next (answerHost s p .unsupported)) ∧
    (bytes.length ≠ 8 ∨ off.toNat % 8 ≠ 0 → exec (.hostWindowWrite p fn .regs off bytes) s = .next (answerHost s p .unsupported))) ∧
  (∀ (s : State) (p pid : Nat), pid < 16 →
    (noneHeld s p (pid + 1) → ∀ off : Dword, off ∈ [0x100#64, 80, 112] →
      exec (.hostWindowRead p (pid + 1) .regs off 8) s = .next (answerHost s p (.read (List.replicate 8 0)))) ∧
    (noneHeld s p 0 → exec (.hostWindowRead p 0 .regs 16 8) s = .next (answerHost s p (.read (List.replicate 8 0))))) ∧
  (∀ (s : State) (p fn off n a : Nat) (hbm : Bool), windowAt s p fn hbm off n = some a →
    a = (if hbm then devPhys p off else p * 2 ^ 48 + 0x800000000000 + off) ∧
    off + n ≤ (if hbm then 2 ^ 40 else 0x180000000) ∧ (fn = 0 ∨ ∀ r ∈ windowReaches hbm off n, inReach s p (fn - 1) r = true))

/-- R7, R359, R430, R433, R434, R442: a register write of a virtual function has the effect of R359, or is discarded and sets HSTAT.REFUSED; one of a
read-only register is ignored; REFUSED is cleared by a 1; HMBX puts a dword into the mailbox of NOTIFY, or behind it; the fault doorbell forwards a record of its own partition to the home that the range entry of its page
names, with SOURCE 2 and RCORE 0; FORDMAP takes its low 16 bits, for a cluster of the partition on which nothing of it is live. -/
def Sys2Proof.Rules.HostRegisters : Prop :=
  (∀ (s : State) (p pid k : Nat) (v : Dword), pid < 16 → noneHeld s p (pid + 1) →
    (k ∈ [0, 1, 6, 13, 15] → exec (.registerWrite p pid k v) s = .next s) ∧
    (k < 32 → k ∉ [0, 1, 6, 13, 15] → ∀ u, blockWrite s p pid k v = some u → exec (.registerWrite p pid k v) s = .next u) ∧
    (k < 32 → k ∉ [0, 1, 6, 13, 15] → blockWrite s p pid k v = none → ∃ u, exec (.registerWrite p pid k v) s = .next u ∧ (block u p pid).hstat = (block s p pid).hstat ||| 1#64 ∧
      u.mem = s.mem ∧ u.cores = s.cores) ∧
    (∃ u, exec (.registerWrite p pid 33 v) s = .next u ∧ (block u p pid).hstat = (block s p pid).hstat &&& ~~~(v &&& 1#64)) ∧
    (∃ u, exec (.registerWrite p pid 34 v) s = .next u ∧ (block u p pid).hresp = v &&& 0xF00FFFFFFFFFFFF0#64)) ∧
  (∀ (s : State) (p pid : Nat) (v : Dword), pid < 16 → noneHeld s p (pid + 1) → let c : CoreId := { pkg := p, n := 8192 + notifyOf s p pid }
    ((getCore s c).mailbox.length < 64 → notesOf (getCore s c) (hostSender p pid) = [] →
      exec (.hmbxWrite p pid v) s = .next (modCore s c (fun k => { k with mailbox := k.mailbox ++ [v] }))) ∧
    (64 ≤ (getCore s c).mailbox.length →
      exec (.hmbxWrite p pid v) s = .next (modCore s c (fun k => { k with notify := k.notify ++ [(hostSender p pid, v)] })))) ∧
  (∀ (s : State) (p pid : Nat) (r : HFaultRec), pid < 16 → noneHeld s p (pid + 1) → (fld r.d0 59 56 ≠ pid ∨ doorBusy s p pid = true) →
    ∃ u, exec (.hfaultDoorbell p pid r) s = .next u ∧ (block u p pid).hstat = (block s p pid).hstat ||| 1#64 ∧ (getPkg u p).recs = (getPkg s p).recs) ∧
  (∀ (s : State) (p pid : Nat) (r : HFaultRec) (root a n : Nat) (e : RangeEnt), pid < 16 → noneHeld s p (pid + 1) →
    fld r.d0 59 56 = pid → doorBusy s p pid = false → asEntry s p pid (fld r.d0 55 40) = .tables root a n → searchRange s p pid (fld r.d0 55 40) a r.page.toNat 14 0 n = .hit e →
    ∃ w : State, exec (.hfaultDoorbell p pid r) s = .next (drainRecs w) ∧ w.mem = s.mem ∧ ∃ x : FaultRec, (getPkg w p).recs = (getPkg s p).recs ++ [x] ∧
      x.homePkg = e.homePkg ∧ x.homeFp = e.homeFp ∧ x.page = r.page ∧ x.addr = r.addr ∧ x.d0.toNat / 2 ^ 62 = 2 ∧ x.d0.toNat % 2 ^ 62 = r.d0.toNat % 2 ^ 62) ∧
  (∀ (s : State) (p pid port : Nat) (v : Dword), pid < 16 → port < 8 → noneHeld s p (pid + 1) →
    ((inReach s p pid (reachOfCluster (portCluster port)) = false ∨ liveOn s p pid (portCluster port) = true) →
      ∃ u, exec (.fordmapWrite p pid port v) s = .next u ∧ (block u p pid).hstat = (block s p pid).hstat ||| 1#64 ∧ (block u p pid).fordmap = (block s p pid).fordmap) ∧
    (inReach s p pid (reachOfCluster (portCluster port)) = true → liveOn s p pid (portCluster port) = false →
      ∃ u, exec (.fordmapWrite p pid port v) s = .next u ∧ (block u p pid).fordmap.toList.getD port 0 = v &&& 0xFFFF#64 ∧ (block u p pid).hstat = (block s p pid).hstat))

/-- R426, R443, R450, R453: the management port answers with sensors, with the error log, whose entries have then been read, with a partition's ERING, and
with PSTAT after PREEMPT with OP 1; the power cap is set to a value of 1,000 to 2,800, by the port or by PCAP, and no other; once per millisecond the clock
goes down a step above CAP and up one below 95 per cent of it; QTAB is written while no descriptor of the table is valid. -/
def Sys2Proof.Rules.ManagementAndPower : Prop :=
  (∀ (s : State) (p : Nat), exec (.mgmtReadSensors p) s = .next (answerHost s p (.answer ([Config.sensor s.tick 0, Config.sensor s.tick 1,
      dw (correctedOf s p)] ++ (List.range 16).map (fun pid => (block s p pid).pstat)))) ∧
    (∃ u, exec (.mgmtReadErrorLog p none) s = .next u ∧ (getPkg u p).errLog = [] ∧ u.mem = s.mem ∧
      (getPkg u p).hostOut = (getPkg s p).hostOut ++ [.read ((getPkg s p).errLog.flatMap (fun e => leBytes 32 e.toNat))]) ∧
    (∀ pid, exec (.mgmtReadErrorLog p (some pid)) s = .next (answerHost s p (.read (eringEntries s p pid)))) ∧
    (∀ pid, ∃ u, exec (.mgmtPreempt p pid) s = .next u ∧ u = answerHost (preemptWrite s p pid 0x4000000000000000#64) p
      (.answer [(block (preemptWrite s p pid 0x4000000000000000#64) p pid).pstat]))) ∧
  (∀ (s : State) (p cap : Nat), (1000 ≤ cap → cap ≤ 2800 → ∃ u, exec (.mgmtSetPowerCap p cap) s = .next u ∧ (getPkg u p).cap = cap ∧ u.mem = s.mem ∧ u.cores = s.cores) ∧
    (cap < 1000 ∨ 2800 < cap → exec (.mgmtSetPowerCap p cap) s = .next s)) ∧
  (∀ (s : State) (p : Nat) (v : Dword), noneHeld s p 0 → exec (.pcapWrite p v) s = exec (.mgmtSetPowerCap p (v.toNat % 2 ^ 12)) s) ∧
  (∀ (s : State) (p watts : Nat), s.clock < (getPkg s p).lastStep + 1900000 → exec (.clockStep p watts) s = .next s) ∧
  (∀ (s : State) (p watts : Nat), (getPkg s p).lastStep + 1900000 ≤ s.clock → ∃ u, exec (.clockStep p watts) s = .next u ∧ (getPkg u p).lastStep = s.clock ∧ (getPkg u p).cap = (getPkg s p).cap ∧ u.mem = s.mem ∧ u.cores = s.cores ∧
    ((getPkg s p).cap < watts → (getPkg u p).clkstep = (getPkg s p).clkstep - 1) ∧
    (100 * watts < 95 * (getPkg s p).cap → (getPkg u p).clkstep = Nat.min 15 ((getPkg s p).clkstep + 1)) ∧
    (95 * (getPkg s p).cap ≤ 100 * watts → watts ≤ (getPkg s p).cap → (getPkg u p).clkstep = (getPkg s p).clkstep)) ∧
  (∀ (s : State) (p : Nat) (v : Dword), noneHeld s p 0 →
    ((∃ q, q < 65536 ∧ descValid (descBits s p q) = true) → exec (.qtabWrite p v) s = .next s) ∧
    ((∀ q, q < 65536 → descValid (descBits s p q) = false) → ∃ u, exec (.qtabWrite p v) s = .next u ∧
      (getPkg u p).qtab = v &&& 0xFFFFFFFFFFC0#64 ∧ u.mem = s.mem ∧ u.cores = s.cores))

/-! ## Boot, partitions, retention and attestation (spec/19) -/

namespace Sys2Proof.Machine

/-- The firmware with which a package starts after a module reset: that of the Delian die (0), or of a compute die (1 + die). -/
def newImage (s : State) (p i : Nat) : FwImage := firmwareOf (getPkg (resetModule s p) p) p i

/-- A die that leaves reset (R444, R445, R448). -/
def dieLeaves (bin : BootIn) (s : State) (p d : Nat) : Bool := decide (imageErr (newImage s p (1 + d)) = 0) && !beyondRepair bin d

/-- The link of a package's port. -/
def linkOf (s : State) (p port : Nat) : Link := (getPkg s p).links.toList.getD port Link.reset

/-- The requests of the SPDM responder (R446) that are answered whatever went before. -/
noncomputable def spdmRows : List ((Nat → Bool → Instr)) := [
  fun p d => .getVersion p d, fun p d => .getCapabilities p d, fun p d => .negotiateAlgorithms p d, fun p d => .getDigests p d,
  fun p d => .getCertificate p d, fun p d => .keyExchange p d, fun p d => .finish p d, fun p d => .challenge p d 0, fun p d => .getMeasurements p d 0]

end Sys2Proof.Machine

/-- R313, R443 to R445, R448, R449, R453: a module reset, from the management port or because a die is too hot, ends every thread and forgets every byte of
the package, and leaves the other packages as they were. Power-good boots it: without a verified Delian image no die leaves reset; else each die whose image
verifies, and that no cluster spoils, leaves reset, its cycle counter at 0 and its cores as at reset with the MAXROWS of their fuses, and READY is set. A
package that has booted boots again after a reset. New firmware is in use from the next reset on, where it verifies.
It rests on the model's choices of log entries 3, 11, 65 and 82. -/
def Obligations.BootAndReset : Prop :=
  (∀ (s : State) (p d : Nat), (exec (.thermalTrip p d) s = exec (.moduleReset p) s) ∧
    ((getPkg s p).fuses = none → exec (.moduleReset p) s = .next (resetModule s p)) ∧
    (∀ bin, (getPkg s p).fuses = some bin → 0 < p → p < 4096 → exec (.moduleReset p) s = exec (.powerGood p bin) s)) ∧
  (∀ (s : State) (p : Nat), Memory.wf s.mem = true →
    (∀ n, getCore (resetModule s p) { pkg := p, n := n } = Core.reset) ∧ (∀ k, getHub (resetModule s p) p k = Hub.reset) ∧
    (getPkg (resetModule s p) p).bootstat = 0 ∧ (getPkg (resetModule s p) p).grids = Vector.replicate 255 none ∧
    (∀ a, a / 2 ^ 48 = p → memGet (resetModule s p).mem a = unlisted a) ∧ (∀ a, a / 2 ^ 48 ≠ p → memGet (resetModule s p).mem a = memGet s.mem a) ∧
    (∀ c : CoreId, c.pkg ≠ p → getCore (resetModule s p) c = getCore s c) ∧ (∀ q, q ≠ p → getPkg (resetModule s p) q = getPkg s q)) ∧
  (∀ f : FwImage, (imageErr f = 1 ↔ ∀ k ∈ Config.keyStore, ecdsaVerifies k (sha384 f.payload) f.sig = false) ∧
    (imageErr f = 2 ↔ (∃ k ∈ Config.keyStore, ecdsaVerifies k (sha384 f.payload) f.sig = true) ∧ f.version < Config.antiRollback)) ∧
  (∀ (s : State) (p : Nat) (bin : BootIn), 0 < p → p < 4096 →
    (imageErr (newImage s p 0) ≠ 0 → ∃ u, exec (.powerGood p bin) s = .next u ∧ (getPkg u p).booted = false ∧
      (getPkg u p).bootstat.toNat = 2 ^ 8 + imageErr (newImage s p 0)) ∧
    (imageErr (newImage s p 0) = 0 → ∃ u, exec (.powerGood p bin) s = .next u ∧ (getPkg u p).booted = true ∧
      (getPkg u p).bootstat.toNat / 2 ^ 63 = 1 ∧ (getPkg u p).bootstat.toNat / 2 ^ 8 % 2 ^ 8 = 5 ∧ u.mem = (resetModule s p).mem ∧
      (∀ d, d < 4 → (dieOk u p d = dieLeaves bin s p d) ∧ (dieLeaves bin s p d = true → (getPkg u p).dieRelease.toList.getD d 0 = s.clock ∧
        ∀ n, n < 8192 → n / 2048 = d → getCore u { pkg := p, n := n } = { Core.reset with maxRows := maxRowsOf bin n })))) ∧
  (∀ (s : State) (p : Nat) (die : Option Nat) (img : FwImage), (∀ d, die = some d → d < 4) → ∃ u, exec (.firmwareUpdate p die img) s = .next u ∧
    (getPkg u p).firmware = (getPkg s p).firmware ∧ u.mem = s.mem ∧ u.cores = s.cores ∧
    let i := match die with | some d => d + 1 | none => 0
    (imageErr img = 0 → newImage u p i = img) ∧ (imageErr img ≠ 0 → newImage u p i = firmwareOf (getPkg s p) p i))

/-- R357, R401, R447: a partition created from free reaches holds those reaches and a new key, and not one byte that its stacks held before can be read;
nothing is created of a reach that is taken, sleeps in reset or has no working stack. A partition with a live grid is not destroyed; one that is destroyed
holds no reach, no byte and no cached translation. -/
def Sys2Proof.Rules.PartitionsAndKeys : Prop :=
  (∀ (s : State) (p pid notify : Nat) (mask fpmap : Half), pid < 16 → p < 4096 → Memory.wf s.mem = true →
    (created s p pid = true ∨ (∃ r, r < 16 ∧ mask.toNat / 2 ^ r % 2 = 1 ∧ reachFree s p r = false) →
      exec (.partitionCreate p pid mask fpmap notify) s = .next s) ∧
    (mask ≠ 0 → (getPkg s p).booted = true → created s p pid = false → (∀ r, r < 16 → mask.toNat / 2 ^ r % 2 = 1 → reachFree s p r = true) →
      ∃ u, exec (.partitionCreate p pid mask fpmap notify) s = .next u ∧ created u p pid = true ∧ reaches u p pid = mask.toNat ∧
        (block u p pid).key = (getPkg s p).epoch + 1 ∧ notifyOf u p pid = notify % 16 ∧ u.cores = s.cores ∧
        (∀ j, j < 16 → j ≠ pid → block u p j = block s p j) ∧
        (∀ r a, r < 16 → mask.toNat / 2 ^ r % 2 = 1 → devPhys p (2 ^ 36 * r) ≤ a → a < devPhys p (2 ^ 36 * (r + 1)) →
          (a < devPhys p (transBlock u p pid) ∨ devPhys p (transBlock u p pid) + 4096 ≤ a) → memGet u.mem a = none))) ∧
  (∀ (s : State) (p pid : Nat), pid < 16 → Memory.wf s.mem = true →
    (partLive s p pid = true → exec (.partitionDestroy p pid) s = .next s) ∧
    (created s p pid = true → partLive s p pid = false → ∃ u, exec (.partitionDestroy p pid) s = .next u ∧ created u p pid = false ∧
      (∀ x ∈ (getPkg u p).tlb, x.pid ≠ pid) ∧ u.cores = s.cores ∧ (∀ j, j < 16 → j ≠ pid → block u p j = block s p j) ∧
      (∀ r a, r < 16 → reaches s p pid / 2 ^ r % 2 = 1 → devPhys p (2 ^ 36 * r) ≤ a → a < devPhys p (2 ^ 36 * (r + 1)) → memGet u.mem a = none)))

/-- R436, R439, R446, R447: a job is formed of packages that have booted, of at most 64, 64, 2 and 2 in its four directions; measurement 7 of each is
extended with its sizes and the package's coordinates, each class of each link has the mode that level M set, and each link that leads to a package has a
key, the same at both of its ends. -/
def Sys2Proof.Rules.JobFormation : Prop :=
  (∀ (s : State) (a b c d : JobAxis), let n := a.size * b.size * c.size * d.size
    (64 < a.size ∨ 64 < b.size ∨ 2 < c.size ∨ 2 < d.size ∨ n = 0 ∨ 4095 < n) → exec (.jobFormation a b c d) s = .next s) ∧
  (∀ (s : State) (a b c d : JobAxis) (p : Nat), 0 < p → p ≤ a.size * b.size * c.size * d.size → (getPkg s p).booted = false →
    exec (.jobFormation a b c d) s = .next s) ∧
  (∀ (s : State) (a b c d : JobAxis), let n := a.size * b.size * c.size * d.size
    let j : Job4 := { na := a.size, nb := b.size, nc := c.size, nd := d.size }
    a.size ≤ 64 → b.size ≤ 64 → c.size ≤ 2 → d.size ≤ 2 → 0 < n → n ≤ 4095 → (∀ p, 0 < p → p ≤ n → (getPkg s p).booted = true) →
    ∃ u, exec (.jobFormation a b c d) s = .next u ∧ u.job = some j ∧ u.mem = s.mem ∧ u.cores = s.cores ∧
      ∀ p, 0 < p → p ≤ n → (getPkg u p).measures.toList.getD 6 0 =
          sha384 (digestBytes ((getPkg s p).measures.toList.getD 6 0) ++ (([a.size, b.size, c.size, d.size] ++ coords j p).map (BitVec.ofNat 8))) ∧
        (∀ i, i < 6 → (getPkg u p).measures.toList.getD i 0 = (getPkg s p).measures.toList.getD i 0) ∧
        ∀ port, port < 8 → let l := linkOf u p port
          (∀ k, k < 4 → (l.auth.toList.getD k false = true ↔ { pkg := p, port := port, cls := k } ∈ a.auth ++ b.auth ++ c.auth ++ d.auth)) ∧
          ∀ ch, ch < 8 → let x := l.chans.toList.getD ch default
            (x.key = 0 ↔ peerOf j p port = none) ∧ x.flits = 0 ∧
            ∀ q, q ≠ p → peerOf j p port = some q → peerOf j q (opposite port) = some p → 0 < q → q ≤ n →
              x.key = ((linkOf u q (opposite port)).chans.toList.getD ch default).key)

/-- R451, R452: a cluster falls asleep only when nothing keeps it awake, and entry and exit take 7,600 cycles; what meets it asleep or entering starts the
exit, and what the host sent it is performed once it is awake; no step of it changes a byte or a core, unless a re-encoding finds an uncorrectable error. -/
def Sys2Proof.Rules.Retention : Prop :=
  (∀ (s : State) (p k : Nat), k < 512 → noneHeld s p 0 →
    (quietCluster s p k = true → (getHub s p k).ret = .awake → ∃ u, exec (.retentionEnter p k) s = .next u ∧ u.mem = s.mem ∧ u.cores = s.cores ∧
      (getHub u p k).ret = .entering (s.clock + 7600) false) ∧
    (quietCluster s p k = false ∨ (getHub s p k).ret ≠ .awake → exec (.retentionEnter p k) s = .next s)) ∧
  (∀ (s : State) (p k : Nat), k < 512 → noneHeld s p 0 → ∃ u, exec (.retentionExit p k) s = .next u ∧ u.mem = s.mem ∧ u.cores = s.cores ∧
    ((getHub s p k).ret = .asleep → (getHub u p k).ret = .exiting (s.clock + 7600)) ∧
    (∀ t w, (getHub s p k).ret = .entering t w → (getHub u p k).ret = .entering t true) ∧
    ((getHub s p k).ret = .awake → getHub u p k = getHub s p k)) ∧
  (∀ (s : State) (p k : Nat) (r : HostReq), (getPkg s p).hostReqs = [r] → hostWaits (reencoded s p k) p r = [] →
    exec (.reencodeComplete p k) s = .next (hostPerform (modPkg (reencoded s p k) p (fun x => { x with hostReqs := [] })) p r)) ∧
  (∀ (s : State) (p k t : Nat) (w : Bool), (getPkg s p).hostReqs = [] → ∃ u, exec (.reencodeComplete p k) s = .next u ∧
    (s.poison.filter (inCluster p k) = [] → u.mem = s.mem ∧ u.cores = s.cores ∧
      (((getHub s p k).ret = .entering t w ∨ (getHub s p k).ret = .exiting t) → t ≤ s.clock →
        (getHub u p k).corrected = (getHub s p k).corrected + Config.softErrors s.tick)) ∧
    (∀ a, s.poison.filter (inCluster p k) = [a] → ((getHub s p k).ret = .entering t w ∨ (getHub s p k).ret = .exiting t) → t ≤ s.clock →
      u.mem = (poisonEntry s a).mem ∧ u.cores = (poisonEntry s a).cores) ∧
    ((getHub s p k).ret = .entering t w → s.clock < t → (getHub u p k).ret = .entering t w) ∧
    ((getHub s p k).ret = .entering t false → t ≤ s.clock → (getHub u p k).ret = .asleep) ∧
    ((getHub s p k).ret = .entering t true → t ≤ s.clock → (getHub u p k).ret = .exiting (s.clock + 7600)) ∧
    ((getHub s p k).ret = .exiting t → s.clock < t → (getHub u p k).ret = .exiting t) ∧
    ((getHub s p k).ret = .exiting t → t ≤ s.clock → (getHub u p k).ret = .awake))

/-- R446: the responder answers every request of its list, over either transport alike, and changes nothing but its session: GET_VERSION with SPDM 1.3,
CHALLENGE with the nonce signed by the device's key, GET_MEASUREMENTS of index 1 to 7 with that measurement, signed, GET_DIGESTS with the digest of the
certificate. Every hash is SHA-384. KEY_EXCHANGE is signed and opens a session; FINISH completes it, and is not taken without one. -/
def Sys2Proof.Rules.Attestation : Prop :=
  (∀ row ∈ spdmRows, ∀ (s : State) (p : Nat) (d : Bool), ∃ u a, exec (row p d) s = .next u ∧ exec (row p (!d)) s = .next u ∧ u.mem = s.mem ∧ u.cores = s.cores ∧
    (getPkg u p).measures = (getPkg s p).measures ∧ (getPkg u p).hostOut = (getPkg s p).hostOut ++ [a]) ∧
  (∀ (s : State) (p : Nat) (d : Bool), exec (.getVersion p d) s = .next (answerHost s p (.read [0x13]))) ∧
  (∀ (s : State) (p : Nat) (bytes : List Byte), signed s p bytes = bytes ++
    signatureBytes (ecdsaSign (Config.deviceKey p) (Config.nonce s.tick) (sha384 bytes))) ∧
  (∀ (s : State) (p : Nat) (d : Bool) (n : Dword), exec (.challenge p d n) s = .next (answerHost s p (.read (signed s p (leBytes 8 n.toNat))))) ∧
  (∀ (s : State) (p i : Nat) (d : Bool), (1 ≤ i → i ≤ 7 → exec (.getMeasurements p d i) s = .next (answerHost s p
      (.read (signed s p (digestBytes ((getPkg s p).measures.toList.getD (i - 1) 0)))))) ∧
    (i = 0 ∨ 7 < i → exec (.getMeasurements p d i) s = .next (answerHost s p .unsupported))) ∧
  (∀ (s : State) (p : Nat) (d : Bool), ∃ cert head : List Byte, exec (.getCertificate p d) s = .next (answerHost s p (.read (head ++ cert))) ∧
    ∃ h2, exec (.getDigests p d) s = .next (answerHost s p (.read (h2 ++ digestBytes (sha384 cert))))) ∧
  (∀ (s : State) (p : Nat) (d : Bool), (∃ u data, exec (.keyExchange p d) s = .next u ∧ (getPkg u p).session = 1 ∧
      (getPkg u p).hostOut = (getPkg s p).hostOut ++ [.read (signed s p data)]) ∧
    ((getPkg s p).session = 1 → ∃ u, exec (.finish p d) s = .next u ∧ (getPkg u p).session = 2) ∧
    ((getPkg s p).session ≠ 1 → exec (.finish p d) s = .next (answerHost s p .unsupported)))

/-! ## Encoding, the step, memory and reset (spec/05, spec/03, spec/19) -/

namespace Sys2Proof.Machine

/-- No marker, no predicate (R145, R147). -/
def bare : Pre := { sw := false, neg := false, pn := 0 }

/-- Words in fetch order as the worked encodings of the chapters give them, and the instruction that each chapter writes beside them: R145, the table after
R208, and the tables at the ends of spec/07 to spec/11, spec/14 and spec/15. -/
noncomputable def wordSamples : List (List Nat × Instr) := [
  ([0x1000], .or { pre := bare, w := .d, rd := 0, x := 0, y := .reg 0 }),
  ([0x7C0B, 0x74C8, 0x701F, 0x8509], .add { pre := { sw := true, neg := true, pn := 3 }, w := .d, rd := 40, x := 41, y := .imm 1000 }),
  ([0x740B, 0x552A], .fadd { pre := bare, fmt := .f32, rm := .dyn, rd := 9, x := 10, y := 11 }),
  ([0x7809, 0x740A, 0x0109], .divu { pre := bare, w := .d, rd := 8, x := 9, y := .reg 10 }),
  ([0x7811, 0x750B, 0x3D2A], .faddRounded { pre := bare, fmt := .f64, rm := .rtz, rd := 9, x := 10, y := 11 }),
  ([0x73FF, 0x3D4C], .br { sw := false, neg := true, pn := 2, off := -20 }),
  ([0x7001, 0x4032], .call { pre := bare, link := 1, off := 50 }),
  ([0x7802, 0x7001, 0x1410], .enter { pre := bare, n := 48 }),
  ([0x7802, 0x0920], .ppack { pre := bare, g := 9, lane := 0 }),
  ([0x7510, 0x7000, 0x2D09], .ld { pre := bare, os := OrdSc.plain, size := .w, data := 8, base := 9, off := .imm 16 }),
  ([0x7803, 0x7DB0, 0x750B, 0x252A], .aadd { pre := bare, os := { ord := .ar, scope := .dev }, w := .w, rd := 9, base := 10, y := .reg 11 }),
  ([0x7803, 0x7D30, 0x750C, 0x212A], .stp {
    pre := bare, os := { ord := .rel, scope := .dev }, wt := false, fill := false, data := .g .w 9, base := 10, flag := some 12 }),
  ([0x780B, 0x7C40, 0x1000], .fenceSc { pre := bare, os := { ord := .rlx, scope := .sys } }),
  ([0x7804, 0x740A, 0x0109], .spawn { pre := bare, rd := 8, b := 9, start := .reg 10 }),
  ([0x7804, 0x7404, 0x7000, 0x100C], .waitc { pre := bare, rd := 0, b := 12, n := .imm 4 }),
  ([0x784C, 0x740B, 0x152A], .disarmInc { pre := bare, rd := 9, b := 10, c := 11 }),
  ([0x7706, 0x6885], .vfma { pre := bare, fmt := .bf16, rm := .dyn, vd := 4, x := 5, y := .v 6 }),
  ([0x7855, 0x7409, 0x0022], .vaddRounded { pre := bare, fmt := .f32, rm := .rtz, vd := 1, x := 2, y := .g 9 }),
  ([0x7805, 0x7405, 0x4822], .vredAdd { pre := bare, fmt := .f32, rm := .dyn, gs := 5, vd := 1, x := 2 }),
  ([0x7A0D, 0x740A, 0x3062], .vmxpk { pre := bare, rm := .rne, nf := 4, q := 0, vd := 3, x := 2, g := 10 }),
  ([0x78A6, 0x740A, 0x0869], .mmaI8 { pre := bare, z := false, sat := true, sa := false, sb := true, t := 3, a := 9, b := some 10 }),
  ([0x780E, 0x7D30, 0x740C, 0x1429], .mdrainAdd {
    pre := bare, os := { ord := .rel, scope := .dev }, note := false, i32 := false, t := 1, b := 9, flag := some 12 }),
  ([0x780F, 0x7CB0, 0x740C, 0x092A], .ldso { pre := bare, os := { ord := .acq, scope := .dev }, sx := false, rd := 9, b := 10, c := 12 }),
  ([0x7807, 0x7C0A, 0x1C09], .ampPerm { pre := { sw := false, neg := true, pn := 2 }, os := OrdSc.plain, b := 9 }),
  ([0x7802, 0x740A, 0x3409], .mbxs { pre := bare, b := 9, c := 10 })]

end Sys2Proof.Machine

/-- The worked encodings of the spec decode to the instructions that stand beside them, whatever follows them in memory; the words of page 0,
major 0 (R156) and of the majors that R158 leaves unassigned on pages 1 to 7 decode to no instruction. -/
def Obligations.DecodeSamples : Prop :=
  (∀ row ∈ wordSamples, ∀ rest, decode (row.1 ++ rest) = { instr := row.2, nwords := row.1.length }) ∧
  (∀ a b rest, a < 32 → b < 32 → ∃ e, (decode ((32 * a + b) :: rest)).instr = .undefinedInstruction e ∧ e.cause = 1) ∧
  (∀ pg f m x rest, (pg ∈ [1, 2, 3, 4, 6, 7] ∧ 16 ≤ m) ∨ (pg = 5 ∧ 24 ≤ m) → m < 28 → f < 128 → x < 1024 →
    ∃ e, (decode ((0x7800 + 8 * f + pg) :: (1024 * m + x) :: rest)).instr = .undefinedInstruction e ∧ e.cause = 1)

/-- R139 to R158: every well-formed instruction, with every operand at every value that its encoding admits, is what its own words decode to, in at most
five words of 16 bits; the operations of `tlbsd`, which share one word, decode to the first of them.
It rests on the model's choices of log entry 70. -/
def Obligations.DecodeEncode : Prop :=
  ∀ (i : Instr) (rest : List Nat), i.wf = true → i.hasWords = true →
    decode (encode i ++ rest) = { instr := i.shared, nwords := (encode i).length } ∧ (encode i).length ≤ 5 ∧ ∀ w ∈ encode i, w < 65536

/-- R6, R140, R147, R396, R411: on a core's turn the slot first in rotation that can issue issues the instruction that the words at its thread's PC decode to, at
most five of them, and the step is that instruction's meaning in that state; one that could not issue keeps its core's place in rotation; a core with no such
slot does nothing; a thread that runs ahead (R411) leaves memory and all that is on its way as they were. On a turn of the machine's own steps the step is that
event's meaning. The turns are the model's (the agenda, then the free turns of Config: log entry 1).
It rests on the model's choices of log entries 1, 2 and 52. -/
def Obligations.StepRunsDecoded : Prop :=
  (∀ (s : State) (c : CoreId) (slot : Nat) (t : Thread), s.turn.act = .core c → coreExists s c = true →
    let z := drainSome s.started
    let s1 := refresh z c
    turnSlot s1 c = some slot → getT s1 c slot = some t → aheadOf s1 c slot = none →
    let ws := fetchWords (getCore s1 c).imem t.pc 5
    let d := decode ws
    let s2 := { modCore s1 c (fun k => { k with last := slot }) with cur := { core := c, slot := slot, words := (ws.take d.nwords).map (BitVec.ofNat 16) } }
    step s = (match exec (refine s2 d.instr) s2 with
      | .next u => .next (keepLast (getCore z c).last s2 u)
      | r => r)) ∧
  (∀ (old : Nat) (s u : State), (∀ t, getT u s.cur.core s.cur.slot = some t → t.run = .ready) → keepLast old s u = u) ∧
  (∀ (s : State) (c : CoreId) (slot : Nat) (f : FaultWait) (u : State), s.turn.act = .core c → coreExists s c = true →
    let z := drainSome s.started
    turnSlot (refresh z c) c = some slot → aheadOf (refresh z c) c slot = some f → step s = .next u →
    u.mem = z.mem ∧ u.wbuf = z.wbuf ∧ u.items = z.items ∧ u.arrivals = z.arrivals ∧ u.copies = z.copies) ∧
  (∀ (s : State) (c : CoreId), s.turn.act = .core c → coreExists s c = true →
    turnSlot (refresh (drainSome s.started) c) c = none → step s = .next (refresh (drainSome s.started) c)) ∧
  (∀ (s : State) (c : CoreId), s.turn.act = .core c → coreExists s c = false → step s = .fault .noSuchCore) ∧
  (∀ (s : State) (i : Instr), s.turn.act = .event i → step s = exec i (settleBefore i s.started)) ∧
  (∀ (s : State) (i : Instr), (∀ o, i ≠ .tlbsdInval o) → refine s i = i) ∧
  (∀ (s : State) (t : Thread) (o : BcOps), inHand s t → refine s (.tlbsdInval o) = ([.tlbsdInval o, .tlbsdTransit o, .tlbsdLand o, .tlbsdDiscard o,
    .tlbsdRanges o, .tlbsdResume o, .tlbsdRefuse o] : List Instr).getD ((readG s.tick t o.b).toNat / 2 ^ 60) (.tlbsdInval o)) ∧
  (∀ (s : State) (c : CoreId) (slot : Nat), let k := getCore s c
    let may := fun i => canIssue c k i || mayAhead s c i
    turnSlot s c = some slot → slot < 16 ∧ may slot = true ∧
    ∀ i, i < 16 → k.last < 16 → (slot + 15 - k.last) % 16 > i → may ((k.last + 1 + i) % 16) = false) ∧
  (∀ (nbits w : Nat) (i : Instr), decodeTableWord nbits w = some i → ∃ z old, step (State.reset.withFetchWord nbits w) = (match exec (refine z i) z with
      | .next u => .next (keepLast old z u)
      | r => r) ∧ z.cur.core = { pkg := 1, n := 0 } ∧ z.cur.slot = 0)

/-- R3, R48: a byte written is read back, and no other byte has changed; a value written as n bytes, least significant byte at the lowest address, is read
back, and the bytes outside stand as they were.
It rests on the model's choices of log entry 5 (SRAM reads zero at first). -/
def Obligations.MemoryReadsAndWrites : Prop :=
  (∀ (s : State) (g : Option Nat) (a b : Nat) (v : Byte), Memory.wf s.mem = true →
    (homeOf s g b = homeOf s g a → readByte (putByte s g a v) g b = v) ∧ (homeOf s g b ≠ homeOf s g a → readByte (putByte s g a v) g b = readByte s g b)) ∧
  (∀ (s : State) (a n x : Nat), Memory.wf s.mem = true → readNat (writeNat s none a n x) none a n = x % 256 ^ n ∧
    (∀ i, i < n → (readByte (writeNat s none a n x) none (a + i)).toNat = x / 256 ^ i % 256) ∧
    (∀ b, b < a ∨ a + n ≤ b → readByte (writeNat s none a n x) none b = readByte s none b)) ∧
  (∀ (s : State) (lo hi a : Nat), Memory.wf s.mem = true → memGet (memForget s.mem lo hi) a = (if lo ≤ a ∧ a < hi then unlisted a else memGet s.mem a)) ∧
  (∀ (s : State) (a : Nat), s.mem = [] → isSram a = true → readByte s none a = 0)

/-- The canonical form of memory (addresses rising, nothing listed that an unlisted address reads as) is kept by every step of the machine, of a core or of
its own, from every state that has it.
It rests on the model's choices of log entry 6. -/
def Obligations.MemoryStaysCanonical : Prop := ∀ (s u : State), Memory.wf s.mem = true → step s = .next u → Memory.wf u.mem = true

/-- R313, R357, R426, R430, R442, R444, R450 to R452: what the spec says of reset: nothing runs and nothing is in flight, no partition exists, no job is
formed, BOOTSTAT is 0, CAP 2,800 and CLKSTEP 15, HSTAT and FORDMAP 0, every cluster awake; scratchpads, pools and instruction memory read as zero and every
line is full. That instruction memory, of which R444 says only that a die's SRAM is cleared, is among it is the model's reading (log entry 12).
It rests on the model's choices of log entries 12 (instruction memory), 5 (SRAM) and 3 (the timer). -/
def Obligations.ResetState : Prop :=
  Memory.wf State.reset.mem = true ∧ State.reset.empty = [] ∧ State.reset.poison = [] ∧ State.reset.job = none ∧
  (∀ (p : Nat), (getPkg State.reset p).bootstat = 0 ∧ (getPkg State.reset p).cap = 2800 ∧ (getPkg State.reset p).clkstep = 15 ∧
    (getPkg State.reset p).errLog = [] ∧ (∀ pid, created State.reset p pid = false ∧ (block State.reset p pid).hstat = 0) ∧
    (∀ pid n, pid < 16 → n < 8 → (block State.reset p pid).fordmap.toList.getD n 1 = 0) ∧
    (∀ k, (getHub State.reset p k).ret = .awake) ∧ (∀ g, (getPkg State.reset p).grids.toList.getD g none = none)) ∧
  (∀ (c : CoreId) (slot : Nat), getT State.reset c slot = none ∧ (getCore State.reset c).tenancy = none ∧ (getCore State.reset c).mailbox = [] ∧
    (getCore State.reset c).timer = 0) ∧
  (∀ (c : CoreId) (a : Nat), imemByte (getCore State.reset c).imem a = 0) ∧
  (∀ a, isSram a = true → readByte State.reset none a = 0)

/-- R82 to R90, R108 to R112: what the memory model says of the outcomes in the tables of message passing, of write-to-read causality, of the tests of two
threads, of independent reads of independent writes, and of completion through the inbox: each over every execution of its row's accesses. R72, R73,
R350: neither a load after a `wquiet` misses an item's write whose weight it has seen returned, nor a thread of a grid the borrow made for it.
It rests on the model's choices of log entries 15 and 72. -/
def Obligations.LitmusVerdicts : Prop :=
  (mpDevice = .forbidden ∧ mpNarrowFence = .allowed ∧ mpNarrowStore = .undefined ∧ mpRelaxed = .allowed ∧ mpPosted = .forbidden ∧
    mpSequence = .forbidden ∧ mpTrailing = .forbidden) ∧
  (wrcRelaxed = .forbidden ∧ wrcCluster = .allowed ∧ wrcDevice = .forbidden) ∧
  (twoTwo .rlx = .allowed ∧ twoTwo .rel = .forbidden ∧ sTest .rlx = .allowed ∧ sTest .rel = .forbidden ∧
    lbTest = .forbidden ∧ sbTest = .allowed ∧ sbFenced = .forbidden) ∧
  (iriw .sys false = .allowed ∧ iriw .sys true = .forbidden ∧ iriw .dev false = .forbidden) ∧
  (inboxTest .rlx .rlx 0 = .undefined ∧ inboxTest .rel .acq 0 = .forbidden ∧ inboxTest .rel .acq 1 = .allowed) ∧
  quietTest = .forbidden ∧ borrowTest = .forbidden

/-! ## Statements of several rules

Each is the conjunction of the parts above that it names. -/

/-- R177: the divisions complete; the result is outstanding with DZ where the divisor is zero. R178: the high half of the exact product. -/
def Obligations.DivisionAndHighProducts : Prop := Sys2Proof.Rules.IntegerDivision ∧ Sys2Proof.Rules.HighProduct

/-- R180: the ten unary instructions. R176: a compare writes every lane of its predicate. -/
def Obligations.IntegerUnaryAndCompare : Prop := Sys2Proof.Rules.IntegerUnary ∧ Sys2Proof.Rules.IntegerCompare

/-- R210, R356: a privileged row at level U, and a row that a fault processor lacks, are illegal-instruction traps with their CAUSE (R455). R154, R259,
R320, R327, R338, R358, R455: fields that name no special register, on a core of the clusters or on a fault processor, or no block of registers, trap
whatever the predicate.
It rests on the model's choices of log entries 17 and 18. -/
def Obligations.TrapsBeforeTheOperation : Prop := Sys2Proof.Rules.LevelOfAnInstruction ∧ Sys2Proof.Rules.FieldsThatTrap

/-- R62, R63, R320: a port towards no neighbour of the grid is an access fault; a port as the destination of a variable-latency result, or in the block that
B of a `copy` names, is illegal. R62: a pop from a queue without its words, and a push into a queue without room, hold the thread; nothing is popped or
pushed. R62, R63: a port read takes the words at the head of its queue, low word first, and a port write sends the result's words to the neighbour, where
the integer instructions of page 0 and 1 use a port.
It rests on the model's choices of log entries 17 and 25. -/
def Obligations.NetPorts : Prop := Sys2Proof.Rules.PortsThatTrap ∧ Sys2Proof.Rules.PortsThatWait ∧ Sys2Proof.Rules.PortOperands

/-- R153, R149, R125: a written register reads back whatever was outstanding for it, g0 stays zero and p0 all ones, no other register changes, and flags
only accumulate. R148: a register with a result outstanding reads as its value before that result or as the result, each sector of a vector register by
itself. R125, R140, R147, R149: the frame of an instruction that ends normally, uses no port and has its effect in its thread alone: of the whole machine
only its thread's slot changes, not one byte of memory among it; and of its thread a register written leaves every other register, the predicates, tiles,
formats, sr.fpc, allotment, weight, domain, level and accesses as they were.
It rests on the model's choices of log entry 8. -/
def Obligations.RegistersAndResults : Prop := Sys2Proof.Rules.RegisterFile ∧ Sys2Proof.Rules.ReadBeforeLanding ∧ Sys2Proof.Rules.WhatRetiringLeaves

/-- R127: any NaN result is the canonical NaN of the format, a signalling operand sets NV, and the invalid operations on infinities give it with NV. R129: a
value that the format represents rounds to its own code in every mode and sets no flag. R130: RoundInt of m / 2^k, with its sign, in each of the four modes.
-/
def Obligations.FloatResults : Prop := Sys2Proof.Rules.NaNResults ∧ Sys2Proof.Rules.ExactValuesRoundToThemselves ∧ Sys2Proof.Rules.RoundInt

/-- R274: the vector compares complete; each active lane of the predicate holds the compare of its element. R275 to R277: integer arithmetic, logic, shifts,
saturating forms, width changes and counts complete element by element. -/
def Obligations.VectorCompareAndInteger : Prop := Sys2Proof.Rules.VectorCompare ∧ Sys2Proof.Rules.VectorInteger

/-- R197 to R201: branches, calls and jumps complete: the next instruction, or the target where the test holds; a target outside instruction memory or odd
is an illegal-instruction trap. R203, R207: `jov` and `tret` complete where the segment is resident and holds the target; `tret` leaves the handler. A
segment that is neither resident nor pending is an access fault with CAUSE 10, unless it is segment 0; a pending one is waited for, and so is segment 0.
It rests on the model's choices of log entry 17. -/
def Obligations.BranchesAndSegments : Prop := Sys2Proof.Rules.ControlTransfers ∧ Sys2Proof.Rules.SegmentTransfers

/-- R206, R209, R367: `trap` and `brk` raise their trap with their code as CAUSE; `ecall` raises class 7 with the service number as ADDR, once the thread's
stores are performed. R347, R364: a trap that its grid handles enters the handler: PC and SEG, the record below g2, everything else as it was. A thread with
results outstanding waits first (R150), as does one that a pre-emption has halted, and its earlier stores are performed before its record is written (R84).
That a machine trap which waits already comes first is the model's choice (log entry 22). R364: a trap whose thread's results are final goes to the user
handler when its TRAPEN bit is set, the thread is not in its handler, and R348 allows it (class below 7, g2 a multiple of 16 with 64 bytes below it in the
thread's own stack, where its record may be written); any other trap of a core of the clusters goes to privileged software.
It rests on the model's choices of log entry 21. -/
def Obligations.TrapsOfInstructions : Prop := Sys2Proof.Rules.TrapInstructions ∧ Sys2Proof.Rules.UserTrapEntry ∧ Sys2Proof.Rules.TrapDestination

/-- R213, R215: loads complete at issue with their access on its way and their result outstanding; an address that issue refuses is an access fault. R213,
R215, R246, R247: stores, and the instructions that fill or empty a line, complete at issue with their access on its way. -/
def Obligations.ScalarAccesses : Prop := Sys2Proof.Rules.ScalarLoads ∧ Sys2Proof.Rules.ScalarStores

/-- R222: a fence waits for the thread's results and accesses, then completes with every earlier store of the thread performed. R212, R223 to R226: posted
stores and line fetches complete at issue with their item on its way; where the core has 64 items or a held record they wait, and a filling store whose
bytes are no one line of a scratchpad traps. A share of the thread's weight goes with a store that asks for it: half of it, none from a thread of domain 0;
a weight of 1 first borrows from the root, and a weight of 0, or a root that gives nothing, is the weight trap (R70, R71, R225). A misaligned target or
flag, then one of no window, is a precise access fault; its CAUSE and address rest on the model's choices of log entries 16 and 20. R230 to R232: posted
reductions and tile adds complete at issue with their item on its way, or trap as a posted store does (R212).
It rests on the model's choices of log entries 16, 20 and 34. -/
def Obligations.FencesAndPostedItems : Prop := Sys2Proof.Rules.Fences ∧ Sys2Proof.Rules.PostedStores ∧ Sys2Proof.Rules.PostedReductions

/-- R34 to R38, R50, R70, R237, R238: `spawn` at an immediate or a register start: refused, into a FREE slot, or onto a run queue; the thread created has
its launch values, a share of the spawner's weight, and is READY. R51, R57, R72, R240, R241: `quit` and `susp` end their thread once its results and tile
commands are final; `quit` returns its weight, `susp` leaves a READY record. `jmp` through g1 = 0 with link g0 is a quit (R201). R58 to R60, R244: a future
read of a full line completes with its value; of an empty one it parks, or, deferred, without a table entry, or once the heap that was full has a slot, it
becomes a record on the line's list.
It rests on the model's choices of log entries 28 and 29. -/
def Obligations.ThreadsAndFutures : Prop := Sys2Proof.Rules.Spawn ∧ Sys2Proof.Rules.ThreadEnds ∧ Sys2Proof.Rules.FutureReads

/-- R72, R94, R248, R257: `waitc` completes with the word on which its condition holds, and parks otherwise; `wquiet` on the thread's own domain first
returns its whole weight to the root, leaving none, and completes when the root is full, parks otherwise. R250, R253, R432: an arm that its flag has reached
fires at once with status 1; it takes an entry with status 0 where its core and the flag's home have room, else status 2; a flag in host memory takes none.
A disarm removes the oldest equal arm with status 0, or gives 1.
It rests on the model's choices of log entries 29, 30, 32 and 80. -/
def Obligations.FlagsAndArms : Prop := Sys2Proof.Rules.FlagWaits ∧ Sys2Proof.Rules.Arms

/-- R64, R65, R254, R255: `bar.arrive` counts an arrival towards PHASE, or towards PHASE + 1 once its core's arrivals are in, and gives the phase;
`bar.wait` ends where PHASE has passed; `bar.test` gives the distance. A unit that is disabled or another crew's traps. R242, R256, R259, R260: `grow` adds
groups and answers with the count before, or with the reason of its refusal; `wsplit` hands half of the weight to a thread of the domain; `ibx` takes the
oldest record and parks on an empty inbox, `ibx.t` then gives zeros.
It rests on the model's choices of log entries 27, 74 and 17 (the CAUSE 3 of its illegal-instruction traps). -/
def Obligations.ReelsGrowthAndInbox : Prop := Sys2Proof.Rules.ReelBarriers ∧ Sys2Proof.Rules.GrowSplitInbox

/-- R28, R37, R126, R154: `srr` gives each user special register its value; sr.fpc only once no result is outstanding. R64, R65: an `srw` by the crew that
owns a reel unit, to a rectangle of its group that holds the core, writes EN and the rectangle's fields; PHASE is 0 where EN rises, and kept otherwise; a
change of the rectangle while EN is 1, a fall of EN while a thread of the core is parked on the unit, another crew's write, and a core beyond the group
trap.
It rests on the model's choices of log entries 17, 27 and 33 (sr.pool with PKG 0). -/
def Obligations.SpecialRegisters : Prop := Sys2Proof.Rules.UserSpecialRegisters ∧ Sys2Proof.Rules.ReelRegisters

/-- R358, R359: the registers of a fault processor, and those of the partition blocks that FPMAP opens to it: what `srr` reads, and what `srw` writes; a
write to one that a live grid pins traps. R361: `mbxs` appends to the mailbox it names and waits while that is full; `mbxr` takes the oldest dword and parks
on an empty mailbox; `wfi` holds its thread until the mailbox is not empty or the timer has been reached.
It rests on the model's choices of log entry 17 (the CAUSE 3 of its illegal-instruction traps). -/
def Obligations.PrivilegedState : Prop := Sys2Proof.Rules.PrivilegedRegisters ∧ Sys2Proof.Rules.Mailboxes

/-- R306 to R309, R313, R314: waits for tile commands, tile reads, remote commands and grants, and the capability and narrow-format registers. R291 to R293,
R297, R300, R302, R303, R310 to R312: the unit starts its commands in order, and writes their tiles in order; `mzero`, `mload` and the signed 8-bit product
give their values element by element; the ring commands move the latches; a drain makes its item; a remote command enters the queue of the core whose grant
admits it. R300, R301: every product gives each element its Combine, with B from a panel or from the current latch, and the canonical NaN under a latch that
describes no panel of A's width.
It rests on the model's choices of log entries 39, 40 and 17 (the CAUSE 3 of its illegal-instruction traps). -/
def Obligations.MatrixRegistersAndSteps : Prop := Sys2Proof.Rules.MatrixRegisters ∧ Sys2Proof.Rules.MatrixUnitSteps

/-- R318 to R320: `shape` seals a record that R319 allows, whatever lies above its fields, and traps on any other; a copy whose checks pass completes at
issue with the whole operation on its way, with WT a share of the thread's weight with it (R70), and waits where the core has 64 items. R325 to R328: a
sharded access translates its coordinates by the rule of R326 and starts as an access to the element; a range fault traps with its cause; `shinv` holds its
thread, its result outstanding, with its request on the way to the root. R329: `cfetch` of a resident segment is done at once; of another it starts the
load, drops what it overlaps, and traps where it overlaps a segment in use; with NOTE its completion leaves a record.
It rests on the model's choices of log entries 19, 43, 78 (the hub's copy of an entry is kept) and 17 (the CAUSE 3 of its illegal-instruction traps). -/
def Obligations.CopiesShardsAndOverlays : Prop := Sys2Proof.Rules.RecordsAndCopies ∧ Sys2Proof.Rules.ShardedAccesses ∧ Sys2Proof.Rules.OverlayFetches

/-- R330, R331, R336: an amplitude operation and a collective run start, with their blocks read at issue, once every check passes; the operation keeps its
block with the addresses resolved. R338 to R340: `blkq` gives the oldest block or zeros, `blkq.done` marks the block that it names, both on ford cores
alone; `baddq` adds and requantises the blocks of the active lanes.
It rests on the model's choices of log entry 17. -/
def Obligations.EnginesAndFordCores : Prop := Sys2Proof.Rules.EngineStarts ∧ Sys2Proof.Rules.FordCores

/-- R82, R84, R98, R99, R149, R152, R213, R217: an access that may be accepted reads the bytes of its home, or writes there, or waits there as a store, or
performs its read-modify-write, and its result is then known; a failed one is a precise access fault at its instruction, with the registers of its issue.
R125, R147 to R149: a result that is known lands in its register with its flags; one that a later writer has made stale leaves the register alone.
It rests on the model's choices of log entries 7 and 20 (ADDR is the resolved address). -/
def Obligations.AcceptanceAndLanding : Prop := Sys2Proof.Rules.AccessAcceptance ∧ Sys2Proof.Rules.ResultLanding

/-- R156, R158, R455: words that encode no instruction trap with their CAUSE, a privileged row at level U with CAUSE 4 unless its page or major is
unassigned. R408, R411, R416: run-ahead being over, or the thread having no shadow slot, the batch of its pages is sent under its ticket, LAST on the final
one for each home; till then nothing is. A refused request is sent again, unless an earlier one of its core to the same page waits.
It rests on the model's choices of log entries 52 and 53. -/
def Obligations.FaultsAndUndefinedWords : Prop := Sys2Proof.Rules.UndefinedWords ∧ Sys2Proof.Rules.FaultRequests

/-- R318, R321, R322: the oldest copy of an engine whose record R319 does not allow ends with a failure record of CAUSE 8; a copy of one element moves its
bytes and ends with its counted arrival. R329, R391: an overlay load writes the segment's bytes into instruction memory and makes it resident; R332: an
amplitude group is the product of the unitary and its members; R333: a permutation writes every amplitude at its new place, then the new record.
It rests on the model's choices of log entries 41 and 42. -/
def Obligations.EngineRuns : Prop := Sys2Proof.Rules.CopyRuns ∧ Sys2Proof.Rules.LoadsAndAmplitudes

/-- R336 to R338: a run starts while fewer than four run, with every step's count of predecessors; a step that is ready completes its work and counts its
successors down; a QUEUE step pushes its next block. R106, R328: the shoot-down of a shard entry: at the root, at each package's node, at each hub, and its
completion with the status.
It rests on the model's choices of log entries 44 and 45. -/
def Obligations.BraidsAndShootdowns : Prop := Sys2Proof.Rules.BraidSteps ∧ Sys2Proof.Rules.ShardShootdowns

/-- R380 to R384, R389: the lead weir takes a published packet of a VALID queue: STATE becomes 0, HIDX goes up by 1, and HEADF has an arrival; in HBM it is
the line that its home forwarded. A malformed packet is refused with REASON 1, one whose last dword has an uncorrectable error with REASON 9; a notified
descriptor is read. R386, R387: a COPY, BRAID or AMP packet that passes its checks starts its operation; WAITFLAG completes when its flag has been reached
and stays otherwise; SIGNAL makes one arrival on G, with INC where an earlier packet of the queue failed, and completes after it.
It rests on the model's choices of log entries 37, 55 and 56. -/
def Obligations.PacketsOfAQueue : Prop := Sys2Proof.Rules.PacketsTaken ∧ Sys2Proof.Rules.PacketsStarted

/-- R385, R388 to R390: a KERNEL packet whose grid is neither co-resident nor of a domain is admitted to the free entry of lowest number, RUNNING, with the
packet's and the header's fields; one that a check refuses has its REASON; the weir of a die places the group whose turn it is; a complete grid gives back
its entry, its cores and its DONE arrival. R47, R55, R56, R391 to R394: ageing raises a grid whose next group has been pending for 2^20 cycles; an eviction
saves the groups it needs, all or none; a restore puts back the group whose turn it is; a pickup starts the head record's thread on a core in rotation, and
a malformed record is dropped; the weir loads the segment that the head record needs.
It rests on the model's choices of log entries 57, 58, 59, 60, 61 and 81. -/
def Obligations.GridsAndTheWeir : Prop := Sys2Proof.Rules.GridLife ∧ Sys2Proof.Rules.WeirTurns

/-- R150, R347, R364, R365: a trap that waited for its thread's results is taken when they have landed: by the user handler, or delivered; a record that
waits goes to the trap queue, TQTAIL goes up by 1, and the message is sent. R369, R370: a halt whose area is large enough halts the threads of its crews
and, whole grids, makes them HALTED; one whose area is too small ends with ERR 1; it is complete when nothing is in flight, with STATE 2 and the message of
top byte 1; the save ends with STATE 3 and top byte 2. R369, R375, R376: a resume of an area with no valid image gives ERR 4; it begins with the images of
the area, and ends with STATE 0 and the message of top byte 3; IMGCTL restores a trapped thread's image where its core can take it, discards one, and
refuses an image that is not one.
It rests on the model's choices of log entries 22, 47, 48, 49 and 50. -/
def Obligations.PreemptionAndImages : Prop := Sys2Proof.Rules.TrapsThatWaited ∧ Sys2Proof.Rules.Halts ∧ Sys2Proof.Rules.ResumesAndImages

/-- R429, R431, R452: a window access of a function is performed at the addresses that its window names, byte for byte; one outside the function's
partition, its window or the dies out of reset is discarded with an error entry, or answered with Unsupported Request; one that touches a sleeping cluster
wakes it and is held, and those of its function behind it. An access to a register is 8 bytes wide and 8-aligned, and one that is write-only reads zero. R7,
R359, R430, R433, R434, R442: a register write of a virtual function has the effect of R359, or is discarded and sets HSTAT.REFUSED; one of a read-only
register is ignored; REFUSED is cleared by a 1; HMBX puts a dword into the mailbox of NOTIFY, or behind it; the fault doorbell forwards a record of its own
partition to the home that the range entry of its page names, with SOURCE 2 and RCORE 0; FORDMAP takes its low 16 bits, for a cluster of the partition on
which nothing of it is live. R426, R443, R450, R453: the management port answers with sensors, with the error log, whose entries have then been read, with a
partition's ERING, and with PSTAT after PREEMPT with OP 1; the power cap is set to a value of 1,000 to 2,800, by the port or by PCAP, and no other; once per
millisecond the clock goes down a step above CAP and up one below 95 per cent of it; QTAB is written while no descriptor of the table is valid.
It rests on the model's choices of log entries 63, 64, 67 and 68 (the clock). -/
def Obligations.HostAndManagement : Prop := Sys2Proof.Rules.HostWindows ∧ Sys2Proof.Rules.HostRegisters ∧ Sys2Proof.Rules.ManagementAndPower

/-- R357, R401, R447: a partition created from free reaches holds those reaches and a new key, and not one byte that its stacks held before can be read;
nothing is created of a reach that is taken, sleeps in reset or has no working stack. A partition with a live grid is not destroyed; one that is destroyed
holds no reach, no byte and no cached translation. R436, R439, R446, R447: a job is formed of packages that have booted, of at most 64, 64, 2 and 2 in its
four directions; measurement 7 of each is extended with its sizes and the package's coordinates, each class of each link has the mode that level M set, and
each link that leads to a package has a key, the same at both of its ends.
It rests on the model's choices of log entries 5, 11, 66 and 82. -/
def Obligations.PartitionsAndTheJob : Prop := Sys2Proof.Rules.PartitionsAndKeys ∧ Sys2Proof.Rules.JobFormation

/-- R451, R452: a cluster falls asleep only when nothing keeps it awake, and entry and exit take 7,600 cycles; what meets it asleep or entering starts the
exit, and what the host sent it is performed once it is awake; no step of it changes a byte or a core, unless a re-encoding finds an uncorrectable error.
R446: the responder answers every request of its list, over either transport alike, and changes nothing but its session: GET_VERSION with SPDM 1.3,
CHALLENGE with the nonce signed by the device's key, GET_MEASUREMENTS of index 1 to 7 with that measurement, signed, GET_DIGESTS with the digest of the
certificate. Every hash is SHA-384. KEY_EXCHANGE is signed and opens a session; FINISH completes it, and is not taken without one.
It rests on the model's choices of log entries 11, 67, 69 and 82. -/
def Obligations.RetentionAndAttestation : Prop := Sys2Proof.Rules.Retention ∧ Sys2Proof.Rules.Attestation
end

