-- ==== Sys2Proof/Laws/State.lean ====
section
/-!
SUPPORT. One lemma per field per update of the state, of a thread and of a register file.
-/
namespace Sys2Proof.Machine

/-! ## setCore -/

@[simp] theorem setCore_mem (s : State) (c : CoreId) (k : Core) : (setCore s c k).mem = s.mem := rfl
@[simp] theorem setCore_empty (s : State) (c : CoreId) (k : Core) : (setCore s c k).empty = s.empty := rfl
@[simp] theorem setCore_poison (s : State) (c : CoreId) (k : Core) : (setCore s c k).poison = s.poison := rfl
@[simp] theorem setCore_hubs (s : State) (c : CoreId) (k : Core) : (setCore s c k).hubs = s.hubs := rfl
@[simp] theorem setCore_pkgs (s : State) (c : CoreId) (k : Core) : (setCore s c k).pkgs = s.pkgs := rfl
@[simp] theorem setCore_redirects (s : State) (c : CoreId) (k : Core) : (setCore s c k).redirects = s.redirects := rfl
@[simp] theorem setCore_wbuf (s : State) (c : CoreId) (k : Core) : (setCore s c k).wbuf = s.wbuf := rfl
@[simp] theorem setCore_items (s : State) (c : CoreId) (k : Core) : (setCore s c k).items = s.items := rfl
@[simp] theorem setCore_itemSeq (s : State) (c : CoreId) (k : Core) : (setCore s c k).itemSeq = s.itemSeq := rfl
@[simp] theorem setCore_arrivals (s : State) (c : CoreId) (k : Core) : (setCore s c k).arrivals = s.arrivals := rfl
@[simp] theorem setCore_arms (s : State) (c : CoreId) (k : Core) : (setCore s c k).arms = s.arms := rfl
@[simp] theorem setCore_copies (s : State) (c : CoreId) (k : Core) : (setCore s c k).copies = s.copies := rfl
@[simp] theorem setCore_walks (s : State) (c : CoreId) (k : Core) : (setCore s c k).walks = s.walks := rfl
@[simp] theorem setCore_nwords (s : State) (c : CoreId) (k : Core) : (setCore s c k).nwords = s.nwords := rfl
@[simp] theorem setCore_reelArr (s : State) (c : CoreId) (k : Core) : (setCore s c k).reelArr = s.reelArr := rfl
@[simp] theorem setCore_reelRel (s : State) (c : CoreId) (k : Core) : (setCore s c k).reelRel = s.reelRel := rfl
@[simp] theorem setCore_remotes (s : State) (c : CoreId) (k : Core) : (setCore s c k).remotes = s.remotes := rfl
@[simp] theorem setCore_shoots (s : State) (c : CoreId) (k : Core) : (setCore s c k).shoots = s.shoots := rfl
@[simp] theorem setCore_lates (s : State) (c : CoreId) (k : Core) : (setCore s c k).lates = s.lates := rfl
@[simp] theorem setCore_lateAccs (s : State) (c : CoreId) (k : Core) : (setCore s c k).lateAccs = s.lateAccs := rfl
@[simp] theorem setCore_lines (s : State) (c : CoreId) (k : Core) : (setCore s c k).lines = s.lines := rfl
@[simp] theorem setCore_watches (s : State) (c : CoreId) (k : Core) : (setCore s c k).watches = s.watches := rfl
@[simp] theorem setCore_owed (s : State) (c : CoreId) (k : Core) : (setCore s c k).owed = s.owed := rfl
@[simp] theorem setCore_job (s : State) (c : CoreId) (k : Core) : (setCore s c k).job = s.job := rfl
@[simp] theorem setCore_cur (s : State) (c : CoreId) (k : Core) : (setCore s c k).cur = s.cur := rfl
@[simp] theorem setCore_agenda (s : State) (c : CoreId) (k : Core) : (setCore s c k).agenda = s.agenda := rfl
@[simp] theorem setCore_tick (s : State) (c : CoreId) (k : Core) : (setCore s c k).tick = s.tick := rfl
@[simp] theorem setCore_clock (s : State) (c : CoreId) (k : Core) : (setCore s c k).clock = s.clock := rfl

/-! ## setHub -/

@[simp] theorem setHub_mem (s : State) (p k : Nat) (h : Hub) : (setHub s p k h).mem = s.mem := rfl
@[simp] theorem setHub_empty (s : State) (p k : Nat) (h : Hub) : (setHub s p k h).empty = s.empty := rfl
@[simp] theorem setHub_poison (s : State) (p k : Nat) (h : Hub) : (setHub s p k h).poison = s.poison := rfl
@[simp] theorem setHub_cores (s : State) (p k : Nat) (h : Hub) : (setHub s p k h).cores = s.cores := rfl
@[simp] theorem setHub_pkgs (s : State) (p k : Nat) (h : Hub) : (setHub s p k h).pkgs = s.pkgs := rfl
@[simp] theorem setHub_redirects (s : State) (p k : Nat) (h : Hub) : (setHub s p k h).redirects = s.redirects := rfl
@[simp] theorem setHub_wbuf (s : State) (p k : Nat) (h : Hub) : (setHub s p k h).wbuf = s.wbuf := rfl
@[simp] theorem setHub_items (s : State) (p k : Nat) (h : Hub) : (setHub s p k h).items = s.items := rfl
@[simp] theorem setHub_itemSeq (s : State) (p k : Nat) (h : Hub) : (setHub s p k h).itemSeq = s.itemSeq := rfl
@[simp] theorem setHub_arrivals (s : State) (p k : Nat) (h : Hub) : (setHub s p k h).arrivals = s.arrivals := rfl
@[simp] theorem setHub_arms (s : State) (p k : Nat) (h : Hub) : (setHub s p k h).arms = s.arms := rfl
@[simp] theorem setHub_copies (s : State) (p k : Nat) (h : Hub) : (setHub s p k h).copies = s.copies := rfl
@[simp] theorem setHub_walks (s : State) (p k : Nat) (h : Hub) : (setHub s p k h).walks = s.walks := rfl
@[simp] theorem setHub_nwords (s : State) (p k : Nat) (h : Hub) : (setHub s p k h).nwords = s.nwords := rfl
@[simp] theorem setHub_reelArr (s : State) (p k : Nat) (h : Hub) : (setHub s p k h).reelArr = s.reelArr := rfl
@[simp] theorem setHub_reelRel (s : State) (p k : Nat) (h : Hub) : (setHub s p k h).reelRel = s.reelRel := rfl
@[simp] theorem setHub_remotes (s : State) (p k : Nat) (h : Hub) : (setHub s p k h).remotes = s.remotes := rfl
@[simp] theorem setHub_shoots (s : State) (p k : Nat) (h : Hub) : (setHub s p k h).shoots = s.shoots := rfl
@[simp] theorem setHub_lates (s : State) (p k : Nat) (h : Hub) : (setHub s p k h).lates = s.lates := rfl
@[simp] theorem setHub_lateAccs (s : State) (p k : Nat) (h : Hub) : (setHub s p k h).lateAccs = s.lateAccs := rfl
@[simp] theorem setHub_lines (s : State) (p k : Nat) (h : Hub) : (setHub s p k h).lines = s.lines := rfl
@[simp] theorem setHub_watches (s : State) (p k : Nat) (h : Hub) : (setHub s p k h).watches = s.watches := rfl
@[simp] theorem setHub_owed (s : State) (p k : Nat) (h : Hub) : (setHub s p k h).owed = s.owed := rfl
@[simp] theorem setHub_job (s : State) (p k : Nat) (h : Hub) : (setHub s p k h).job = s.job := rfl
@[simp] theorem setHub_cur (s : State) (p k : Nat) (h : Hub) : (setHub s p k h).cur = s.cur := rfl
@[simp] theorem setHub_agenda (s : State) (p k : Nat) (h : Hub) : (setHub s p k h).agenda = s.agenda := rfl
@[simp] theorem setHub_tick (s : State) (p k : Nat) (h : Hub) : (setHub s p k h).tick = s.tick := rfl
@[simp] theorem setHub_clock (s : State) (p k : Nat) (h : Hub) : (setHub s p k h).clock = s.clock := rfl

/-! ## setPkg -/

@[simp] theorem setPkg_mem (s : State) (p : Nat) (k : Pkg) : (setPkg s p k).mem = s.mem := rfl
@[simp] theorem setPkg_empty (s : State) (p : Nat) (k : Pkg) : (setPkg s p k).empty = s.empty := rfl
@[simp] theorem setPkg_poison (s : State) (p : Nat) (k : Pkg) : (setPkg s p k).poison = s.poison := rfl
@[simp] theorem setPkg_cores (s : State) (p : Nat) (k : Pkg) : (setPkg s p k).cores = s.cores := rfl
@[simp] theorem setPkg_hubs (s : State) (p : Nat) (k : Pkg) : (setPkg s p k).hubs = s.hubs := rfl
@[simp] theorem setPkg_redirects (s : State) (p : Nat) (k : Pkg) : (setPkg s p k).redirects = s.redirects := rfl
@[simp] theorem setPkg_wbuf (s : State) (p : Nat) (k : Pkg) : (setPkg s p k).wbuf = s.wbuf := rfl
@[simp] theorem setPkg_items (s : State) (p : Nat) (k : Pkg) : (setPkg s p k).items = s.items := rfl
@[simp] theorem setPkg_itemSeq (s : State) (p : Nat) (k : Pkg) : (setPkg s p k).itemSeq = s.itemSeq := rfl
@[simp] theorem setPkg_arrivals (s : State) (p : Nat) (k : Pkg) : (setPkg s p k).arrivals = s.arrivals := rfl
@[simp] theorem setPkg_arms (s : State) (p : Nat) (k : Pkg) : (setPkg s p k).arms = s.arms := rfl
@[simp] theorem setPkg_copies (s : State) (p : Nat) (k : Pkg) : (setPkg s p k).copies = s.copies := rfl
@[simp] theorem setPkg_walks (s : State) (p : Nat) (k : Pkg) : (setPkg s p k).walks = s.walks := rfl
@[simp] theorem setPkg_nwords (s : State) (p : Nat) (k : Pkg) : (setPkg s p k).nwords = s.nwords := rfl
@[simp] theorem setPkg_reelArr (s : State) (p : Nat) (k : Pkg) : (setPkg s p k).reelArr = s.reelArr := rfl
@[simp] theorem setPkg_reelRel (s : State) (p : Nat) (k : Pkg) : (setPkg s p k).reelRel = s.reelRel := rfl
@[simp] theorem setPkg_remotes (s : State) (p : Nat) (k : Pkg) : (setPkg s p k).remotes = s.remotes := rfl
@[simp] theorem setPkg_shoots (s : State) (p : Nat) (k : Pkg) : (setPkg s p k).shoots = s.shoots := rfl
@[simp] theorem setPkg_lates (s : State) (p : Nat) (k : Pkg) : (setPkg s p k).lates = s.lates := rfl
@[simp] theorem setPkg_lateAccs (s : State) (p : Nat) (k : Pkg) : (setPkg s p k).lateAccs = s.lateAccs := rfl
@[simp] theorem setPkg_lines (s : State) (p : Nat) (k : Pkg) : (setPkg s p k).lines = s.lines := rfl
@[simp] theorem setPkg_watches (s : State) (p : Nat) (k : Pkg) : (setPkg s p k).watches = s.watches := rfl
@[simp] theorem setPkg_owed (s : State) (p : Nat) (k : Pkg) : (setPkg s p k).owed = s.owed := rfl
@[simp] theorem setPkg_job (s : State) (p : Nat) (k : Pkg) : (setPkg s p k).job = s.job := rfl
@[simp] theorem setPkg_cur (s : State) (p : Nat) (k : Pkg) : (setPkg s p k).cur = s.cur := rfl
@[simp] theorem setPkg_agenda (s : State) (p : Nat) (k : Pkg) : (setPkg s p k).agenda = s.agenda := rfl
@[simp] theorem setPkg_tick (s : State) (p : Nat) (k : Pkg) : (setPkg s p k).tick = s.tick := rfl
@[simp] theorem setPkg_clock (s : State) (p : Nat) (k : Pkg) : (setPkg s p k).clock = s.clock := rfl

/-! ## setT -/

@[simp] theorem setT_mem (s : State) (c : CoreId) (slot : Nat) (t : Option Thread) : (setT s c slot t).mem = s.mem := rfl
@[simp] theorem setT_empty (s : State) (c : CoreId) (slot : Nat) (t : Option Thread) : (setT s c slot t).empty = s.empty := rfl
@[simp] theorem setT_poison (s : State) (c : CoreId) (slot : Nat) (t : Option Thread) : (setT s c slot t).poison = s.poison := rfl
@[simp] theorem setT_hubs (s : State) (c : CoreId) (slot : Nat) (t : Option Thread) : (setT s c slot t).hubs = s.hubs := rfl
@[simp] theorem setT_pkgs (s : State) (c : CoreId) (slot : Nat) (t : Option Thread) : (setT s c slot t).pkgs = s.pkgs := rfl
@[simp] theorem setT_redirects (s : State) (c : CoreId) (slot : Nat) (t : Option Thread) : (setT s c slot t).redirects = s.redirects := rfl
@[simp] theorem setT_wbuf (s : State) (c : CoreId) (slot : Nat) (t : Option Thread) : (setT s c slot t).wbuf = s.wbuf := rfl
@[simp] theorem setT_items (s : State) (c : CoreId) (slot : Nat) (t : Option Thread) : (setT s c slot t).items = s.items := rfl
@[simp] theorem setT_itemSeq (s : State) (c : CoreId) (slot : Nat) (t : Option Thread) : (setT s c slot t).itemSeq = s.itemSeq := rfl
@[simp] theorem setT_arrivals (s : State) (c : CoreId) (slot : Nat) (t : Option Thread) : (setT s c slot t).arrivals = s.arrivals := rfl
@[simp] theorem setT_arms (s : State) (c : CoreId) (slot : Nat) (t : Option Thread) : (setT s c slot t).arms = s.arms := rfl
@[simp] theorem setT_copies (s : State) (c : CoreId) (slot : Nat) (t : Option Thread) : (setT s c slot t).copies = s.copies := rfl
@[simp] theorem setT_walks (s : State) (c : CoreId) (slot : Nat) (t : Option Thread) : (setT s c slot t).walks = s.walks := rfl
@[simp] theorem setT_nwords (s : State) (c : CoreId) (slot : Nat) (t : Option Thread) : (setT s c slot t).nwords = s.nwords := rfl
@[simp] theorem setT_reelArr (s : State) (c : CoreId) (slot : Nat) (t : Option Thread) : (setT s c slot t).reelArr = s.reelArr := rfl
@[simp] theorem setT_reelRel (s : State) (c : CoreId) (slot : Nat) (t : Option Thread) : (setT s c slot t).reelRel = s.reelRel := rfl
@[simp] theorem setT_remotes (s : State) (c : CoreId) (slot : Nat) (t : Option Thread) : (setT s c slot t).remotes = s.remotes := rfl
@[simp] theorem setT_shoots (s : State) (c : CoreId) (slot : Nat) (t : Option Thread) : (setT s c slot t).shoots = s.shoots := rfl
@[simp] theorem setT_lates (s : State) (c : CoreId) (slot : Nat) (t : Option Thread) : (setT s c slot t).lates = s.lates := rfl
@[simp] theorem setT_lateAccs (s : State) (c : CoreId) (slot : Nat) (t : Option Thread) : (setT s c slot t).lateAccs = s.lateAccs := rfl
@[simp] theorem setT_lines (s : State) (c : CoreId) (slot : Nat) (t : Option Thread) : (setT s c slot t).lines = s.lines := rfl
@[simp] theorem setT_watches (s : State) (c : CoreId) (slot : Nat) (t : Option Thread) : (setT s c slot t).watches = s.watches := rfl
@[simp] theorem setT_owed (s : State) (c : CoreId) (slot : Nat) (t : Option Thread) : (setT s c slot t).owed = s.owed := rfl
@[simp] theorem setT_job (s : State) (c : CoreId) (slot : Nat) (t : Option Thread) : (setT s c slot t).job = s.job := rfl
@[simp] theorem setT_cur (s : State) (c : CoreId) (slot : Nat) (t : Option Thread) : (setT s c slot t).cur = s.cur := rfl
@[simp] theorem setT_agenda (s : State) (c : CoreId) (slot : Nat) (t : Option Thread) : (setT s c slot t).agenda = s.agenda := rfl
@[simp] theorem setT_tick (s : State) (c : CoreId) (slot : Nat) (t : Option Thread) : (setT s c slot t).tick = s.tick := rfl
@[simp] theorem setT_clock (s : State) (c : CoreId) (slot : Nat) (t : Option Thread) : (setT s c slot t).clock = s.clock := rfl

/-! ## modCore -/

@[simp] theorem modCore_mem (s : State) (c : CoreId) (f : Core → Core) : (modCore s c f).mem = s.mem := rfl
@[simp] theorem modCore_empty (s : State) (c : CoreId) (f : Core → Core) : (modCore s c f).empty = s.empty := rfl
@[simp] theorem modCore_poison (s : State) (c : CoreId) (f : Core → Core) : (modCore s c f).poison = s.poison := rfl
@[simp] theorem modCore_hubs (s : State) (c : CoreId) (f : Core → Core) : (modCore s c f).hubs = s.hubs := rfl
@[simp] theorem modCore_pkgs (s : State) (c : CoreId) (f : Core → Core) : (modCore s c f).pkgs = s.pkgs := rfl
@[simp] theorem modCore_redirects (s : State) (c : CoreId) (f : Core → Core) : (modCore s c f).redirects = s.redirects := rfl
@[simp] theorem modCore_wbuf (s : State) (c : CoreId) (f : Core → Core) : (modCore s c f).wbuf = s.wbuf := rfl
@[simp] theorem modCore_items (s : State) (c : CoreId) (f : Core → Core) : (modCore s c f).items = s.items := rfl
@[simp] theorem modCore_itemSeq (s : State) (c : CoreId) (f : Core → Core) : (modCore s c f).itemSeq = s.itemSeq := rfl
@[simp] theorem modCore_arrivals (s : State) (c : CoreId) (f : Core → Core) : (modCore s c f).arrivals = s.arrivals := rfl
@[simp] theorem modCore_arms (s : State) (c : CoreId) (f : Core → Core) : (modCore s c f).arms = s.arms := rfl
@[simp] theorem modCore_copies (s : State) (c : CoreId) (f : Core → Core) : (modCore s c f).copies = s.copies := rfl
@[simp] theorem modCore_walks (s : State) (c : CoreId) (f : Core → Core) : (modCore s c f).walks = s.walks := rfl
@[simp] theorem modCore_nwords (s : State) (c : CoreId) (f : Core → Core) : (modCore s c f).nwords = s.nwords := rfl
@[simp] theorem modCore_reelArr (s : State) (c : CoreId) (f : Core → Core) : (modCore s c f).reelArr = s.reelArr := rfl
@[simp] theorem modCore_reelRel (s : State) (c : CoreId) (f : Core → Core) : (modCore s c f).reelRel = s.reelRel := rfl
@[simp] theorem modCore_remotes (s : State) (c : CoreId) (f : Core → Core) : (modCore s c f).remotes = s.remotes := rfl
@[simp] theorem modCore_shoots (s : State) (c : CoreId) (f : Core → Core) : (modCore s c f).shoots = s.shoots := rfl
@[simp] theorem modCore_lates (s : State) (c : CoreId) (f : Core → Core) : (modCore s c f).lates = s.lates := rfl
@[simp] theorem modCore_lateAccs (s : State) (c : CoreId) (f : Core → Core) : (modCore s c f).lateAccs = s.lateAccs := rfl
@[simp] theorem modCore_lines (s : State) (c : CoreId) (f : Core → Core) : (modCore s c f).lines = s.lines := rfl
@[simp] theorem modCore_watches (s : State) (c : CoreId) (f : Core → Core) : (modCore s c f).watches = s.watches := rfl
@[simp] theorem modCore_owed (s : State) (c : CoreId) (f : Core → Core) : (modCore s c f).owed = s.owed := rfl
@[simp] theorem modCore_job (s : State) (c : CoreId) (f : Core → Core) : (modCore s c f).job = s.job := rfl
@[simp] theorem modCore_cur (s : State) (c : CoreId) (f : Core → Core) : (modCore s c f).cur = s.cur := rfl
@[simp] theorem modCore_agenda (s : State) (c : CoreId) (f : Core → Core) : (modCore s c f).agenda = s.agenda := rfl
@[simp] theorem modCore_tick (s : State) (c : CoreId) (f : Core → Core) : (modCore s c f).tick = s.tick := rfl
@[simp] theorem modCore_clock (s : State) (c : CoreId) (f : Core → Core) : (modCore s c f).clock = s.clock := rfl

/-! ## modHub -/

@[simp] theorem modHub_mem (s : State) (p k : Nat) (f : Hub → Hub) : (modHub s p k f).mem = s.mem := rfl
@[simp] theorem modHub_empty (s : State) (p k : Nat) (f : Hub → Hub) : (modHub s p k f).empty = s.empty := rfl
@[simp] theorem modHub_poison (s : State) (p k : Nat) (f : Hub → Hub) : (modHub s p k f).poison = s.poison := rfl
@[simp] theorem modHub_cores (s : State) (p k : Nat) (f : Hub → Hub) : (modHub s p k f).cores = s.cores := rfl
@[simp] theorem modHub_pkgs (s : State) (p k : Nat) (f : Hub → Hub) : (modHub s p k f).pkgs = s.pkgs := rfl
@[simp] theorem modHub_redirects (s : State) (p k : Nat) (f : Hub → Hub) : (modHub s p k f).redirects = s.redirects := rfl
@[simp] theorem modHub_wbuf (s : State) (p k : Nat) (f : Hub → Hub) : (modHub s p k f).wbuf = s.wbuf := rfl
@[simp] theorem modHub_items (s : State) (p k : Nat) (f : Hub → Hub) : (modHub s p k f).items = s.items := rfl
@[simp] theorem modHub_itemSeq (s : State) (p k : Nat) (f : Hub → Hub) : (modHub s p k f).itemSeq = s.itemSeq := rfl
@[simp] theorem modHub_arrivals (s : State) (p k : Nat) (f : Hub → Hub) : (modHub s p k f).arrivals = s.arrivals := rfl
@[simp] theorem modHub_arms (s : State) (p k : Nat) (f : Hub → Hub) : (modHub s p k f).arms = s.arms := rfl
@[simp] theorem modHub_copies (s : State) (p k : Nat) (f : Hub → Hub) : (modHub s p k f).copies = s.copies := rfl
@[simp] theorem modHub_walks (s : State) (p k : Nat) (f : Hub → Hub) : (modHub s p k f).walks = s.walks := rfl
@[simp] theorem modHub_nwords (s : State) (p k : Nat) (f : Hub → Hub) : (modHub s p k f).nwords = s.nwords := rfl
@[simp] theorem modHub_reelArr (s : State) (p k : Nat) (f : Hub → Hub) : (modHub s p k f).reelArr = s.reelArr := rfl
@[simp] theorem modHub_reelRel (s : State) (p k : Nat) (f : Hub → Hub) : (modHub s p k f).reelRel = s.reelRel := rfl
@[simp] theorem modHub_remotes (s : State) (p k : Nat) (f : Hub → Hub) : (modHub s p k f).remotes = s.remotes := rfl
@[simp] theorem modHub_shoots (s : State) (p k : Nat) (f : Hub → Hub) : (modHub s p k f).shoots = s.shoots := rfl
@[simp] theorem modHub_lates (s : State) (p k : Nat) (f : Hub → Hub) : (modHub s p k f).lates = s.lates := rfl
@[simp] theorem modHub_lateAccs (s : State) (p k : Nat) (f : Hub → Hub) : (modHub s p k f).lateAccs = s.lateAccs := rfl
@[simp] theorem modHub_lines (s : State) (p k : Nat) (f : Hub → Hub) : (modHub s p k f).lines = s.lines := rfl
@[simp] theorem modHub_watches (s : State) (p k : Nat) (f : Hub → Hub) : (modHub s p k f).watches = s.watches := rfl
@[simp] theorem modHub_owed (s : State) (p k : Nat) (f : Hub → Hub) : (modHub s p k f).owed = s.owed := rfl
@[simp] theorem modHub_job (s : State) (p k : Nat) (f : Hub → Hub) : (modHub s p k f).job = s.job := rfl
@[simp] theorem modHub_cur (s : State) (p k : Nat) (f : Hub → Hub) : (modHub s p k f).cur = s.cur := rfl
@[simp] theorem modHub_agenda (s : State) (p k : Nat) (f : Hub → Hub) : (modHub s p k f).agenda = s.agenda := rfl
@[simp] theorem modHub_tick (s : State) (p k : Nat) (f : Hub → Hub) : (modHub s p k f).tick = s.tick := rfl
@[simp] theorem modHub_clock (s : State) (p k : Nat) (f : Hub → Hub) : (modHub s p k f).clock = s.clock := rfl

/-! ## modPkg -/

@[simp] theorem modPkg_mem (s : State) (p : Nat) (f : Pkg → Pkg) : (modPkg s p f).mem = s.mem := rfl
@[simp] theorem modPkg_empty (s : State) (p : Nat) (f : Pkg → Pkg) : (modPkg s p f).empty = s.empty := rfl
@[simp] theorem modPkg_poison (s : State) (p : Nat) (f : Pkg → Pkg) : (modPkg s p f).poison = s.poison := rfl
@[simp] theorem modPkg_cores (s : State) (p : Nat) (f : Pkg → Pkg) : (modPkg s p f).cores = s.cores := rfl
@[simp] theorem modPkg_hubs (s : State) (p : Nat) (f : Pkg → Pkg) : (modPkg s p f).hubs = s.hubs := rfl
@[simp] theorem modPkg_redirects (s : State) (p : Nat) (f : Pkg → Pkg) : (modPkg s p f).redirects = s.redirects := rfl
@[simp] theorem modPkg_wbuf (s : State) (p : Nat) (f : Pkg → Pkg) : (modPkg s p f).wbuf = s.wbuf := rfl
@[simp] theorem modPkg_items (s : State) (p : Nat) (f : Pkg → Pkg) : (modPkg s p f).items = s.items := rfl
@[simp] theorem modPkg_itemSeq (s : State) (p : Nat) (f : Pkg → Pkg) : (modPkg s p f).itemSeq = s.itemSeq := rfl
@[simp] theorem modPkg_arrivals (s : State) (p : Nat) (f : Pkg → Pkg) : (modPkg s p f).arrivals = s.arrivals := rfl
@[simp] theorem modPkg_arms (s : State) (p : Nat) (f : Pkg → Pkg) : (modPkg s p f).arms = s.arms := rfl
@[simp] theorem modPkg_copies (s : State) (p : Nat) (f : Pkg → Pkg) : (modPkg s p f).copies = s.copies := rfl
@[simp] theorem modPkg_walks (s : State) (p : Nat) (f : Pkg → Pkg) : (modPkg s p f).walks = s.walks := rfl
@[simp] theorem modPkg_nwords (s : State) (p : Nat) (f : Pkg → Pkg) : (modPkg s p f).nwords = s.nwords := rfl
@[simp] theorem modPkg_reelArr (s : State) (p : Nat) (f : Pkg → Pkg) : (modPkg s p f).reelArr = s.reelArr := rfl
@[simp] theorem modPkg_reelRel (s : State) (p : Nat) (f : Pkg → Pkg) : (modPkg s p f).reelRel = s.reelRel := rfl
@[simp] theorem modPkg_remotes (s : State) (p : Nat) (f : Pkg → Pkg) : (modPkg s p f).remotes = s.remotes := rfl
@[simp] theorem modPkg_shoots (s : State) (p : Nat) (f : Pkg → Pkg) : (modPkg s p f).shoots = s.shoots := rfl
@[simp] theorem modPkg_lates (s : State) (p : Nat) (f : Pkg → Pkg) : (modPkg s p f).lates = s.lates := rfl
@[simp] theorem modPkg_lateAccs (s : State) (p : Nat) (f : Pkg → Pkg) : (modPkg s p f).lateAccs = s.lateAccs := rfl
@[simp] theorem modPkg_lines (s : State) (p : Nat) (f : Pkg → Pkg) : (modPkg s p f).lines = s.lines := rfl
@[simp] theorem modPkg_watches (s : State) (p : Nat) (f : Pkg → Pkg) : (modPkg s p f).watches = s.watches := rfl
@[simp] theorem modPkg_owed (s : State) (p : Nat) (f : Pkg → Pkg) : (modPkg s p f).owed = s.owed := rfl
@[simp] theorem modPkg_job (s : State) (p : Nat) (f : Pkg → Pkg) : (modPkg s p f).job = s.job := rfl
@[simp] theorem modPkg_cur (s : State) (p : Nat) (f : Pkg → Pkg) : (modPkg s p f).cur = s.cur := rfl
@[simp] theorem modPkg_agenda (s : State) (p : Nat) (f : Pkg → Pkg) : (modPkg s p f).agenda = s.agenda := rfl
@[simp] theorem modPkg_tick (s : State) (p : Nat) (f : Pkg → Pkg) : (modPkg s p f).tick = s.tick := rfl
@[simp] theorem modPkg_clock (s : State) (p : Nat) (f : Pkg → Pkg) : (modPkg s p f).clock = s.clock := rfl

/-! ## modT -/

@[simp] theorem modT_mem (s : State) (c : CoreId) (slot : Nat) (f : Thread → Thread) : (modT s c slot f).mem = s.mem := by
  unfold modT; split <;> rfl
@[simp] theorem modT_empty (s : State) (c : CoreId) (slot : Nat) (f : Thread → Thread) : (modT s c slot f).empty = s.empty := by
  unfold modT; split <;> rfl
@[simp] theorem modT_poison (s : State) (c : CoreId) (slot : Nat) (f : Thread → Thread) : (modT s c slot f).poison = s.poison := by
  unfold modT; split <;> rfl
@[simp] theorem modT_hubs (s : State) (c : CoreId) (slot : Nat) (f : Thread → Thread) : (modT s c slot f).hubs = s.hubs := by
  unfold modT; split <;> rfl
@[simp] theorem modT_pkgs (s : State) (c : CoreId) (slot : Nat) (f : Thread → Thread) : (modT s c slot f).pkgs = s.pkgs := by
  unfold modT; split <;> rfl
@[simp] theorem modT_redirects (s : State) (c : CoreId) (slot : Nat) (f : Thread → Thread) : (modT s c slot f).redirects = s.redirects := by
  unfold modT; split <;> rfl
@[simp] theorem modT_wbuf (s : State) (c : CoreId) (slot : Nat) (f : Thread → Thread) : (modT s c slot f).wbuf = s.wbuf := by
  unfold modT; split <;> rfl
@[simp] theorem modT_items (s : State) (c : CoreId) (slot : Nat) (f : Thread → Thread) : (modT s c slot f).items = s.items := by
  unfold modT; split <;> rfl
@[simp] theorem modT_itemSeq (s : State) (c : CoreId) (slot : Nat) (f : Thread → Thread) : (modT s c slot f).itemSeq = s.itemSeq := by
  unfold modT; split <;> rfl
@[simp] theorem modT_arrivals (s : State) (c : CoreId) (slot : Nat) (f : Thread → Thread) : (modT s c slot f).arrivals = s.arrivals := by
  unfold modT; split <;> rfl
@[simp] theorem modT_arms (s : State) (c : CoreId) (slot : Nat) (f : Thread → Thread) : (modT s c slot f).arms = s.arms := by
  unfold modT; split <;> rfl
@[simp] theorem modT_copies (s : State) (c : CoreId) (slot : Nat) (f : Thread → Thread) : (modT s c slot f).copies = s.copies := by
  unfold modT; split <;> rfl
@[simp] theorem modT_walks (s : State) (c : CoreId) (slot : Nat) (f : Thread → Thread) : (modT s c slot f).walks = s.walks := by
  unfold modT; split <;> rfl
@[simp] theorem modT_nwords (s : State) (c : CoreId) (slot : Nat) (f : Thread → Thread) : (modT s c slot f).nwords = s.nwords := by
  unfold modT; split <;> rfl
@[simp] theorem modT_reelArr (s : State) (c : CoreId) (slot : Nat) (f : Thread → Thread) : (modT s c slot f).reelArr = s.reelArr := by
  unfold modT; split <;> rfl
@[simp] theorem modT_reelRel (s : State) (c : CoreId) (slot : Nat) (f : Thread → Thread) : (modT s c slot f).reelRel = s.reelRel := by
  unfold modT; split <;> rfl
@[simp] theorem modT_remotes (s : State) (c : CoreId) (slot : Nat) (f : Thread → Thread) : (modT s c slot f).remotes = s.remotes := by
  unfold modT; split <;> rfl
@[simp] theorem modT_shoots (s : State) (c : CoreId) (slot : Nat) (f : Thread → Thread) : (modT s c slot f).shoots = s.shoots := by
  unfold modT; split <;> rfl
@[simp] theorem modT_lates (s : State) (c : CoreId) (slot : Nat) (f : Thread → Thread) : (modT s c slot f).lates = s.lates := by
  unfold modT; split <;> rfl
@[simp] theorem modT_lateAccs (s : State) (c : CoreId) (slot : Nat) (f : Thread → Thread) : (modT s c slot f).lateAccs = s.lateAccs := by
  unfold modT; split <;> rfl
@[simp] theorem modT_lines (s : State) (c : CoreId) (slot : Nat) (f : Thread → Thread) : (modT s c slot f).lines = s.lines := by
  unfold modT; split <;> rfl
@[simp] theorem modT_watches (s : State) (c : CoreId) (slot : Nat) (f : Thread → Thread) : (modT s c slot f).watches = s.watches := by
  unfold modT; split <;> rfl
@[simp] theorem modT_owed (s : State) (c : CoreId) (slot : Nat) (f : Thread → Thread) : (modT s c slot f).owed = s.owed := by
  unfold modT; split <;> rfl
@[simp] theorem modT_job (s : State) (c : CoreId) (slot : Nat) (f : Thread → Thread) : (modT s c slot f).job = s.job := by
  unfold modT; split <;> rfl
@[simp] theorem modT_cur (s : State) (c : CoreId) (slot : Nat) (f : Thread → Thread) : (modT s c slot f).cur = s.cur := by
  unfold modT; split <;> rfl
@[simp] theorem modT_agenda (s : State) (c : CoreId) (slot : Nat) (f : Thread → Thread) : (modT s c slot f).agenda = s.agenda := by
  unfold modT; split <;> rfl
@[simp] theorem modT_tick (s : State) (c : CoreId) (slot : Nat) (f : Thread → Thread) : (modT s c slot f).tick = s.tick := by
  unfold modT; split <;> rfl
@[simp] theorem modT_clock (s : State) (c : CoreId) (slot : Nat) (f : Thread → Thread) : (modT s c slot f).clock = s.clock := by
  unfold modT; split <;> rfl

/-! ## writeG -/

@[simp] theorem writeG_allot (t : Thread) (r : GReg) (x : Dword) : (writeG t r x).allot = t.allot := rfl
@[simp] theorem writeG_net (t : Thread) (r : GReg) (x : Dword) : (writeG t r x).net = t.net := rfl
@[simp] theorem writeG_pc (t : Thread) (r : GReg) (x : Dword) : (writeG t r x).pc = t.pc := rfl
@[simp] theorem writeG_seg (t : Thread) (r : GReg) (x : Dword) : (writeG t r x).seg = t.seg := rfl
@[simp] theorem writeG_pid (t : Thread) (r : GReg) (x : Dword) : (writeG t r x).pid = t.pid := rfl
@[simp] theorem writeG_asid (t : Thread) (r : GReg) (x : Dword) : (writeG t r x).asid = t.asid := rfl
@[simp] theorem writeG_gslot (t : Thread) (r : GReg) (x : Dword) : (writeG t r x).gslot = t.gslot := rfl
@[simp] theorem writeG_kernel (t : Thread) (r : GReg) (x : Dword) : (writeG t r x).kernel = t.kernel := rfl
@[simp] theorem writeG_domain (t : Thread) (r : GReg) (x : Dword) : (writeG t r x).domain = t.domain := rfl
@[simp] theorem writeG_weight (t : Thread) (r : GReg) (x : Dword) : (writeG t r x).weight = t.weight := rfl
@[simp] theorem writeG_group (t : Thread) (r : GReg) (x : Dword) : (writeG t r x).group = t.group := rfl
@[simp] theorem writeG_tid (t : Thread) (r : GReg) (x : Dword) : (writeG t r x).tid = t.tid := rfl
@[simp] theorem writeG_crew (t : Thread) (r : GReg) (x : Dword) : (writeG t r x).crew = t.crew := rfl
@[simp] theorem writeG_prio (t : Thread) (r : GReg) (x : Dword) : (writeG t r x).prio = t.prio := rfl
@[simp] theorem writeG_slim (t : Thread) (r : GReg) (x : Dword) : (writeG t r x).slim = t.slim := rfl
@[simp] theorem writeG_inHandler (t : Thread) (r : GReg) (x : Dword) : (writeG t r x).inHandler = t.inHandler := rfl
@[simp] theorem writeG_run (t : Thread) (r : GReg) (x : Dword) : (writeG t r x).run = t.run := rfl
@[simp] theorem writeG_marker (t : Thread) (r : GReg) (x : Dword) : (writeG t r x).marker = t.marker := rfl
@[simp] theorem writeG_seq (t : Thread) (r : GReg) (x : Dword) : (writeG t r x).seq = t.seq := rfl
@[simp] theorem writeG_acc (t : Thread) (r : GReg) (x : Dword) : (writeG t r x).acc = t.acc := rfl
@[simp] theorem writeG_trap (t : Thread) (r : GReg) (x : Dword) : (writeG t r x).trap = t.trap := rfl
@[simp] theorem writeG_woken (t : Thread) (r : GReg) (x : Dword) : (writeG t r x).woken = t.woken := rfl
@[simp] theorem writeG_halted (t : Thread) (r : GReg) (x : Dword) : (writeG t r x).halted = t.halted := rfl
@[simp] theorem writeG_parkedAt (t : Thread) (r : GReg) (x : Dword) : (writeG t r x).parkedAt = t.parkedAt := rfl
@[simp] theorem writeG_haltOuts (t : Thread) (r : GReg) (x : Dword) : (writeG t r x).haltOuts = t.haltOuts := rfl
@[simp] theorem writeG_claims (t : Thread) (r : GReg) (x : Dword) : (writeG t r x).claims = t.claims := rfl

/-! ## writeV -/

@[simp] theorem writeV_allot (t : Thread) (r : VReg) (x : Vec) : (writeV t r x).allot = t.allot := rfl
@[simp] theorem writeV_net (t : Thread) (r : VReg) (x : Vec) : (writeV t r x).net = t.net := rfl
@[simp] theorem writeV_pc (t : Thread) (r : VReg) (x : Vec) : (writeV t r x).pc = t.pc := rfl
@[simp] theorem writeV_seg (t : Thread) (r : VReg) (x : Vec) : (writeV t r x).seg = t.seg := rfl
@[simp] theorem writeV_pid (t : Thread) (r : VReg) (x : Vec) : (writeV t r x).pid = t.pid := rfl
@[simp] theorem writeV_asid (t : Thread) (r : VReg) (x : Vec) : (writeV t r x).asid = t.asid := rfl
@[simp] theorem writeV_gslot (t : Thread) (r : VReg) (x : Vec) : (writeV t r x).gslot = t.gslot := rfl
@[simp] theorem writeV_kernel (t : Thread) (r : VReg) (x : Vec) : (writeV t r x).kernel = t.kernel := rfl
@[simp] theorem writeV_domain (t : Thread) (r : VReg) (x : Vec) : (writeV t r x).domain = t.domain := rfl
@[simp] theorem writeV_weight (t : Thread) (r : VReg) (x : Vec) : (writeV t r x).weight = t.weight := rfl
@[simp] theorem writeV_group (t : Thread) (r : VReg) (x : Vec) : (writeV t r x).group = t.group := rfl
@[simp] theorem writeV_tid (t : Thread) (r : VReg) (x : Vec) : (writeV t r x).tid = t.tid := rfl
@[simp] theorem writeV_crew (t : Thread) (r : VReg) (x : Vec) : (writeV t r x).crew = t.crew := rfl
@[simp] theorem writeV_prio (t : Thread) (r : VReg) (x : Vec) : (writeV t r x).prio = t.prio := rfl
@[simp] theorem writeV_slim (t : Thread) (r : VReg) (x : Vec) : (writeV t r x).slim = t.slim := rfl
@[simp] theorem writeV_inHandler (t : Thread) (r : VReg) (x : Vec) : (writeV t r x).inHandler = t.inHandler := rfl
@[simp] theorem writeV_run (t : Thread) (r : VReg) (x : Vec) : (writeV t r x).run = t.run := rfl
@[simp] theorem writeV_marker (t : Thread) (r : VReg) (x : Vec) : (writeV t r x).marker = t.marker := rfl
@[simp] theorem writeV_seq (t : Thread) (r : VReg) (x : Vec) : (writeV t r x).seq = t.seq := rfl
@[simp] theorem writeV_acc (t : Thread) (r : VReg) (x : Vec) : (writeV t r x).acc = t.acc := rfl
@[simp] theorem writeV_trap (t : Thread) (r : VReg) (x : Vec) : (writeV t r x).trap = t.trap := rfl
@[simp] theorem writeV_woken (t : Thread) (r : VReg) (x : Vec) : (writeV t r x).woken = t.woken := rfl
@[simp] theorem writeV_halted (t : Thread) (r : VReg) (x : Vec) : (writeV t r x).halted = t.halted := rfl
@[simp] theorem writeV_parkedAt (t : Thread) (r : VReg) (x : Vec) : (writeV t r x).parkedAt = t.parkedAt := rfl
@[simp] theorem writeV_haltOuts (t : Thread) (r : VReg) (x : Vec) : (writeV t r x).haltOuts = t.haltOuts := rfl
@[simp] theorem writeV_claims (t : Thread) (r : VReg) (x : Vec) : (writeV t r x).claims = t.claims := rfl

/-! ## writeP -/

@[simp] theorem writeP_allot (t : Thread) (r : PReg) (x : Word) : (writeP t r x).allot = t.allot := rfl
@[simp] theorem writeP_net (t : Thread) (r : PReg) (x : Word) : (writeP t r x).net = t.net := rfl
@[simp] theorem writeP_pc (t : Thread) (r : PReg) (x : Word) : (writeP t r x).pc = t.pc := rfl
@[simp] theorem writeP_seg (t : Thread) (r : PReg) (x : Word) : (writeP t r x).seg = t.seg := rfl
@[simp] theorem writeP_pid (t : Thread) (r : PReg) (x : Word) : (writeP t r x).pid = t.pid := rfl
@[simp] theorem writeP_asid (t : Thread) (r : PReg) (x : Word) : (writeP t r x).asid = t.asid := rfl
@[simp] theorem writeP_gslot (t : Thread) (r : PReg) (x : Word) : (writeP t r x).gslot = t.gslot := rfl
@[simp] theorem writeP_kernel (t : Thread) (r : PReg) (x : Word) : (writeP t r x).kernel = t.kernel := rfl
@[simp] theorem writeP_domain (t : Thread) (r : PReg) (x : Word) : (writeP t r x).domain = t.domain := rfl
@[simp] theorem writeP_weight (t : Thread) (r : PReg) (x : Word) : (writeP t r x).weight = t.weight := rfl
@[simp] theorem writeP_group (t : Thread) (r : PReg) (x : Word) : (writeP t r x).group = t.group := rfl
@[simp] theorem writeP_tid (t : Thread) (r : PReg) (x : Word) : (writeP t r x).tid = t.tid := rfl
@[simp] theorem writeP_crew (t : Thread) (r : PReg) (x : Word) : (writeP t r x).crew = t.crew := rfl
@[simp] theorem writeP_prio (t : Thread) (r : PReg) (x : Word) : (writeP t r x).prio = t.prio := rfl
@[simp] theorem writeP_slim (t : Thread) (r : PReg) (x : Word) : (writeP t r x).slim = t.slim := rfl
@[simp] theorem writeP_inHandler (t : Thread) (r : PReg) (x : Word) : (writeP t r x).inHandler = t.inHandler := rfl
@[simp] theorem writeP_run (t : Thread) (r : PReg) (x : Word) : (writeP t r x).run = t.run := rfl
@[simp] theorem writeP_marker (t : Thread) (r : PReg) (x : Word) : (writeP t r x).marker = t.marker := rfl
@[simp] theorem writeP_seq (t : Thread) (r : PReg) (x : Word) : (writeP t r x).seq = t.seq := rfl
@[simp] theorem writeP_out (t : Thread) (r : PReg) (x : Word) : (writeP t r x).out = t.out := rfl
@[simp] theorem writeP_acc (t : Thread) (r : PReg) (x : Word) : (writeP t r x).acc = t.acc := rfl
@[simp] theorem writeP_trap (t : Thread) (r : PReg) (x : Word) : (writeP t r x).trap = t.trap := rfl
@[simp] theorem writeP_woken (t : Thread) (r : PReg) (x : Word) : (writeP t r x).woken = t.woken := rfl
@[simp] theorem writeP_halted (t : Thread) (r : PReg) (x : Word) : (writeP t r x).halted = t.halted := rfl
@[simp] theorem writeP_parkedAt (t : Thread) (r : PReg) (x : Word) : (writeP t r x).parkedAt = t.parkedAt := rfl
@[simp] theorem writeP_haltOuts (t : Thread) (r : PReg) (x : Word) : (writeP t r x).haltOuts = t.haltOuts := rfl
@[simp] theorem writeP_claims (t : Thread) (r : PReg) (x : Word) : (writeP t r x).claims = t.claims := rfl

/-! ## addFlags -/

@[simp] theorem addFlags_allot (t : Thread) (x : Flags) : (addFlags t x).allot = t.allot := rfl
@[simp] theorem addFlags_net (t : Thread) (x : Flags) : (addFlags t x).net = t.net := rfl
@[simp] theorem addFlags_pc (t : Thread) (x : Flags) : (addFlags t x).pc = t.pc := rfl
@[simp] theorem addFlags_seg (t : Thread) (x : Flags) : (addFlags t x).seg = t.seg := rfl
@[simp] theorem addFlags_pid (t : Thread) (x : Flags) : (addFlags t x).pid = t.pid := rfl
@[simp] theorem addFlags_asid (t : Thread) (x : Flags) : (addFlags t x).asid = t.asid := rfl
@[simp] theorem addFlags_gslot (t : Thread) (x : Flags) : (addFlags t x).gslot = t.gslot := rfl
@[simp] theorem addFlags_kernel (t : Thread) (x : Flags) : (addFlags t x).kernel = t.kernel := rfl
@[simp] theorem addFlags_domain (t : Thread) (x : Flags) : (addFlags t x).domain = t.domain := rfl
@[simp] theorem addFlags_weight (t : Thread) (x : Flags) : (addFlags t x).weight = t.weight := rfl
@[simp] theorem addFlags_group (t : Thread) (x : Flags) : (addFlags t x).group = t.group := rfl
@[simp] theorem addFlags_tid (t : Thread) (x : Flags) : (addFlags t x).tid = t.tid := rfl
@[simp] theorem addFlags_crew (t : Thread) (x : Flags) : (addFlags t x).crew = t.crew := rfl
@[simp] theorem addFlags_prio (t : Thread) (x : Flags) : (addFlags t x).prio = t.prio := rfl
@[simp] theorem addFlags_slim (t : Thread) (x : Flags) : (addFlags t x).slim = t.slim := rfl
@[simp] theorem addFlags_inHandler (t : Thread) (x : Flags) : (addFlags t x).inHandler = t.inHandler := rfl
@[simp] theorem addFlags_run (t : Thread) (x : Flags) : (addFlags t x).run = t.run := rfl
@[simp] theorem addFlags_marker (t : Thread) (x : Flags) : (addFlags t x).marker = t.marker := rfl
@[simp] theorem addFlags_seq (t : Thread) (x : Flags) : (addFlags t x).seq = t.seq := rfl
@[simp] theorem addFlags_out (t : Thread) (x : Flags) : (addFlags t x).out = t.out := rfl
@[simp] theorem addFlags_acc (t : Thread) (x : Flags) : (addFlags t x).acc = t.acc := rfl
@[simp] theorem addFlags_trap (t : Thread) (x : Flags) : (addFlags t x).trap = t.trap := rfl
@[simp] theorem addFlags_woken (t : Thread) (x : Flags) : (addFlags t x).woken = t.woken := rfl
@[simp] theorem addFlags_halted (t : Thread) (x : Flags) : (addFlags t x).halted = t.halted := rfl
@[simp] theorem addFlags_parkedAt (t : Thread) (x : Flags) : (addFlags t x).parkedAt = t.parkedAt := rfl
@[simp] theorem addFlags_haltOuts (t : Thread) (x : Flags) : (addFlags t x).haltOuts = t.haltOuts := rfl
@[simp] theorem addFlags_claims (t : Thread) (x : Flags) : (addFlags t x).claims = t.claims := rfl

/-! ## pushOut -/

@[simp] theorem pushOut_regs (t : Thread) (d : Dst) (v : OutVal) (x : Flags) (ready : Bool) : (pushOut t d v x ready).regs = t.regs := rfl
@[simp] theorem pushOut_allot (t : Thread) (d : Dst) (v : OutVal) (x : Flags) (ready : Bool) : (pushOut t d v x ready).allot = t.allot := rfl
@[simp] theorem pushOut_net (t : Thread) (d : Dst) (v : OutVal) (x : Flags) (ready : Bool) : (pushOut t d v x ready).net = t.net := rfl
@[simp] theorem pushOut_pc (t : Thread) (d : Dst) (v : OutVal) (x : Flags) (ready : Bool) : (pushOut t d v x ready).pc = t.pc := rfl
@[simp] theorem pushOut_seg (t : Thread) (d : Dst) (v : OutVal) (x : Flags) (ready : Bool) : (pushOut t d v x ready).seg = t.seg := rfl
@[simp] theorem pushOut_pid (t : Thread) (d : Dst) (v : OutVal) (x : Flags) (ready : Bool) : (pushOut t d v x ready).pid = t.pid := rfl
@[simp] theorem pushOut_asid (t : Thread) (d : Dst) (v : OutVal) (x : Flags) (ready : Bool) : (pushOut t d v x ready).asid = t.asid := rfl
@[simp] theorem pushOut_gslot (t : Thread) (d : Dst) (v : OutVal) (x : Flags) (ready : Bool) : (pushOut t d v x ready).gslot = t.gslot := rfl
@[simp] theorem pushOut_kernel (t : Thread) (d : Dst) (v : OutVal) (x : Flags) (ready : Bool) : (pushOut t d v x ready).kernel = t.kernel := rfl
@[simp] theorem pushOut_domain (t : Thread) (d : Dst) (v : OutVal) (x : Flags) (ready : Bool) : (pushOut t d v x ready).domain = t.domain := rfl
@[simp] theorem pushOut_weight (t : Thread) (d : Dst) (v : OutVal) (x : Flags) (ready : Bool) : (pushOut t d v x ready).weight = t.weight := rfl
@[simp] theorem pushOut_group (t : Thread) (d : Dst) (v : OutVal) (x : Flags) (ready : Bool) : (pushOut t d v x ready).group = t.group := rfl
@[simp] theorem pushOut_tid (t : Thread) (d : Dst) (v : OutVal) (x : Flags) (ready : Bool) : (pushOut t d v x ready).tid = t.tid := rfl
@[simp] theorem pushOut_crew (t : Thread) (d : Dst) (v : OutVal) (x : Flags) (ready : Bool) : (pushOut t d v x ready).crew = t.crew := rfl
@[simp] theorem pushOut_prio (t : Thread) (d : Dst) (v : OutVal) (x : Flags) (ready : Bool) : (pushOut t d v x ready).prio = t.prio := rfl
@[simp] theorem pushOut_slim (t : Thread) (d : Dst) (v : OutVal) (x : Flags) (ready : Bool) : (pushOut t d v x ready).slim = t.slim := rfl
@[simp] theorem pushOut_inHandler (t : Thread) (d : Dst) (v : OutVal) (x : Flags) (ready : Bool) : (pushOut t d v x ready).inHandler = t.inHandler := rfl
@[simp] theorem pushOut_run (t : Thread) (d : Dst) (v : OutVal) (x : Flags) (ready : Bool) : (pushOut t d v x ready).run = t.run := rfl
@[simp] theorem pushOut_marker (t : Thread) (d : Dst) (v : OutVal) (x : Flags) (ready : Bool) : (pushOut t d v x ready).marker = t.marker := rfl
@[simp] theorem pushOut_seq (t : Thread) (d : Dst) (v : OutVal) (x : Flags) (ready : Bool) : (pushOut t d v x ready).seq = t.seq := rfl
@[simp] theorem pushOut_acc (t : Thread) (d : Dst) (v : OutVal) (x : Flags) (ready : Bool) : (pushOut t d v x ready).acc = t.acc := rfl
@[simp] theorem pushOut_trap (t : Thread) (d : Dst) (v : OutVal) (x : Flags) (ready : Bool) : (pushOut t d v x ready).trap = t.trap := rfl
@[simp] theorem pushOut_woken (t : Thread) (d : Dst) (v : OutVal) (x : Flags) (ready : Bool) : (pushOut t d v x ready).woken = t.woken := rfl
@[simp] theorem pushOut_halted (t : Thread) (d : Dst) (v : OutVal) (x : Flags) (ready : Bool) : (pushOut t d v x ready).halted = t.halted := rfl
@[simp] theorem pushOut_parkedAt (t : Thread) (d : Dst) (v : OutVal) (x : Flags) (ready : Bool) : (pushOut t d v x ready).parkedAt = t.parkedAt := rfl
@[simp] theorem pushOut_haltOuts (t : Thread) (d : Dst) (v : OutVal) (x : Flags) (ready : Bool) : (pushOut t d v x ready).haltOuts = t.haltOuts := rfl
@[simp] theorem pushOut_claims (t : Thread) (d : Dst) (v : OutVal) (x : Flags) (ready : Bool) : (pushOut t d v x ready).claims = t.claims := rfl

/-! ## advance -/

@[simp] theorem advance_regs (t : Thread) (pc : Nat) (sw : Bool) : (t.advance pc sw).regs = t.regs := rfl
@[simp] theorem advance_allot (t : Thread) (pc : Nat) (sw : Bool) : (t.advance pc sw).allot = t.allot := rfl
@[simp] theorem advance_net (t : Thread) (pc : Nat) (sw : Bool) : (t.advance pc sw).net = t.net := rfl
@[simp] theorem advance_seg (t : Thread) (pc : Nat) (sw : Bool) : (t.advance pc sw).seg = t.seg := rfl
@[simp] theorem advance_pid (t : Thread) (pc : Nat) (sw : Bool) : (t.advance pc sw).pid = t.pid := rfl
@[simp] theorem advance_asid (t : Thread) (pc : Nat) (sw : Bool) : (t.advance pc sw).asid = t.asid := rfl
@[simp] theorem advance_gslot (t : Thread) (pc : Nat) (sw : Bool) : (t.advance pc sw).gslot = t.gslot := rfl
@[simp] theorem advance_kernel (t : Thread) (pc : Nat) (sw : Bool) : (t.advance pc sw).kernel = t.kernel := rfl
@[simp] theorem advance_domain (t : Thread) (pc : Nat) (sw : Bool) : (t.advance pc sw).domain = t.domain := rfl
@[simp] theorem advance_weight (t : Thread) (pc : Nat) (sw : Bool) : (t.advance pc sw).weight = t.weight := rfl
@[simp] theorem advance_group (t : Thread) (pc : Nat) (sw : Bool) : (t.advance pc sw).group = t.group := rfl
@[simp] theorem advance_tid (t : Thread) (pc : Nat) (sw : Bool) : (t.advance pc sw).tid = t.tid := rfl
@[simp] theorem advance_crew (t : Thread) (pc : Nat) (sw : Bool) : (t.advance pc sw).crew = t.crew := rfl
@[simp] theorem advance_prio (t : Thread) (pc : Nat) (sw : Bool) : (t.advance pc sw).prio = t.prio := rfl
@[simp] theorem advance_slim (t : Thread) (pc : Nat) (sw : Bool) : (t.advance pc sw).slim = t.slim := rfl
@[simp] theorem advance_inHandler (t : Thread) (pc : Nat) (sw : Bool) : (t.advance pc sw).inHandler = t.inHandler := rfl
@[simp] theorem advance_out (t : Thread) (pc : Nat) (sw : Bool) : (t.advance pc sw).out = t.out := rfl
@[simp] theorem advance_acc (t : Thread) (pc : Nat) (sw : Bool) : (t.advance pc sw).acc = t.acc := rfl
@[simp] theorem advance_trap (t : Thread) (pc : Nat) (sw : Bool) : (t.advance pc sw).trap = t.trap := rfl
@[simp] theorem advance_halted (t : Thread) (pc : Nat) (sw : Bool) : (t.advance pc sw).halted = t.halted := rfl
@[simp] theorem advance_parkedAt (t : Thread) (pc : Nat) (sw : Bool) : (t.advance pc sw).parkedAt = t.parkedAt := rfl
@[simp] theorem advance_haltOuts (t : Thread) (pc : Nat) (sw : Bool) : (t.advance pc sw).haltOuts = t.haltOuts := rfl
@[simp] theorem advance_claims (t : Thread) (pc : Nat) (sw : Bool) : (t.advance pc sw).claims = [] := rfl
@[simp] theorem advance_pc (t : Thread) (pc : Nat) (sw : Bool) : (t.advance pc sw).pc = pc := rfl
@[simp] theorem advance_marker (t : Thread) (pc : Nat) (sw : Bool) : (t.advance pc sw).marker = sw := rfl
@[simp] theorem advance_seq (t : Thread) (pc : Nat) (sw : Bool) : (t.advance pc sw).seq = t.seq + 1 := rfl
@[simp] theorem advance_run (t : Thread) (pc : Nat) (sw : Bool) : (t.advance pc sw).run = .ready := rfl
@[simp] theorem advance_woken (t : Thread) (pc : Nat) (sw : Bool) : (t.advance pc sw).woken = none := rfl

/-! ## Register files -/

@[simp] theorem setG_v (r : Regs) (i : GReg) (x : Dword) : (r.setG i x).v = r.v := by unfold Regs.setG; split <;> rfl
@[simp] theorem setG_p (r : Regs) (i : GReg) (x : Dword) : (r.setG i x).p = r.p := by unfold Regs.setG; split <;> rfl
@[simp] theorem setG_nf (r : Regs) (i : GReg) (x : Dword) : (r.setG i x).nf = r.nf := by unfold Regs.setG; split <;> rfl
@[simp] theorem setG_t (r : Regs) (i : GReg) (x : Dword) : (r.setG i x).t = r.t := by unfold Regs.setG; split <;> rfl
@[simp] theorem setG_fpc (r : Regs) (i : GReg) (x : Dword) : (r.setG i x).fpc = r.fpc := by unfold Regs.setG; split <;> rfl
@[simp] theorem setG_zero (r : Regs) (x : Dword) : r.setG 0 x = r := rfl
@[simp] theorem setV_g (r : Regs) (i : VReg) (x : Vec) : (r.setV i x).g = r.g := rfl
@[simp] theorem setV_p (r : Regs) (i : VReg) (x : Vec) : (r.setV i x).p = r.p := rfl
@[simp] theorem setV_nf (r : Regs) (i : VReg) (x : Vec) : (r.setV i x).nf = r.nf := rfl
@[simp] theorem setV_t (r : Regs) (i : VReg) (x : Vec) : (r.setV i x).t = r.t := rfl
@[simp] theorem setV_fpc (r : Regs) (i : VReg) (x : Vec) : (r.setV i x).fpc = r.fpc := rfl
@[simp] theorem setP_g (r : Regs) (i : PReg) (x : Word) : (r.setP i x).g = r.g := by unfold Regs.setP; split <;> rfl
@[simp] theorem setP_v (r : Regs) (i : PReg) (x : Word) : (r.setP i x).v = r.v := by unfold Regs.setP; split <;> rfl
@[simp] theorem setP_nf (r : Regs) (i : PReg) (x : Word) : (r.setP i x).nf = r.nf := by unfold Regs.setP; split <;> rfl
@[simp] theorem setP_t (r : Regs) (i : PReg) (x : Word) : (r.setP i x).t = r.t := by unfold Regs.setP; split <;> rfl
@[simp] theorem setP_fpc (r : Regs) (i : PReg) (x : Word) : (r.setP i x).fpc = r.fpc := by unfold Regs.setP; split <;> rfl
@[simp] theorem setP_zero (r : Regs) (x : Word) : r.setP 0 x = r := rfl

end Sys2Proof.Machine
end

