-- ==== Sys2Proof/Laws/Parts.lean ====
section
/-!
SUPPORT. The parts of the state: what is read back after a write of a core, hub, package or slot, and that a later write of the same part replaces
an earlier one.
-/
namespace Sys2Proof.Machine

/-! ## Association lists -/

section
variable {κ α : Type} [DecidableEq κ]

@[simp] theorem aGet_aPut_self (l : List (κ × α)) (k : κ) (v : α) : aGet (aPut l k v) k = some v := by
  induction l with
  | nil => simp [aPut, aGet]
  | cons x l ih => simp only [aPut]; split <;> simp_all [aGet]

theorem aGet_aPut_ne (l : List (κ × α)) {k j : κ} (v : α) (h : j ≠ k) : aGet (aPut l k v) j = aGet l j := by
  induction l with
  | nil => simp [aPut, aGet, Ne.symm h]
  | cons x l ih =>
    simp only [aPut]
    split
    · rename_i hx; simp [aGet, hx, Ne.symm h]
    · simp [aGet, ih]

@[simp] theorem aPut_aPut (l : List (κ × α)) (k : κ) (v w : α) : aPut (aPut l k v) k w = aPut l k w := by
  induction l with
  | nil => simp [aPut]
  | cons x l ih => simp only [aPut]; split <;> simp_all [aPut]

/-- Writing back what is there changes nothing. -/
theorem aPut_self (l : List (κ × α)) (k : κ) (v : α) (h : aGet l k = some v) : aPut l k v = l := by
  induction l with
  | nil => simp [aGet] at h
  | cons x l ih =>
    simp only [aGet] at h
    simp only [aPut]
    split at h
    · rename_i hx; cases h; simp [← hx]
    · simp_all

end

/-! ## Cores, hubs, packages -/

@[simp] theorem getCore_setCore (s : State) (c : CoreId) (k : Core) : getCore (setCore s c k) c = k := by simp [getCore, setCore]
theorem getCore_setCore_ne (s : State) {c d : CoreId} (k : Core) (h : d ≠ c) : getCore (setCore s c k) d = getCore s d := by
  simp [getCore, setCore, aGet_aPut_ne _ _ h]
@[simp] theorem setCore_setCore (s : State) (c : CoreId) (k j : Core) : setCore (setCore s c k) c j = setCore s c j := by simp [setCore]
@[simp] theorem getHub_setCore (s : State) (c : CoreId) (k : Core) (p h : Nat) : getHub (setCore s c k) p h = getHub s p h := rfl
@[simp] theorem getPkg_setCore (s : State) (c : CoreId) (k : Core) (p : Nat) : getPkg (setCore s c k) p = getPkg s p := rfl
@[simp] theorem getHub_setHub (s : State) (p k : Nat) (h : Hub) : getHub (setHub s p k h) p k = h := by simp [getHub, setHub]
theorem getHub_setHub_ne (s : State) {p k q j : Nat} (h : Hub) (hne : (q, j) ≠ (p, k)) : getHub (setHub s p k h) q j = getHub s q j := by
  simp [getHub, setHub, aGet_aPut_ne _ _ hne]
@[simp] theorem getCore_setHub (s : State) (c : CoreId) (p k : Nat) (h : Hub) : getCore (setHub s p k h) c = getCore s c := rfl
@[simp] theorem getPkg_setHub (s : State) (p k q : Nat) (h : Hub) : getPkg (setHub s p k h) q = getPkg s q := rfl
@[simp] theorem getPkg_setPkg (s : State) (p : Nat) (k : Pkg) : getPkg (setPkg s p k) p = k := by simp [getPkg, setPkg]
theorem getPkg_setPkg_ne (s : State) {p q : Nat} (k : Pkg) (h : q ≠ p) : getPkg (setPkg s p k) q = getPkg s q := by
  simp [getPkg, setPkg, aGet_aPut_ne _ _ h]
@[simp] theorem getCore_setPkg (s : State) (c : CoreId) (p : Nat) (k : Pkg) : getCore (setPkg s p k) c = getCore s c := rfl
@[simp] theorem getHub_setPkg (s : State) (p q j : Nat) (k : Pkg) : getHub (setPkg s p k) q j = getHub s q j := rfl

/-! ## Slots -/

/-- A slot that holds a thread is one of the sixteen. -/
theorem getT_lt {s : State} {c : CoreId} {slot : Nat} {t : Thread} (h : getT s c slot = some t) : slot < 16 := by
  simp only [getT] at h
  refine Decidable.byContradiction (fun hn => ?_)
  simp [show ¬ slot < 16 from hn] at h

@[simp] theorem getT_setT (s : State) (c : CoreId) {slot : Nat} (t : Option Thread) (h : slot < 16) : getT (setT s c slot t) c slot = t := by
  simp [getT, setT, setSlot, h]

theorem getT_setT_ne (s : State) {c d : CoreId} {slot j : Nat} (t : Option Thread) (h : d ≠ c ∨ j ≠ slot) :
    getT (setT s c slot t) d j = getT s d j := by
  unfold getT setT
  by_cases hd : d = c
  · subst hd
    have hj : j ≠ slot := by simpa using h
    simp [setSlot, Ne.symm hj]
  · rw [getCore_setCore_ne _ _ hd]

@[simp] theorem setT_setT (s : State) (c : CoreId) (slot : Nat) (t u : Option Thread) : setT (setT s c slot t) c slot u = setT s c slot u := by
  simp [setT, setSlot]

/-- A thread changed where it stands. -/
theorem modT_some {s : State} {c : CoreId} {slot : Nat} {t : Thread} (f : Thread → Thread) (h : getT s c slot = some t) :
    modT s c slot f = setT s c slot (some (f t)) := by simp [modT, h]

theorem modT_none {s : State} {c : CoreId} {slot : Nat} (f : Thread → Thread) (h : getT s c slot = none) : modT s c slot f = s := by
  simp [modT, h]

/-! ## Registers (R153) -/

@[simp] theorem readG_zero (tick : Nat) (t : Thread) : readG tick t 0 = 0 := by simp [readG]
@[simp] theorem readP_zero (t : Thread) : readP t 0 = 0xFFFFFFFF#32 := by simp [readP]

/-- g0 discards writes. -/
theorem writeG_zero (t : Thread) (x : Dword) : (writeG t 0 x).regs = t.regs := by simp [writeG]

theorem setG_self (r : Regs) (i : GReg) (x : Dword) (h : i ≠ 0) : (r.setG i x).g[i] = x := by simp [Regs.setG, h]
theorem setG_ne (r : Regs) {i j : GReg} (x : Dword) (h : j ≠ i) : (r.setG i x).g[j] = r.g[j] := by
  unfold Regs.setG
  split
  · rfl
  · simp only [Fin.getElem_fin]
    rw [Vector.getElem_set_ne]
    simpa [Fin.ext_iff] using Ne.symm h

end Sys2Proof.Machine
end

