-- ==== Sys2Proof/Laws/Issue.lean ====
section
/-!
SUPPORT. What the frame of an issued instruction can do: one lemma for the body that runs, and one for each way in which an instruction ends.
-/
namespace Sys2Proof.Machine

/-- What stops every instruction is absent: the conditions of `Ready` for a frame of a prefix and its uses. -/
structure FrameReady (s : State) (t : Thread) (pre : Pre) (u : Uses) : Prop where
  hand : getT s s.cur.core s.cur.slot = some t
  level : ((!u.priv || isFp s.cur.core) && (!u.noFp || !isFp s.cur.core)) = true
  regs : beyond t.allot u = false
  runs : isOff t pre u = false
  ill : u.ill = false
  ports : portCheck s s.cur.core s.cur.slot t u = none
  accs : u.eff = true → t.acc = []
  room : u.lat = 0 ∨ t.out.length + u.lat ≤ 32
  unit : u.unit.any (fun x => unitBusy s s.cur.core x || lineTaken (getCore s s.cur.core) s.cur.slot t (.unit x)) = false

/-- The context that a frame gives its body. -/
def frameCtx (s : State) (t : Thread) (u : Uses) : Ctx :=
  { c := s.cur.core, slot := s.cur.slot, t := t, x := readAll s.tick t u.rg (getCore s s.cur.core).nq, next := t.pc + 2 * s.cur.words.length }

/-- The state that a frame gives its body. -/
def frameState (s : State) (u : Uses) : State := if u.eff && !u.loose then drainThread s s.cur.core s.cur.slot else s

/-- The level check as the frame makes it. -/
theorem level_split {a b c : Bool} (h : ((!a || c) && (!b || !c)) = true) : ¬ (a && !c) = true ∧ ¬ (b && c) = true := by
  cases a <;> cases b <;> cases c <;> simp_all

/-- THE FRAME, where nothing stops the instruction: its body's end put into effect. -/
theorem issue_ready {s : State} {t : Thread} {pre : Pre} {u : Uses} (body : State → Ctx → Res) (h : FrameReady s t pre u) :
    issue s pre u body = .next (finish s.cur.core s.cur.slot t pre (t.pc + 2 * s.cur.words.length) u (body (frameState s u) (frameCtx s t u))) := by
  obtain ⟨hand, level, regs, runs, ill, ports, accs, room, unit⟩ := h
  have ⟨hl, hf⟩ := level_split level
  have he : ¬ (u.eff = true ∧ t.acc ≠ []) := fun ⟨a, b⟩ => b (accs a)
  have hr : ¬ (0 < u.lat ∧ 32 < t.out.length + u.lat) := by omega
  simp only [issue, hand, issueRes, hl, hf, regs, runs, ill, ports, he, hr, unit, effective, frameCtx, frameState]
  simp

/-- An instruction predicated off only moves its thread on (R145). -/
theorem issue_off {s : State} {t : Thread} {pre : Pre} {u : Uses} (body : State → Ctx → Res)
    (hand : getT s s.cur.core s.cur.slot = some t)
    (level : ((!u.priv || isFp s.cur.core) && (!u.noFp || !isFp s.cur.core)) = true) (regs : beyond t.allot u = false)
    (off : isOff t pre u = true) :
    issue s pre u body = .next (setT s s.cur.core s.cur.slot (some { t.advance (t.pc + 2 * s.cur.words.length) pre.sw with seg := t.seg })) := by
  have ⟨hl, hf⟩ := level_split level
  simp only [issue, hand, issueRes, hl, hf, regs, off, effective, finish]
  simp [commitPorts, portReads, portWrites, modT_some _ hand]

/-- A register beyond the allotment traps, whatever the predicate (R35). -/
theorem issue_beyond {s : State} {t : Thread} {pre : Pre} {u : Uses} (body : State → Ctx → Res)
    (hand : getT s s.cur.core s.cur.slot = some t)
    (level : ((!u.priv || isFp s.cur.core) && (!u.noFp || !isFp s.cur.core)) = true) (regs : beyond t.allot u = true) :
    issue s pre u body = .next (trapped s t clsIllegal 2 0 (baseAux s)) := by
  have ⟨hl, hf⟩ := level_split level
  simp only [issue, hand, issueRes, hl, hf, regs, Res.illegal, finish]
  simp [trapped, trapOf]

/-- An instruction without ports has no port effects. -/
theorem commitPorts_none {u : Uses} {net : Bool} (s : State) (c : CoreId) (slot seq : Nat) (hr : portReads net u = []) (hw : portWrites net u = []) :
    commitPorts s c slot seq u net = s := by simp [commitPorts, hr, hw]

/-- A kernel without ports has none. -/
theorem portDir_net_false (r : GReg) : portDir false r = none := by simp [portDir]

theorem portReads_net_false (u : Uses) : portReads false u = [] := by
  simp [portReads, portDir]

theorem portWrites_net_false (u : Uses) : portWrites false u = [] := by
  simp [portWrites, portDir]

/-- Without ports nothing of them stops an instruction. -/
theorem portCheck_none {s : State} {c : CoreId} {slot : Nat} {t : Thread} {u : Uses} (hr : portReads t.net u = []) (hw : portWrites t.net u = [])
    (hl : u.lg.any (fun r => (portDir t.net r).isSome) = false) : portCheck s c slot t u = none := by
  simp [portCheck, hr, hw, hl]

/-- Without ports the values read are those of the registers. -/
theorem readAll_none (tick : Nat) (t : Thread) (l : List (GReg × Bool)) (q : Vector (List Word) 4)
    (h : l.filterMap (fun r => (portDir t.net r.1).map (fun d => (d, portWords r.2))) = []) :
    readAll tick t l q = l.map (fun r => readG tick t r.1) := by
  induction l generalizing q with
  | nil => rfl
  | cons x l ih =>
    obtain ⟨r, nar⟩ := x
    simp only [List.filterMap_cons] at h
    cases hp : portDir t.net r with
    | none => simp [hp] at h; simp [readAll, hp]; exact ih q (by simpa using h)
    | some d => simp [hp] at h

/-- What an instruction that only changes its thread leaves, where it names no port. -/
theorem retired_noPorts {s : State} {t : Thread} {i : Instr} (f : Thread → Thread) (hand : inHand s t) (hp : noPorts t i) (he : (usesOf i).eff = false) :
    retired s t i f = setT s s.cur.core s.cur.slot (some (past s t (markerOf t i) f)) := by
  have hlt := getT_lt hand
  simp only [retired, ended, settled, he, past]
  rw [if_neg (by simp), modT_some f hand]
  rw [commitPorts_none _ _ _ _ hp.1 hp.2.1, modT_some (t := f t) _ (by simp [hlt])]
  simp

/-- The frame of an instruction that ends normally, in the words of the statements. -/
theorem issue_ok {s : State} {t : Thread} {pre : Pre} {u : Uses} {body : State → Ctx → Res} {s2 : State} (h : FrameReady s t pre u)
    (hb : body (frameState s u) (frameCtx s t u) = .ok s2) :
    issue s pre u body = .next (modT (commitPorts s2 s.cur.core s.cur.slot t.seq u t.net) s.cur.core s.cur.slot
      (fun x => { x.advance (t.pc + 2 * s.cur.words.length) pre.sw with seg := t.seg })) := by
  rw [issue_ready body h, hb]; rfl

end Sys2Proof.Machine
end

