-- ==== Sys2Proof/Laws/Frame.lean ====
section
/-!
SUPPORT. Every issued instruction runs in the one frame of Laws/Issue.lean, with the prefix and the uses of Safety.lean.
-/
namespace Sys2Proof.Machine

/-- The instruction runs in the frame. -/
def Framed (i : Instr) (s : State) : Prop := ∃ sw body, exec i s = issue s { preOf i with sw := sw } (usesOf i) body

/-- Its row is one of a range of the table. -/
def rowIn (lo hi : Nat) (i : Instr) : Bool := decide (lo ≤ i.ctorIdx) && decide (i.ctorIdx < hi)

/-! ## The rows whose fields may trap by themselves -/

theorem framed_srr (o : SrOps) (s : State) (hf : fieldsOk s (.srr o) = true) : Framed (.srr o) s := by
  have hc : srFault s.cur.core o.num false = none := by simpa [fieldsOk] using hf
  refine ⟨o.pre.sw, ?_⟩
  simp only [exec, execSrr, hc]; exact ⟨_, rfl⟩
theorem framed_srw (o : SrOps) (s : State) (hf : fieldsOk s (.srw o) = true) : Framed (.srw o) s := by
  have hc : srFault s.cur.core o.num true = none := by simpa [fieldsOk] using hf
  refine ⟨o.pre.sw, ?_⟩
  simp only [exec, execSrw, hc]; exact ⟨_, rfl⟩
theorem framed_ibx (o : RdOps) (s : State) (hf : fieldsOk s (.ibx o) = true) : Framed (.ibx o) s := by
  have hc : ¬ (o.rd = 0 ∨ o.rd.val % 4 ≠ 0) := by simpa [fieldsOk] using hf
  refine ⟨o.pre.sw, ?_⟩
  simp only [exec, execIbx, inboxIssue, hc]; exact ⟨_, rfl⟩
theorem framed_ibxT (o : RdOps) (s : State) (hf : fieldsOk s (.ibxT o) = true) : Framed (.ibxT o) s := by
  have hc : ¬ (o.rd = 0 ∨ o.rd.val % 4 ≠ 0) := by simpa [fieldsOk] using hf
  refine ⟨o.pre.sw, ?_⟩
  simp only [exec, execIbxT, inboxIssue, hc]; exact ⟨_, rfl⟩
theorem framed_blkq (o : RdOps) (s : State) (hf : fieldsOk s (.blkq o) = true) : Framed (.blkq o) s := by
  have hc : ¬ (o.rd = 0 ∨ o.rd.val % 4 ≠ 0) := by simpa [fieldsOk] using hf
  refine ⟨o.pre.sw, ?_⟩
  simp only [exec, execBlkq, hc]; exact ⟨_, rfl⟩
theorem framed_copy (o : CopyOps) (s : State) (hf : fieldsOk s (.copy o) = true) : Framed (.copy o) s := by
  obtain ⟨hb, hn⟩ : (o.b ≠ 0 ∧ o.b.val % 4 = 0) ∧ (netHere s && decide (60 ≤ o.b.val)) = false := by
    simpa only [fieldsOk, Bool.and_eq_true, decide_eq_true_eq, Bool.not_eq_true'] using hf
  have hc : ¬ (o.b = 0 ∨ o.b.val % 4 ≠ 0) := by simp [hb.1, hb.2]
  refine ⟨o.pre.sw, ?_⟩
  simp only [exec, execCopy, hc, hn]; exact ⟨_, rfl⟩
theorem framed_lds (o : ShardOps) (s : State) (hf : fieldsOk s (.lds o) = true) : Framed (.lds o) s := by
  have hc : ¬ (o.c.val % 2 = 1) := by simp only [fieldsOk, decide_eq_true_eq] at hf; omega
  refine ⟨o.pre.sw, ?_⟩
  simp only [exec, execLds, shardIssue, hc]; exact ⟨_, rfl⟩
theorem framed_ldso (o : ShardOps) (s : State) (hf : fieldsOk s (.ldso o) = true) : Framed (.ldso o) s := by
  have hc : ¬ (o.c.val % 2 = 1) := by simp only [fieldsOk, decide_eq_true_eq] at hf; omega
  refine ⟨o.pre.sw, ?_⟩
  simp only [exec, execLdso, shardIssue, hc]; exact ⟨_, rfl⟩
theorem framed_sts (o : ShardOps) (s : State) (hf : fieldsOk s (.sts o) = true) : Framed (.sts o) s := by
  have hc : ¬ (o.c.val % 2 = 1) := by simp only [fieldsOk, decide_eq_true_eq] at hf; omega
  refine ⟨o.pre.sw, ?_⟩
  simp only [exec, execSts, shardIssue, hc]; exact ⟨_, rfl⟩
theorem framed_stso (o : ShardOps) (s : State) (hf : fieldsOk s (.stso o) = true) : Framed (.stso o) s := by
  have hc : ¬ (o.c.val % 2 = 1) := by simp only [fieldsOk, decide_eq_true_eq] at hf; omega
  refine ⟨o.pre.sw, ?_⟩
  simp only [exec, execStso, shardIssue, hc]; exact ⟨_, rfl⟩
theorem framed_stp (o : StpOps) (s : State) : Framed (.stp o) s := by
  obtain ⟨pre, os, wt, fill, data, base, flag⟩ := o
  refine ⟨pre.sw, ?_⟩
  cases data <;> exact ⟨_, rfl⟩

/-! ## All rows -/

theorem framed_rows_0 (i : Instr) (s : State) (h : rowIn 0 44 i = true) (hf : fieldsOk s i = true) : Framed i s := by
  cases i
  all_goals first
    | exact Bool.noConfusion (show true = false from h.symm)
    | exact ⟨_, _, rfl⟩

theorem framed_rows_44 (i : Instr) (s : State) (h : rowIn 44 88 i = true) (hf : fieldsOk s i = true) : Framed i s := by
  cases i
  all_goals first
    | exact Bool.noConfusion (show true = false from h.symm)
    | exact ⟨_, _, rfl⟩

theorem framed_rows_88 (i : Instr) (s : State) (h : rowIn 88 132 i = true) (hf : fieldsOk s i = true) : Framed i s := by
  cases i
  case srr o => exact framed_srr o s hf
  case srw o => exact framed_srw o s hf
  all_goals first
    | exact Bool.noConfusion (show true = false from h.symm)
    | exact ⟨_, _, rfl⟩

theorem framed_rows_132 (i : Instr) (s : State) (h : rowIn 132 176 i = true) (hf : fieldsOk s i = true) : Framed i s := by
  cases i
  case stp o => exact framed_stp o s
  all_goals first
    | exact Bool.noConfusion (show true = false from h.symm)
    | exact ⟨_, _, rfl⟩

theorem framed_rows_176 (i : Instr) (s : State) (h : rowIn 176 220 i = true) (hf : fieldsOk s i = true) : Framed i s := by
  cases i
  case ibx o => exact framed_ibx o s hf
  case ibxT o => exact framed_ibxT o s hf
  all_goals first
    | exact Bool.noConfusion (show true = false from h.symm)
    | exact ⟨_, _, rfl⟩

theorem framed_rows_220 (i : Instr) (s : State) (h : rowIn 220 264 i = true) (hf : fieldsOk s i = true) : Framed i s := by
  cases i
  all_goals first
    | exact Bool.noConfusion (show true = false from h.symm)
    | exact ⟨_, _, rfl⟩

theorem framed_rows_264 (i : Instr) (s : State) (h : rowIn 264 308 i = true) (hf : fieldsOk s i = true) : Framed i s := by
  cases i
  case copy o => exact framed_copy o s hf
  case lds o => exact framed_lds o s hf
  case ldso o => exact framed_ldso o s hf
  case sts o => exact framed_sts o s hf
  case stso o => exact framed_stso o s hf
  case blkq o => exact framed_blkq o s hf
  all_goals first
    | exact Bool.noConfusion (show true = false from h.symm)
    | exact ⟨_, _, rfl⟩

/-- THE FRAME OF EVERY ISSUED INSTRUCTION whose fields alone raise no trap. -/
theorem exec_frame (i : Instr) (s : State) (h : isIssued i = true) (hf : fieldsOk s i = true) :
    ∃ sw body, exec i s = issue s { preOf i with sw := sw } (usesOf i) body := by
  simp only [isIssued, decide_eq_true_eq] at h
  by_cases h0 : i.ctorIdx < 44
  · exact framed_rows_0 i s (by simp [rowIn]; omega) hf
  by_cases h1 : i.ctorIdx < 88
  · exact framed_rows_44 i s (by simp [rowIn]; omega) hf
  by_cases h2 : i.ctorIdx < 132
  · exact framed_rows_88 i s (by simp [rowIn]; omega) hf
  by_cases h3 : i.ctorIdx < 176
  · exact framed_rows_132 i s (by simp [rowIn]; omega) hf
  by_cases h4 : i.ctorIdx < 220
  · exact framed_rows_176 i s (by simp [rowIn]; omega) hf
  by_cases h5 : i.ctorIdx < 264
  · exact framed_rows_220 i s (by simp [rowIn]; omega) hf
  exact framed_rows_264 i s (by simp [rowIn]; omega) hf

/-- No instruction whose fields are in order is refused by its operand field alone (R320). -/
theorem usesOf_ill (i : Instr) : (usesOf i).ill = false := by
  cases i
  case stp o => obtain ⟨pre, os, wt, fill, data, base, flag⟩ := o; cases data <;> rfl
  all_goals rfl

/-- A ready instruction's frame is ready. -/
theorem Ready.frame {s : State} {t : Thread} {i : Instr} (h : Ready s t i) (sw : Bool) :
    FrameReady s t { preOf i with sw := sw } (usesOf i) := by
  refine ⟨h.hand, h.level, ?_, ?_, usesOf_ill i, h.ports, h.room.1, h.room.2, h.unit⟩
  · simpa [allotted] using h.regs
  · have := h.runs; simp only [running, Bool.not_eq_true'] at this; exact this

/-- Whether a thread is changed where it stands. -/
theorem upd_eq {s : State} {t : Thread} (k : Ctx) (f : Thread → Thread) (h : getT s k.c k.slot = some t) : k.upd s f = setT s k.c k.slot (some (f t)) :=
  modT_some f h

/-- WHAT A READY INSTRUCTION DOES, from what its body does. -/
theorem exec_ended {i : Instr} {s : State} {t : Thread} (h : Ready s t i) {pre : Pre} {body : State → Ctx → Res} (s2 : State)
    (hx : exec i s = issue s pre (usesOf i) body) (hn : pre.neg = (preOf i).neg) (hp : pre.pn = (preOf i).pn) (hs : pre.sw = markerOf t i)
    (hb : body (settled s i) (ctxOf s t i) = .ok s2) : exec i s = .next (ended s t i s2) := by
  have hf := h.frame pre.sw
  have he : { preOf i with sw := pre.sw } = pre := by cases pre; simp_all
  rw [he] at hf
  rw [hx, issue_ok (s2 := s2) hf hb, hs]; rfl

/-- What a ready instruction does that only changes its thread. -/
theorem exec_retired {i : Instr} {s : State} {t : Thread} (h : Ready s t i) {pre : Pre} {body : State → Ctx → Res} (f : Thread → Thread)
    (hx : exec i s = issue s pre (usesOf i) body) (hn : pre.neg = (preOf i).neg) (hp : pre.pn = (preOf i).pn) (hs : pre.sw = markerOf t i)
    (hb : body (settled s i) (ctxOf s t i) = .ok (modT (settled s i) s.cur.core s.cur.slot f)) : exec i s = .next (retired s t i f) :=
  exec_ended h _ hx hn hp hs hb

/-- The end of a ready instruction, whatever its body answers. -/
theorem exec_finish {i : Instr} {s : State} {t : Thread} (h : Ready s t i) {pre : Pre} {body : State → Ctx → Res}
    (hx : exec i s = issue s pre (usesOf i) body) (hn : pre.neg = (preOf i).neg) (hp : pre.pn = (preOf i).pn) :
    exec i s = .next (finish s.cur.core s.cur.slot t pre (nextPc s t) (usesOf i) (body (settled s i) (ctxOf s t i))) := by
  have hf := h.frame pre.sw
  have he : { preOf i with sw := pre.sw } = pre := by cases pre; simp_all
  rw [he] at hf
  rw [hx, issue_ready body hf]
  rfl

/-- A ready instruction that transfers control. -/
theorem exec_jumped {i : Instr} {s : State} {t : Thread} (h : Ready s t i) {pre : Pre} {body : State → Ctx → Res} (f : Thread → Thread) (pc seg : Nat)
    (hx : exec i s = issue s pre (usesOf i) body) (hn : pre.neg = (preOf i).neg) (hp : pre.pn = (preOf i).pn) (hs : pre.sw = markerOf t i)
    (hb : body (settled s i) (ctxOf s t i) = .jump (modT (settled s i) s.cur.core s.cur.slot f) pc seg) :
    exec i s = .next (jumped s t i f pc seg) := by
  rw [exec_finish h hx hn hp, hb]
  simp only [finish, hs]
  rfl

/-- A ready instruction that traps on a state with the same instruction in hand. -/
theorem exec_trap {i : Instr} {s : State} {t : Thread} (h : Ready s t i) {pre : Pre} {body : State → Ctx → Res} (z : State) (cls cause : Nat) (a x : Dword)
    (hx : exec i s = issue s pre (usesOf i) body) (hn : pre.neg = (preOf i).neg) (hp : pre.pn = (preOf i).pn)
    (hb : body (settled s i) (ctxOf s t i) = .trap z cls cause a x) (hc : z.cur = s.cur) :
    exec i s = .next (takeTrap z s.cur.core s.cur.slot (trapOf s t cls cause a x)) := by
  rw [exec_finish h hx hn hp, hb]
  simp only [finish, hc]
  rfl

/-- A ready instruction that waits. -/
theorem exec_held {i : Instr} {s : State} {t : Thread} (h : Ready s t i) {pre : Pre} {body : State → Ctx → Res} (z : State) (w : HeldOn)
    (hx : exec i s = issue s pre (usesOf i) body) (hn : pre.neg = (preOf i).neg) (hp : pre.pn = (preOf i).pn)
    (hb : body (settled s i) (ctxOf s t i) = .hold z w) :
    exec i s = .next (heldIn s t i z w) := by
  rw [exec_finish h hx hn hp, hb]
  rfl

/-- A ready instruction that parks. -/
theorem exec_parks {i : Instr} {s : State} {t : Thread} (h : Ready s t i) {pre : Pre} {body : State → Ctx → Res} (z : State) (w : ParkOn)
    (hx : exec i s = issue s pre (usesOf i) body) (hn : pre.neg = (preOf i).neg) (hp : pre.pn = (preOf i).pn) (hs : pre.sw = markerOf t i)
    (hm : mayPark t i) (hb : body (settled s i) (ctxOf s t i) = .park z w) : exec i s = .next (parks s t i z w) := by
  rw [exec_finish h hx hn hp, hb]
  have : ¬ (pre.sw = true ∧ (t.out ≠ [] ∨ t.acc ≠ [])) := by
    rcases hm with hm | ⟨h1, h2⟩
    · simp [hs, hm]
    · simp [h1, h2]
  simp only [finish, if_neg this]
  rfl

/-- A ready instruction whose thread leaves its slot. -/
theorem exec_gone {i : Instr} {s : State} {t : Thread} (h : Ready s t i) {pre : Pre} {body : State → Ctx → Res} (z : State)
    (hx : exec i s = issue s pre (usesOf i) body) (hn : pre.neg = (preOf i).neg) (hp : pre.pn = (preOf i).pn)
    (hb : body (settled s i) (ctxOf s t i) = .gone z) : exec i s = .next z := by
  rw [exec_finish h hx hn hp, hb]; rfl

/-- What an issued instruction does, once its fields, level, registers and predicate let it run: ports, waits, then its own effect. -/
theorem exec_running {i : Instr} {s : State} {t : Thread} (hi : isIssued i = true) (hh : inHand s t) (hf : fieldsOk s i = true)
    (hl : levelOk s i = true) (ha : allotted t i = true) (hr : running t i = true) : ∃ sw, ∃ body : State → Ctx → Res,
    exec i s = .next (finish s.cur.core s.cur.slot t { preOf i with sw := sw } (nextPc s t) (usesOf i)
      (match portCheck s s.cur.core s.cur.slot t (usesOf i) with
        | some r => r
        | none => if (usesOf i).eff ∧ t.acc ≠ [] then .hold s .accs
          else if 0 < (usesOf i).lat ∧ 32 < t.out.length + (usesOf i).lat then .hold s .full
          else if unitTaken s t i then .hold s (.unit ((usesOf i).unit.getD .divide))
          else body (settled s i) (ctxOf s t i))) := by
  obtain ⟨sw, body, hx⟩ := exec_frame i s hi hf
  refine ⟨sw, body, ?_⟩
  rw [hx]
  unfold inHand at hh
  have hr' : isOff t { preOf i with sw := sw } (usesOf i) = false := by
    simp only [running, Bool.not_eq_true'] at hr; exact hr
  have ⟨h1, h2⟩ := level_split hl
  have ha' : beyond t.allot (usesOf i) = false := by simpa [allotted] using ha
  simp only [issue, hh, issueRes, hr', effective, h1, h2, ha', usesOf_ill]
  rfl

/-- No flag set leaves sr.fpc as it is (R125). -/
@[simp] theorem addFlags_none (t : Thread) : addFlags t {} = t := by
  simp [addFlags, setFlags, Flags.bits]

end Sys2Proof.Machine
end

