-- ==== Sys2Proof/Laws/Lanes.lean ====
section
/-!
SUPPORT. Elements of vector registers: what packing gives back, what `vMap` and `vcmp` give element by element, and which flags they raise.
-/
namespace Sys2Proof.Machine

theorem packNat_lt (w : Nat) (l : List Nat) : packNat w l < 2 ^ (w * l.length) := by
  induction l with
  | nil => simp [packNat]
  | cons x l ih =>
    simp only [packNat, List.length_cons, Nat.mul_succ, Nat.pow_add]
    have hx : x % 2 ^ w < 2 ^ w := Nat.mod_lt _ (Nat.two_pow_pos w)
    calc x % 2 ^ w + 2 ^ w * packNat w l < 2 ^ w + 2 ^ w * packNat w l := by omega
      _ = 2 ^ w * (packNat w l + 1) := by ring
      _ ≤ 2 ^ w * 2 ^ (w * l.length) := Nat.mul_le_mul_left _ ih
      _ = 2 ^ (w * l.length) * 2 ^ w := by ring

/-- A digit of a packed list. -/
theorem packNat_digit (w : Nat) (l : List Nat) (i : Nat) (h : i < l.length) : packNat w l / 2 ^ (w * i) % 2 ^ w = l[i] % 2 ^ w := by
  induction l generalizing i with
  | nil => simp at h
  | cons x l ih =>
    cases i with
    | zero => simp [packNat]
    | succ i =>
      have hi : i < l.length := by simpa using h
      simp only [packNat, List.getElem_cons_succ]
      rw [← ih i hi, Nat.mul_succ, Nat.add_comm (w * i) w, Nat.pow_add, ← Nat.div_div_eq_div_mul,
        Nat.add_mul_div_left _ _ (Nat.two_pow_pos w), Nat.div_eq_of_lt (Nat.mod_lt x (Nat.two_pow_pos w)), Nat.zero_add]

/-- An element of a register made of elements. -/
theorem elem_ofElems (w : Nat) (l : List Nat) (i : Nat) (h : i < l.length) (hl : w * l.length ≤ 1024) : elem w (ofElems w l) i = l[i] % 2 ^ w := by
  have hp : packNat w l < 2 ^ 1024 := lt_of_lt_of_le (packNat_lt w l) (Nat.pow_le_pow_right (by decide) hl)
  simp only [elem, ofElems, BitVec.toNat_ofNat, Nat.mod_eq_of_lt hp]
  exact packNat_digit w l i h

theorem elem_lt (w : Nat) (v : Vec) (i : Nat) : elem w v i < 2 ^ w := Nat.mod_lt _ (Nat.two_pow_pos w)

@[simp] theorem elem_mod (w : Nat) (v : Vec) (i : Nat) : elem w v i % 2 ^ w = elem w v i := Nat.mod_eq_of_lt (elem_lt w v i)

/-- Elements fit in a register. -/
theorem elems_fit (w : Nat) : w * (1024 / w) ≤ 1024 := Nat.mul_div_le 1024 w

/-! ## Flags -/

theorem foldl_or (p : Flags → Bool) (hp : ∀ a b, p (a.or b) = (p a || p b)) (l : List (Nat × Flags)) (f : Flags) :
    p (l.foldl (fun a r => a.or r.2) f) = (p f || l.any (fun r => p r.2)) := by
  induction l generalizing f with
  | nil => simp
  | cons x l ih => simp [ih, hp, Bool.or_assoc]

/-- A flag of a list of results. -/
theorem flagsOf_any (p : Flags → Bool) (hp : ∀ a b, p (a.or b) = (p a || p b)) (h0 : p {} = false) (l : List (Nat × Flags)) :
    p (flagsOf l) = l.any (fun r => p r.2) := by
  rw [flagsOf, foldl_or p hp, h0, Bool.false_or]

theorem flagsOf_range (p : Flags → Bool) (hp : ∀ a b, p (a.or b) = (p a || p b)) (h0 : p {} = false) (n : Nat) (on : Nat → Bool)
    (f : Nat → Nat × Flags) (g : Nat → Nat) :
    p (flagsOf ((List.range n).map (fun i => if on i then f i else (g i, {})))) = true ↔ ∃ e < n, on e = true ∧ p (f e).2 = true := by
  rw [flagsOf_any p hp h0]
  simp only [List.any_map, List.any_eq_true, List.mem_range, Function.comp]
  constructor
  · rintro ⟨e, he, h⟩
    by_cases ho : on e = true
    · exact ⟨e, he, ho, by simpa [ho] using h⟩
    · simp [ho, h0] at h
  · rintro ⟨e, he, ho, h⟩
    exact ⟨e, he, by simp [ho, h]⟩

/-! ## Results element by element (R265) -/

/-- What `vMap` leaves in an element. -/
theorem elem_vMap (w : Nat) (on : Nat → Bool) (old : Vec) (f : Nat → Nat × Flags) (e : Nat) (he : e < 1024 / w) :
    elem w (vMap w on old f).1 e = if on e then (f e).1 % 2 ^ w else elem w old e := by
  simp only [vMap]
  rw [elem_ofElems _ _ _ (by simpa using he) (by simpa using elems_fit w)]
  simp only [List.map_map, List.getElem_map, List.getElem_range, Function.comp]
  split <;> simp

theorem elem_vMap0 (w : Nat) (on : Nat → Bool) (old : Vec) (f : Nat → Nat) (e : Nat) (he : e < 1024 / w) :
    elem w (vMap0 w on old f) e = if on e then f e % 2 ^ w else elem w old e := elem_vMap w on old _ e he

/-- A bit of a packed word. -/
theorem bits_packed (l : List Nat) (h : l.length = 32) (i : Nat) (hi : i < 32) : (BitVec.ofNat 32 (packNat 1 l)).getLsbD i = decide (l[i] % 2 = 1) := by
  have hp : packNat 1 l < 2 ^ 32 := by have := packNat_lt 1 l; simpa [h] using this
  have hd := packNat_digit 1 l i (by omega)
  simp only [BitVec.getLsbD_ofNat, hi, decide_true, Bool.true_and, Nat.testBit, Nat.shiftRight_eq_div_pow, Nat.one_and_eq_mod_two]
  simp only [Nat.one_mul, Nat.pow_one] at hd
  rw [← hd]
  rcases Nat.mod_two_eq_zero_or_one (packNat 1 l / 2 ^ i) with h2 | h2 <;> simp [h2]

theorem bitOf_getLsbD (x : Word) (i : Nat) : bitOf x i = x.getLsbD i := by
  simp only [bitOf, BitVec.getLsbD, Nat.testBit, Nat.shiftRight_eq_div_pow, Nat.one_and_eq_mod_two]
  rcases Nat.mod_two_eq_zero_or_one (x.toNat / 2 ^ i) with h | h <;> simp [h]

end Sys2Proof.Machine
end

