-- ==== Sys2Proof/Laws/Memory.lean ====
section
/-!
SUPPORT. Memory: what a byte reads as after a write, and that every memory operation keeps the canonical form of Memory.wf.
-/
namespace Sys2Proof.Machine

/-! ## The canonical form -/

theorem memWfFrom_mono {lo lo' : Nat} {m : List Host.Cell} (hle : lo' ≤ lo) (h : memWfFrom lo m = true) : memWfFrom lo' m = true := by
  cases m with
  | nil => rfl
  | cons x m =>
    simp only [memWfFrom, Bool.and_eq_true, decide_eq_true_eq] at h ⊢
    exact ⟨⟨by omega, h.1.2⟩, h.2⟩

/-- Below every listed address nothing is listed. -/
theorem memGet_below {lo a : Nat} {m : List Host.Cell} (h : memWfFrom lo m = true) (ha : a < lo) : memGet m a = unlisted a := by
  cases m with
  | nil => rfl
  | cons x m =>
    simp only [memWfFrom, Bool.and_eq_true, decide_eq_true_eq] at h
    simp only [memGet]
    rw [if_neg (by omega), if_pos (by omega)]

theorem memPut_wfFrom {lo : Nat} {m : List Host.Cell} (a : Nat) (b : Byte) (h : memWfFrom lo m = true) (ha : lo ≤ a) :
    memWfFrom lo (memPut m a b) = true := by
  induction m generalizing lo with
  | nil =>
    simp only [memPut]
    split
    · rfl
    · rename_i hu; simp [memWfFrom, hu, ha]
  | cons x m ih =>
    obtain ⟨a', b'⟩ := x
    simp only [memWfFrom, Bool.and_eq_true, decide_eq_true_eq] at h
    obtain ⟨⟨h1, h2⟩, h3⟩ := h
    simp only [memPut]
    split
    · split
      · simp [memWfFrom, h1, h2, h3]
      · rename_i hlt hu
        simp [memWfFrom, hu, ha, h2, h3]; omega
    · split
      · rename_i hlt heq
        split
        · exact memWfFrom_mono (by omega) h3
        · rename_i hu; subst heq; simp [memWfFrom, hu, ha, h3]
      · simp only [memWfFrom, Bool.and_eq_true, decide_eq_true_eq]
        exact ⟨⟨h1, h2⟩, ih h3 (by omega)⟩

/-- A byte written keeps the canonical form. -/
theorem memPut_wf {m : List Host.Cell} (a : Nat) (b : Byte) (h : Memory.wf m = true) : Memory.wf (memPut m a b) = true :=
  memPut_wfFrom a b h (Nat.zero_le _)

theorem memPuts_wf {m : List Host.Cell} (a : Nat) (bs : List Byte) (h : Memory.wf m = true) : Memory.wf (memPuts m a bs) = true := by
  induction bs generalizing m a with
  | nil => exact h
  | cons b bs ih => exact ih _ (memPut_wf a b h)

theorem filter_wfFrom {lo : Nat} {m : List Host.Cell} (p : Host.Cell → Bool) (h : memWfFrom lo m = true) : memWfFrom lo (m.filter p) = true := by
  induction m generalizing lo with
  | nil => rfl
  | cons x m ih =>
    obtain ⟨a', b'⟩ := x
    simp only [memWfFrom, Bool.and_eq_true, decide_eq_true_eq] at h
    simp only [List.filter]
    split
    · simp [memWfFrom, h.1.1, h.1.2, ih h.2]
    · exact memWfFrom_mono (by omega) (ih h.2)

/-- Bytes forgotten keep it. -/
theorem memForget_wf {m : List Host.Cell} (lo hi : Nat) (h : Memory.wf m = true) : Memory.wf (memForget m lo hi) = true := filter_wfFrom _ h

/-- The memory of the reset state has it. -/
theorem reset_memory_wf : Memory.wf State.reset.mem = true := rfl

/-! ## Read after write -/

theorem memGet_memPut_self {lo : Nat} {m : List Host.Cell} (a : Nat) (b : Byte) (h : memWfFrom lo m = true) : memGet (memPut m a b) a = some b := by
  induction m generalizing lo with
  | nil => simp only [memPut]; split <;> simp_all [memGet]
  | cons x m ih =>
    obtain ⟨a', b'⟩ := x
    simp only [memWfFrom, Bool.and_eq_true, decide_eq_true_eq] at h
    simp only [memPut]
    split
    · rename_i hlt
      split
      · rename_i hu; simp only [memGet, if_neg (by omega : ¬ a' = a), if_pos hlt, hu]
      · simp [memGet]
    · split
      · rename_i hlt heq
        subst heq
        split
        · rename_i hu; rw [memGet_below h.2 (by omega), hu]
        · simp [memGet]
      · rename_i hlt hne; simp only [memGet, if_neg (by omega : ¬ a' = a), if_neg hlt, ih h.2]

theorem memGet_memPut_ne {lo : Nat} {m : List Host.Cell} {a c : Nat} (b : Byte) (h : memWfFrom lo m = true) (hc : c ≠ a) :
    memGet (memPut m a b) c = memGet m c := by
  induction m generalizing lo with
  | nil => simp only [memPut]; split <;> simp [memGet, Ne.symm hc]
  | cons x m ih =>
    obtain ⟨a', b'⟩ := x
    simp only [memWfFrom, Bool.and_eq_true, decide_eq_true_eq] at h
    simp only [memPut]
    split
    · split
      · rfl
      · rename_i hlt hu
        simp only [memGet, if_neg (Ne.symm hc)]
        split
        · rw [if_neg (by omega), if_pos (by omega)]
        · rfl
    · split
      · rename_i hlt heq
        subst heq
        split
        · simp only [memGet, if_neg (Ne.symm hc)]
          split
          · exact memGet_below h.2 (by omega)
          · rfl
        · simp [memGet, Ne.symm hc]
      · simp [memGet, ih h.2]

/-- The written byte reads back. -/
theorem memGet_memPut {m : List Host.Cell} (h : Memory.wf m = true) (a : Nat) (b : Byte) : memGet (memPut m a b) a = some b :=
  memGet_memPut_self a b h

/-- Every other byte is as before. -/
theorem memGet_memPut_other {m : List Host.Cell} (h : Memory.wf m = true) {a c : Nat} (b : Byte) (hc : c ≠ a) :
    memGet (memPut m a b) c = memGet m c := memGet_memPut_ne b h hc

/-! ## Bytes of the state -/

@[simp] theorem putByte_redirects (s : State) (g : Option Nat) (a : Nat) (b : Byte) : (putByte s g a b).redirects = s.redirects := rfl
@[simp] theorem putByte_cores (s : State) (g : Option Nat) (a : Nat) (b : Byte) : (putByte s g a b).cores = s.cores := rfl
@[simp] theorem putByte_pkgs (s : State) (g : Option Nat) (a : Nat) (b : Byte) : (putByte s g a b).pkgs = s.pkgs := rfl
@[simp] theorem putByte_hubs (s : State) (g : Option Nat) (a : Nat) (b : Byte) : (putByte s g a b).hubs = s.hubs := rfl

theorem putByte_wf {s : State} (g : Option Nat) (a : Nat) (b : Byte) (h : Memory.wf s.mem = true) : Memory.wf (putByte s g a b).mem = true :=
  memPut_wf _ b h

theorem putBytes_wf {s : State} (g : Option Nat) (a : Nat) (bs : List Byte) (h : Memory.wf s.mem = true) :
    Memory.wf (putBytes s g a bs).mem = true := by
  induction bs generalizing s a with
  | nil => exact h
  | cons b bs ih => exact ih _ (putByte_wf g a b h)

/-- Bytes written at their homes keep the canonical form. -/
theorem writeBytes_wf {s : State} (g : Option Nat) (a : Nat) (bs : List Byte) (h : Memory.wf s.mem = true) :
    Memory.wf (writeBytes s g a bs).mem = true := putBytes_wf g a bs h

theorem writeNat_wf {s : State} (g : Option Nat) (a n x : Nat) (h : Memory.wf s.mem = true) : Memory.wf (writeNat s g a n x).mem = true :=
  writeBytes_wf g a _ h

/-- A line's bit set keeps it too: the bit of an absent crew stands in its image. -/
theorem setLine_wf {s : State} (g : Option Nat) (a : Nat) (full : Bool) (h : Memory.wf s.mem = true) :
    Memory.wf (setLine s g a full).mem = true := by
  unfold setLine
  split
  · exact memPut_wf _ _ h
  · exact h

/-- Zeros over a range. -/
theorem zeroRange_wf {s : State} (a n : Nat) (h : Memory.wf s.mem = true) : Memory.wf (zeroRange s a n).mem = true := by
  unfold zeroRange
  split
  · exact memForget_wf _ _ h
  · suffices hf : ∀ (l : List Nat) (m : List Host.Cell), Memory.wf m = true → Memory.wf (l.foldl (fun l i => memPut l (a + i) 0) m) = true from
      hf _ _ (memForget_wf _ _ h)
    intro l
    induction l with
    | nil => intro m hm; exact hm
    | cons i l ih => intro m hm; exact ih _ (memPut_wf _ _ hm)

/-- A byte of no absent crew reads back as written. -/
theorem readByte_putByte {s : State} (g : Option Nat) (a : Nat) (b : Byte) (h : Memory.wf s.mem = true) :
    readByte (putByte s g a b) g a = b := by
  simp [readByte, putByte, homeOf, redirectAt, memGet_memPut h]

end Sys2Proof.Machine
end

