-- ==== Sys2Proof/Laws/PerInstr.lean ====
section
/-!
SUPPORT. Facts about instructions as syntax, one lemma for each constructor. `Words`: the rows that the decoder can give are those that a core issues.
-/
namespace Sys2Proof.Laws.Words

/-- Exactly the rows of the instruction set have words; a machine step has none. -/
def Statement (i : Instr) : Prop := i.hasWords = Machine.isIssued i

theorem add (o : AluOps) : Statement (.add o) := rfl
theorem sub (o : AluOps) : Statement (.sub o) := rfl
theorem and (o : AluOps) : Statement (.and o) := rfl
theorem or (o : AluOps) : Statement (.or o) := rfl
theorem xor (o : AluOps) : Statement (.xor o) := rfl
theorem shl (o : AluOps) : Statement (.shl o) := rfl
theorem shr (o : AluOps) : Statement (.shr o) := rfl
theorem sar (o : AluOps) : Statement (.sar o) := rfl
theorem mul (o : AluOps) : Statement (.mul o) := rfl
theorem mov (o : MovOps) : Statement (.mov o) := rfl
theorem ld (o : MemOps) : Statement (.ld o) := rfl
theorem st (o : MemOps) : Statement (.st o) := rfl
theorem vld (o : VMemOps) : Statement (.vld o) := rfl
theorem vst (o : VMemOps) : Statement (.vst o) := rfl
theorem br (o : BrOps) : Statement (.br o) := rfl
theorem call (o : CallOps) : Statement (.call o) := rfl
theorem jmp (o : JmpOps) : Statement (.jmp o) := rfl
theorem ceq (o : CmpOps) : Statement (.ceq o) := rfl
theorem clt (o : CmpOps) : Statement (.clt o) := rfl
theorem cltu (o : CmpOps) : Statement (.cltu o) := rfl
theorem fadd (o : FpOps) : Statement (.fadd o) := rfl
theorem fmul (o : FpOps) : Statement (.fmul o) := rfl
theorem ffma (o : FpOps) : Statement (.ffma o) := rfl
theorem fsub (o : FpOps) : Statement (.fsub o) := rfl
theorem vadd (o : VFpOps) : Statement (.vadd o) := rfl
theorem vmul (o : VFpOps) : Statement (.vmul o) := rfl
theorem vfma (o : VFpOps) : Statement (.vfma o) := rfl
theorem div (o : AluOps) : Statement (.div o) := rfl
theorem divu (o : AluOps) : Statement (.divu o) := rfl
theorem rem (o : AluOps) : Statement (.rem o) := rfl
theorem remu (o : AluOps) : Statement (.remu o) := rfl
theorem mulh (o : MulhOps) : Statement (.mulh o) := rfl
theorem mulhu (o : MulhOps) : Statement (.mulhu o) := rfl
theorem mulhsu (o : MulhOps) : Statement (.mulhsu o) := rfl
theorem bfx (o : BitfOps) : Statement (.bfx o) := rfl
theorem bfxu (o : BitfOps) : Statement (.bfxu o) := rfl
theorem bfi (o : BitfOps) : Statement (.bfi o) := rfl
theorem clz (o : UnOps) : Statement (.clz o) := rfl
theorem ctz (o : UnOps) : Statement (.ctz o) := rfl
theorem popc (o : UnOps) : Statement (.popc o) := rfl
theorem bswap (o : UnOps) : Statement (.bswap o) := rfl
theorem sextB (o : UnOps) : Statement (.sextB o) := rfl
theorem sextH (o : UnOps) : Statement (.sextH o) := rfl
theorem sextW (o : UnOps) : Statement (.sextW o) := rfl
theorem zextB (o : UnOps) : Statement (.zextB o) := rfl
theorem zextH (o : UnOps) : Statement (.zextH o) := rfl
theorem zextW (o : UnOps) : Statement (.zextW o) := rfl
theorem min (o : AluOps) : Statement (.min o) := rfl
theorem max (o : AluOps) : Statement (.max o) := rfl
theorem minu (o : AluOps) : Statement (.minu o) := rfl
theorem maxu (o : AluOps) : Statement (.maxu o) := rfl
theorem addsat (o : AluOps) : Statement (.addsat o) := rfl
theorem subsat (o : AluOps) : Statement (.subsat o) := rfl
theorem addsatu (o : AluOps) : Statement (.addsatu o) := rfl
theorem subsatu (o : AluOps) : Statement (.subsatu o) := rfl
theorem addsh (o : AddshOps) : Statement (.addsh o) := rfl
theorem movh (o : MovhOps) : Statement (.movh o) := rfl
theorem faddRounded (o : FpOps) : Statement (.faddRounded o) := rfl
theorem fsubRounded (o : FpOps) : Statement (.fsubRounded o) := rfl
theorem fmulRounded (o : FpOps) : Statement (.fmulRounded o) := rfl
theorem ffmaRounded (o : FpOps) : Statement (.ffmaRounded o) := rfl
theorem ffms (o : FpOps) : Statement (.ffms o) := rfl
theorem fnma (o : FpOps) : Statement (.fnma o) := rfl
theorem fdiv (o : FpOps) : Statement (.fdiv o) := rfl
theorem fsqrt (o : Fp1ROps) : Statement (.fsqrt o) := rfl
theorem fmin (o : Fp2Ops) : Statement (.fmin o) := rfl
theorem fmax (o : Fp2Ops) : Statement (.fmax o) := rfl
theorem fabs (o : Fp1Ops) : Statement (.fabs o) := rfl
theorem fneg (o : Fp1Ops) : Statement (.fneg o) := rfl
theorem fceq (o : FcmpOps) : Statement (.fceq o) := rfl
theorem fclt (o : FcmpOps) : Statement (.fclt o) := rfl
theorem fcle (o : FcmpOps) : Statement (.fcle o) := rfl
theorem fcun (o : FcmpOps) : Statement (.fcun o) := rfl
theorem fclass (o : Fp1Ops) : Statement (.fclass o) := rfl
theorem fcvt (o : FcvtOps) : Statement (.fcvt o) := rfl
theorem ftoi (o : FintOps) : Statement (.ftoi o) := rfl
theorem ftoiu (o : FintOps) : Statement (.ftoiu o) := rfl
theorem itof (o : FintOps) : Statement (.itof o) := rfl
theorem iutof (o : FintOps) : Statement (.iutof o) := rfl
theorem fton (o : FnarOps) : Statement (.fton o) := rfl
theorem ntof (o : FnarOps) : Statement (.ntof o) := rfl
theorem fexp2 (o : Fp1ROps) : Statement (.fexp2 o) := rfl
theorem flog2 (o : Fp1ROps) : Statement (.flog2 o) := rfl
theorem frcp (o : Fp1ROps) : Statement (.frcp o) := rfl
theorem frsqrt (o : Fp1ROps) : Statement (.frsqrt o) := rfl
theorem fsinpi (o : Fp1ROps) : Statement (.fsinpi o) := rfl
theorem fcospi (o : Fp1ROps) : Statement (.fcospi o) := rfl
theorem pand (o : PredOps) : Statement (.pand o) := rfl
theorem por (o : PredOps) : Statement (.por o) := rfl
theorem pxor (o : PredOps) : Statement (.pxor o) := rfl
theorem pandn (o : PredOps) : Statement (.pandn o) := rfl
theorem pset (o : PsetOps) : Statement (.pset o) := rfl
theorem psetg (o : PsetgOps) : Statement (.psetg o) := rfl
theorem pgetg (o : PgetgOps) : Statement (.pgetg o) := rfl
theorem ppopc (o : PgetgOps) : Statement (.ppopc o) := rfl
theorem ppack (o : PpackOps) : Statement (.ppack o) := rfl
theorem punpack (o : PpackOps) : Statement (.punpack o) := rfl
theorem psave (o : PsaveOps) : Statement (.psave o) := rfl
theorem prest (o : PsaveOps) : Statement (.prest o) := rfl
theorem jov (o : JovOps) : Statement (.jov o) := rfl
theorem enter (o : FrameOps) : Statement (.enter o) := rfl
theorem leave (o : FrameOps) : Statement (.leave o) := rfl
theorem trap (o : CodeOps) : Statement (.trap o) := rfl
theorem brk (o : CodeOps) : Statement (.brk o) := rfl
theorem bany (o : BrOps) : Statement (.bany o) := rfl
theorem ball (o : BrOps) : Statement (.ball o) := rfl
theorem tret (o : TretOps) : Statement (.tret o) := rfl
theorem srr (o : SrOps) : Statement (.srr o) := rfl
theorem srw (o : SrOps) : Statement (.srw o) := rfl
theorem mbxs (o : BcOps) : Statement (.mbxs o) := rfl
theorem mbxr (o : RdOps) : Statement (.mbxr o) := rfl
theorem wfi (o : BareOps) : Statement (.wfi o) := rfl
theorem ecall (o : EcallOps) : Statement (.ecall o) := rfl
theorem tlbsdInval (o : BcOps) : Statement (.tlbsdInval o) := rfl
theorem tlbsdTransit (o : BcOps) : Statement (.tlbsdTransit o) := rfl
theorem tlbsdLand (o : BcOps) : Statement (.tlbsdLand o) := rfl
theorem tlbsdDiscard (o : BcOps) : Statement (.tlbsdDiscard o) := rfl
theorem tlbsdRanges (o : BcOps) : Statement (.tlbsdRanges o) := rfl
theorem tlbsdResume (o : BcOps) : Statement (.tlbsdResume o) := rfl
theorem tlbsdRefuse (o : BcOps) : Statement (.tlbsdRefuse o) := rfl
theorem ldSigned (o : MemOps) : Statement (.ldSigned o) := rfl
theorem ldo (o : MemOps) : Statement (.ldo o) := rfl
theorem ldoSigned (o : MemOps) : Statement (.ldoSigned o) := rfl
theorem sto (o : MemOps) : Statement (.sto o) := rfl
theorem vgatherW (o : GathOps) : Statement (.vgatherW o) := rfl
theorem vgatherD (o : GathOps) : Statement (.vgatherD o) := rfl
theorem vscatterW (o : GathOps) : Statement (.vscatterW o) := rfl
theorem vscatterD (o : GathOps) : Statement (.vscatterD o) := rfl
theorem ldf (o : LdfOps) : Statement (.ldf o) := rfl
theorem fence (o : FenceOps) : Statement (.fence o) := rfl
theorem fenceSc (o : FenceOps) : Statement (.fenceSc o) := rfl
theorem getl (o : GetlOps) : Statement (.getl o) := rfl
theorem stp (o : StpOps) : Statement (.stp o) := rfl
theorem aadd (o : AtomOps) : Statement (.aadd o) := rfl
theorem amin (o : AtomOps) : Statement (.amin o) := rfl
theorem amax (o : AtomOps) : Statement (.amax o) := rfl
theorem aminu (o : AtomOps) : Statement (.aminu o) := rfl
theorem amaxu (o : AtomOps) : Statement (.amaxu o) := rfl
theorem aand (o : AtomOps) : Statement (.aand o) := rfl
theorem aor (o : AtomOps) : Statement (.aor o) := rfl
theorem axor (o : AtomOps) : Statement (.axor o) := rfl
theorem aswp (o : AtomOps) : Statement (.aswp o) := rfl
theorem acas (o : AcasOps) : Statement (.acas o) := rfl
theorem redAdd (o : RedOps) : Statement (.redAdd o) := rfl
theorem redMin (o : RedOps) : Statement (.redMin o) := rfl
theorem redMax (o : RedOps) : Statement (.redMax o) := rfl
theorem redMinu (o : RedOps) : Statement (.redMinu o) := rfl
theorem redMaxu (o : RedOps) : Statement (.redMaxu o) := rfl
theorem redAnd (o : RedOps) : Statement (.redAnd o) := rfl
theorem redOr (o : RedOps) : Statement (.redOr o) := rfl
theorem redXor (o : RedOps) : Statement (.redXor o) := rfl
theorem afaddF32 (o : AfaddOps) : Statement (.afaddF32 o) := rfl
theorem afaddBf16 (o : AfaddOps) : Statement (.afaddBf16 o) := rfl
theorem redFaddF32 (o : RedFaddOps) : Statement (.redFaddF32 o) := rfl
theorem redFaddBf16 (o : RedFaddOps) : Statement (.redFaddBf16 o) := rfl
theorem taddF32 (o : TaddOps) : Statement (.taddF32 o) := rfl
theorem taddI32 (o : TaddOps) : Statement (.taddI32 o) := rfl
theorem taddBf16 (o : TaddOps) : Statement (.taddBf16 o) := rfl
theorem spawn (o : SpawnOps) : Statement (.spawn o) := rfl
theorem quit (o : BareOps) : Statement (.quit o) := rfl
theorem susp (o : BareOps) : Statement (.susp o) := rfl
theorem fld (o : MemOps) : Statement (.fld o) := rfl
theorem fldS (o : MemOps) : Statement (.fldS o) := rfl
theorem ffill (o : MemOps) : Statement (.ffill o) := rfl
theorem fclr (o : FclrOps) : Statement (.fclr o) := rfl
theorem waitc (o : WaitcOps) : Statement (.waitc o) := rfl
theorem armMsg (o : RrrOps) : Statement (.armMsg o) := rfl
theorem armInc (o : RrrOps) : Statement (.armInc o) := rfl
theorem disarmMsg (o : RrrOps) : Statement (.disarmMsg o) := rfl
theorem disarmInc (o : RrrOps) : Statement (.disarmInc o) := rfl
theorem barArrive (o : BarOps) : Statement (.barArrive o) := rfl
theorem barWait (o : BarOps) : Statement (.barWait o) := rfl
theorem barTest (o : BarTestOps) : Statement (.barTest o) := rfl
theorem grow (o : GrowOps) : Statement (.grow o) := rfl
theorem wquiet (o : RbOps) : Statement (.wquiet o) := rfl
theorem wsplit (o : WsplitOps) : Statement (.wsplit o) := rfl
theorem ibx (o : RdOps) : Statement (.ibx o) := rfl
theorem ibxT (o : RdOps) : Statement (.ibxT o) := rfl
theorem vaddRounded (o : VFpOps) : Statement (.vaddRounded o) := rfl
theorem vsub (o : VFpOps) : Statement (.vsub o) := rfl
theorem vmulRounded (o : VFpOps) : Statement (.vmulRounded o) := rfl
theorem vfmaRounded (o : VFpOps) : Statement (.vfmaRounded o) := rfl
theorem vfms (o : VFpOps) : Statement (.vfms o) := rfl
theorem vfnma (o : VFpOps) : Statement (.vfnma o) := rfl
theorem vdiv (o : VFpOps) : Statement (.vdiv o) := rfl
theorem vsqrt (o : VFp1ROps) : Statement (.vsqrt o) := rfl
theorem vfmin (o : VFp2Ops) : Statement (.vfmin o) := rfl
theorem vfmax (o : VFp2Ops) : Statement (.vfmax o) := rfl
theorem vfabs (o : VFp1Ops) : Statement (.vfabs o) := rfl
theorem vfneg (o : VFp1Ops) : Statement (.vfneg o) := rfl
theorem vfceq (o : VFcmpOps) : Statement (.vfceq o) := rfl
theorem vfclt (o : VFcmpOps) : Statement (.vfclt o) := rfl
theorem vfcle (o : VFcmpOps) : Statement (.vfcle o) := rfl
theorem vfcun (o : VFcmpOps) : Statement (.vfcun o) := rfl
theorem vceq (o : VIcmpOps) : Statement (.vceq o) := rfl
theorem vclt (o : VIcmpOps) : Statement (.vclt o) := rfl
theorem vcltu (o : VIcmpOps) : Statement (.vcltu o) := rfl
theorem viadd (o : VIntOps) : Statement (.viadd o) := rfl
theorem visub (o : VIntOps) : Statement (.visub o) := rfl
theorem vimul (o : VIntOps) : Statement (.vimul o) := rfl
theorem vimin (o : VIntOps) : Statement (.vimin o) := rfl
theorem vimax (o : VIntOps) : Statement (.vimax o) := rfl
theorem viminu (o : VIntOps) : Statement (.viminu o) := rfl
theorem vimaxu (o : VIntOps) : Statement (.vimaxu o) := rfl
theorem viaddsat (o : VVVOps) : Statement (.viaddsat o) := rfl
theorem visubsat (o : VVVOps) : Statement (.visubsat o) := rfl
theorem viaddsatu (o : VVVOps) : Statement (.viaddsatu o) := rfl
theorem visubsatu (o : VVVOps) : Statement (.visubsatu o) := rfl
theorem vinarrow (o : VNarOps) : Statement (.vinarrow o) := rfl
theorem vinarrowu (o : VNarOps) : Statement (.vinarrowu o) := rfl
theorem vinarrowsu (o : VNarOps) : Statement (.vinarrowsu o) := rfl
theorem viwiden (o : VNarOps) : Statement (.viwiden o) := rfl
theorem viwidenu (o : VNarOps) : Statement (.viwidenu o) := rfl
theorem vand (o : VIntOps) : Statement (.vand o) := rfl
theorem vor (o : VIntOps) : Statement (.vor o) := rfl
theorem vxor (o : VIntOps) : Statement (.vxor o) := rfl
theorem vandn (o : VIntOps) : Statement (.vandn o) := rfl
theorem vshl (o : VIntOps) : Statement (.vshl o) := rfl
theorem vshr (o : VIntOps) : Statement (.vshr o) := rfl
theorem vsar (o : VIntOps) : Statement (.vsar o) := rfl
theorem vpopc (o : VUnOps) : Statement (.vpopc o) := rfl
theorem vclz (o : VUnOps) : Statement (.vclz o) := rfl
theorem vsel (o : VselOps) : Statement (.vsel o) := rfl
theorem vmov (o : VUnOps) : Statement (.vmov o) := rfl
theorem vbcast (o : VbcastOps) : Statement (.vbcast o) := rfl
theorem vext (o : VextOps) : Statement (.vext o) := rfl
theorem vins (o : VinsOps) : Statement (.vins o) := rfl
theorem vfcvt (o : VFcvtOps) : Statement (.vfcvt o) := rfl
theorem vftoi (o : VFintOps) : Statement (.vftoi o) := rfl
theorem vftoiu (o : VFintOps) : Statement (.vftoiu o) := rfl
theorem vitof (o : VFintOps) : Statement (.vitof o) := rfl
theorem viutof (o : VFintOps) : Statement (.viutof o) := rfl
theorem vfton (o : VFnarOps) : Statement (.vfton o) := rfl
theorem vntof (o : VFnarOps) : Statement (.vntof o) := rfl
theorem vmxsc (o : VmxscOps) : Statement (.vmxsc o) := rfl
theorem vmxpk (o : VmxOps) : Statement (.vmxpk o) := rfl
theorem vmxunpk (o : VmxOps) : Statement (.vmxunpk o) := rfl
theorem vexp2 (o : VFp1ROps) : Statement (.vexp2 o) := rfl
theorem vlog2 (o : VFp1ROps) : Statement (.vlog2 o) := rfl
theorem vrcp (o : VFp1ROps) : Statement (.vrcp o) := rfl
theorem vrsqrt (o : VFp1ROps) : Statement (.vrsqrt o) := rfl
theorem vsinpi (o : VFp1ROps) : Statement (.vsinpi o) := rfl
theorem vcospi (o : VFp1ROps) : Statement (.vcospi o) := rfl
theorem vshuf (o : VVVOps) : Statement (.vshuf o) := rfl
theorem vperm (o : VpermOps) : Statement (.vperm o) := rfl
theorem vrot (o : VrotOps) : Statement (.vrot o) := rfl
theorem vvoteAny (o : VvoteOps) : Statement (.vvoteAny o) := rfl
theorem vvoteAll (o : VvoteOps) : Statement (.vvoteAll o) := rfl
theorem vvoteBallot (o : VballotOps) : Statement (.vvoteBallot o) := rfl
theorem vmatch (o : VUnOps) : Statement (.vmatch o) := rfl
theorem vredAdd (o : VFredOps) : Statement (.vredAdd o) := rfl
theorem vredMin (o : VFredOps) : Statement (.vredMin o) := rfl
theorem vredMax (o : VFredOps) : Statement (.vredMax o) := rfl
theorem vredIadd (o : VIredOps) : Statement (.vredIadd o) := rfl
theorem vredImin (o : VIredOps) : Statement (.vredImin o) := rfl
theorem vredImax (o : VIredOps) : Statement (.vredImax o) := rfl
theorem vredIminu (o : VIredOps) : Statement (.vredIminu o) := rfl
theorem vredImaxu (o : VIredOps) : Statement (.vredImaxu o) := rfl
theorem vredAnd (o : VIredOps) : Statement (.vredAnd o) := rfl
theorem vredOr (o : VIredOps) : Statement (.vredOr o) := rfl
theorem vredXor (o : VIredOps) : Statement (.vredXor o) := rfl
theorem vscanAdd (o : VFscanOps) : Statement (.vscanAdd o) := rfl
theorem vscanMin (o : VFscanOps) : Statement (.vscanMin o) := rfl
theorem vscanMax (o : VFscanOps) : Statement (.vscanMax o) := rfl
theorem vscanIadd (o : VIscanOps) : Statement (.vscanIadd o) := rfl
theorem vscanImin (o : VIscanOps) : Statement (.vscanImin o) := rfl
theorem vscanImax (o : VIscanOps) : Statement (.vscanImax o) := rfl
theorem vscanIminu (o : VIscanOps) : Statement (.vscanIminu o) := rfl
theorem vscanImaxu (o : VIscanOps) : Statement (.vscanImaxu o) := rfl
theorem mma (o : MmaOps) : Statement (.mma o) := rfl
theorem mmaMx (o : MmaOps) : Statement (.mmaMx o) := rfl
theorem mmaI8 (o : MmaIOps) : Statement (.mmaI8 o) := rfl
theorem mmaI4 (o : MmaIOps) : Statement (.mmaI4 o) := rfl
theorem mmsrMinplus (o : MmaOps) : Statement (.mmsrMinplus o) := rfl
theorem mmsrMaxtimes (o : MmaOps) : Statement (.mmsrMaxtimes o) := rfl
theorem mmsrOrand (o : MmaOps) : Statement (.mmsrOrand o) := rfl
theorem mzero (o : TileOps) : Statement (.mzero o) := rfl
theorem mload (o : MloadOps) : Statement (.mload o) := rfl
theorem mdrain (o : MdrainOps) : Statement (.mdrain o) := rfl
theorem mdrainAdd (o : MdrainOps) : Statement (.mdrainAdd o) := rfl
theorem mdrainQ (o : MdrainQOps) : Statement (.mdrainQ o) := rfl
theorem mwait (o : TileOps) : Statement (.mwait o) := rfl
theorem mwaitAll (o : BareOps) : Statement (.mwaitAll o) := rfl
theorem mrd (o : MrdOps) : Statement (.mrd o) := rfl
theorem mcmd (o : BcOps) : Statement (.mcmd o) := rfl
theorem mgrant (o : RrrOps) : Statement (.mgrant o) := rfl
theorem mring (o : MringOps) : Statement (.mring o) := rfl
theorem mringRecv (o : BareOps) : Statement (.mringRecv o) := rfl
theorem mpass (o : BareOps) : Statement (.mpass o) := rfl
theorem mcap (o : RdOps) : Statement (.mcap o) := rfl
theorem mfmt (o : MfmtOps) : Statement (.mfmt o) := rfl
theorem mfmtr (o : MfmtrOps) : Statement (.mfmtr o) := rfl
theorem shape (o : ShapeOps) : Statement (.shape o) := rfl
theorem copy (o : CopyOps) : Statement (.copy o) := rfl
theorem lds (o : ShardOps) : Statement (.lds o) := rfl
theorem ldso (o : ShardOps) : Statement (.ldso o) := rfl
theorem sts (o : ShardOps) : Statement (.sts o) := rfl
theorem stso (o : ShardOps) : Statement (.stso o) := rfl
theorem shinv (o : RrrOps) : Statement (.shinv o) := rfl
theorem cfetch (o : CfetchOps) : Statement (.cfetch o) := rfl
theorem cfetchNote (o : CfetchOps) : Statement (.cfetchNote o) := rfl
theorem ampApply (o : AmpOps) : Statement (.ampApply o) := rfl
theorem ampPerm (o : AmpOps) : Statement (.ampPerm o) := rfl
theorem collRun (o : CollOps) : Statement (.collRun o) := rfl
theorem collRunReload (o : CollOps) : Statement (.collRunReload o) := rfl
theorem baddq (o : BaddqOps) : Statement (.baddq o) := rfl
theorem blkq (o : RdOps) : Statement (.blkq o) := rfl
theorem blkqDone (o : RbOps) : Statement (.blkqDone o) := rfl
theorem resultLanding (c : CoreId) (slot k : Nat) : Statement (.resultLanding c slot k) := rfl
theorem accessAcceptance (c : CoreId) (slot k : Nat) : Statement (.accessAcceptance c slot k) := rfl
theorem runAheadEnd (c : CoreId) (slot ticket : Nat) : Statement (.runAheadEnd c slot ticket) := rfl
theorem refusedRequestRetry (k : Nat) : Statement (.refusedRequestRetry k) := rfl
theorem postedItemDelivery (k : Nat) : Statement (.postedItemDelivery k) := rfl
theorem countedArrival (k : Nat) : Statement (.countedArrival k) := rfl
theorem heldInboxRecordEntry (c : CoreId) : Statement (.heldInboxRecordEntry c) := rfl
theorem deferredListWalk (k : Nat) : Statement (.deferredListWalk k) := rfl
theorem waitcPoll (c : CoreId) (slot : Nat) : Statement (.waitcPoll c slot) := rfl
theorem wquietPoll (c : CoreId) (slot : Nat) : Statement (.wquietPoll c slot) := rfl
theorem neighbourWordArrival (k : Nat) : Statement (.neighbourWordArrival k) := rfl
theorem reelArrivalCombine (k : Nat) : Statement (.reelArrivalCombine k) := rfl
theorem reelRelease (k : Nat) : Statement (.reelRelease k) := rfl
theorem matrixCommandStart (c : CoreId) : Statement (.matrixCommandStart c) := rfl
theorem matrixTileWrite (c : CoreId) : Statement (.matrixTileWrite c) := rfl
theorem remoteCommandArrival (k : Nat) : Statement (.remoteCommandArrival k) := rfl
theorem copyRun (c : CoreId) : Statement (.copyRun c) := rfl
theorem cfetchLoadComplete (c : CoreId) : Statement (.cfetchLoadComplete c) := rfl
theorem ampGroup (pkg cluster g : Nat) : Statement (.ampGroup pkg cluster g) := rfl
theorem ampPermRun (pkg cluster : Nat) : Statement (.ampPermRun pkg cluster) := rfl
theorem braidRunStart (pkg cluster : Nat) : Statement (.braidRunStart pkg cluster) := rfl
theorem braidStepComplete (pkg cluster run step : Nat) : Statement (.braidStepComplete pkg cluster run step) := rfl
theorem queueStepPush (pkg cluster run step : Nat) : Statement (.queueStepPush pkg cluster run step) := rfl
theorem shootdownAtRoot  : Statement (.shootdownAtRoot ) := rfl
theorem shootdownAtNode (pkg : Nat) : Statement (.shootdownAtNode pkg) := rfl
theorem hubShootdownAck (pkg cluster : Nat) : Statement (.hubShootdownAck pkg cluster) := rfl
theorem shinvCompletion  : Statement (.shinvCompletion ) := rfl
theorem kernelPacket (pkg q : Nat) : Statement (.kernelPacket pkg q) := rfl
theorem copyPacket (pkg q : Nat) : Statement (.copyPacket pkg q) := rfl
theorem braidPacket (pkg q : Nat) : Statement (.braidPacket pkg q) := rfl
theorem ampPacket (pkg q : Nat) : Statement (.ampPacket pkg q) := rfl
theorem waitflagPacket (pkg q : Nat) : Statement (.waitflagPacket pkg q) := rfl
theorem signalPacket (pkg q : Nat) : Statement (.signalPacket pkg q) := rfl
theorem descriptorNotification (pkg q : Nat) : Statement (.descriptorNotification pkg q) := rfl
theorem gridAdmission (pkg q : Nat) : Statement (.gridAdmission pkg q) := rfl
theorem groupPlacement (pkg die : Nat) : Statement (.groupPlacement pkg die) := rfl
theorem ageingPromotion (pkg gslot : Nat) : Statement (.ageingPromotion pkg gslot) := rfl
theorem eviction (pkg die : Nat) : Statement (.eviction pkg die) := rfl
theorem groupRestore (pkg die : Nat) : Statement (.groupRestore pkg die) := rfl
theorem gridDoneArrival (pkg gslot : Nat) : Statement (.gridDoneArrival pkg gslot) := rfl
theorem runQueuePickup (pkg cluster : Nat) : Statement (.runQueuePickup pkg cluster) := rfl
theorem headSegmentLoad (pkg cluster : Nat) : Statement (.headSegmentLoad pkg cluster) := rfl
theorem userTrapEntry (c : CoreId) (slot : Nat) : Statement (.userTrapEntry c slot) := rfl
theorem trapDelivery (c : CoreId) (slot : Nat) : Statement (.trapDelivery c slot) := rfl
theorem trapRecordAppend (pkg pid : Nat) : Statement (.trapRecordAppend pkg pid) := rfl
theorem mailboxNotificationEntry (pkg : Nat) (q : NoteQueue) : Statement (.mailboxNotificationEntry pkg q) := rfl
theorem timerWake (c : CoreId) (slot : Nat) : Statement (.timerWake c slot) := rfl
theorem preemptHaltGrid (pkg pid gslot : Nat) : Statement (.preemptHaltGrid pkg pid gslot) := rfl
theorem preemptHaltPartition (pkg pid : Nat) : Statement (.preemptHaltPartition pkg pid) := rfl
theorem preemptHaltCrews (pkg pid gslot core : Nat) : Statement (.preemptHaltCrews pkg pid gslot core) := rfl
theorem preemptResume (pkg pid : Nat) : Statement (.preemptResume pkg pid) := rfl
theorem haltComplete (pkg pid : Nat) : Statement (.haltComplete pkg pid) := rfl
theorem saveComplete (pkg pid : Nat) : Statement (.saveComplete pkg pid) := rfl
theorem lateResultLanding (k : Nat) : Statement (.lateResultLanding k) := rfl
theorem imgctlRestore (pkg pid : Nat) (img : Dword) : Statement (.imgctlRestore pkg pid img) := rfl
theorem imgctlDiscard (pkg pid : Nat) (img : Dword) : Statement (.imgctlDiscard pkg pid img) := rfl
theorem registerWrite (pkg pid k : Nat) (v : Dword) : Statement (.registerWrite pkg pid k v) := rfl
theorem uncorrectableError (pkg : Nat) (site : ErrSite) : Statement (.uncorrectableError pkg site) := rfl
theorem correctedErrorReport (pkg cluster : Nat) : Statement (.correctedErrorReport pkg cluster) := rfl
theorem scrubPass (pkg cluster : Nat) : Statement (.scrubPass pkg cluster) := rfl
theorem linkReplay (pkg link : Nat) : Statement (.linkReplay pkg link) := rfl
theorem linkDown (pkg link : Nat) : Statement (.linkDown pkg link) := rfl
theorem fabricResend (pkg link : Nat) : Statement (.fabricResend pkg link) := rfl
theorem channelRekey (pkg channel : Nat) : Statement (.channelRekey pkg channel) := rfl
theorem hostWindowWrite (pkg fn : Nat) (bar : HostBar) (off : Dword) (bytes : List Byte) : Statement (.hostWindowWrite pkg fn bar off bytes) := rfl
theorem hostWindowRead (pkg fn : Nat) (bar : HostBar) (off : Dword) (n : Nat) : Statement (.hostWindowRead pkg fn bar off n) := rfl
theorem hmbxWrite (pkg pid : Nat) (v : Dword) : Statement (.hmbxWrite pkg pid v) := rfl
theorem hfaultDoorbell (pkg pid : Nat) (rec : HFaultRec) : Statement (.hfaultDoorbell pkg pid rec) := rfl
theorem fordmapWrite (pkg pid port : Nat) (v : Dword) : Statement (.fordmapWrite pkg pid port v) := rfl
theorem qtabWrite (pkg : Nat) (v : Dword) : Statement (.qtabWrite pkg v) := rfl
theorem retentionEnter (pkg cluster : Nat) : Statement (.retentionEnter pkg cluster) := rfl
theorem retentionExit (pkg cluster : Nat) : Statement (.retentionExit pkg cluster) := rfl
theorem reencodeComplete (pkg cluster : Nat) : Statement (.reencodeComplete pkg cluster) := rfl
theorem pcapWrite (pkg : Nat) (v : Dword) : Statement (.pcapWrite pkg v) := rfl
theorem clockStep (pkg watts : Nat) : Statement (.clockStep pkg watts) := rfl
theorem thermalTrip (pkg die : Nat) : Statement (.thermalTrip pkg die) := rfl
theorem powerGood (pkg : Nat) (bin : BootIn) : Statement (.powerGood pkg bin) := rfl
theorem partitionCreate (pkg pid : Nat) (reaches fpmap : Half) (notify : Nat) : Statement (.partitionCreate pkg pid reaches fpmap notify) := rfl
theorem partitionDestroy (pkg pid : Nat) : Statement (.partitionDestroy pkg pid) := rfl
theorem jobFormation (na nb nc nd : JobAxis) : Statement (.jobFormation na nb nc nd) := rfl
theorem getVersion (pkg : Nat) (overDoe : Bool) : Statement (.getVersion pkg overDoe) := rfl
theorem getCapabilities (pkg : Nat) (overDoe : Bool) : Statement (.getCapabilities pkg overDoe) := rfl
theorem negotiateAlgorithms (pkg : Nat) (overDoe : Bool) : Statement (.negotiateAlgorithms pkg overDoe) := rfl
theorem getDigests (pkg : Nat) (overDoe : Bool) : Statement (.getDigests pkg overDoe) := rfl
theorem getCertificate (pkg : Nat) (overDoe : Bool) : Statement (.getCertificate pkg overDoe) := rfl
theorem challenge (pkg : Nat) (overDoe : Bool) (nonce : Dword) : Statement (.challenge pkg overDoe nonce) := rfl
theorem getMeasurements (pkg : Nat) (overDoe : Bool) (index : Nat) : Statement (.getMeasurements pkg overDoe index) := rfl
theorem keyExchange (pkg : Nat) (overDoe : Bool) : Statement (.keyExchange pkg overDoe) := rfl
theorem finish (pkg : Nat) (overDoe : Bool) : Statement (.finish pkg overDoe) := rfl
theorem mgmtReadSensors (pkg : Nat) : Statement (.mgmtReadSensors pkg) := rfl
theorem mgmtReadErrorLog (pkg : Nat) (pid : Option Nat) : Statement (.mgmtReadErrorLog pkg pid) := rfl
theorem mgmtSetPowerCap (pkg cap : Nat) : Statement (.mgmtSetPowerCap pkg cap) := rfl
theorem mgmtPreempt (pkg pid : Nat) : Statement (.mgmtPreempt pkg pid) := rfl
theorem moduleReset (pkg : Nat) : Statement (.moduleReset pkg) := rfl
theorem firmwareUpdate (pkg : Nat) (die : Option Nat) (img : FwImage) : Statement (.firmwareUpdate pkg die img) := rfl
theorem undefinedInstruction (e : DecErr) : Statement (.undefinedInstruction e) := rfl

end Sys2Proof.Laws.Words
end

