-- ==== Sys2Proof/Tests/Slice0.lean ====
section
/-!
SUPPORT. The tests of the model: the checks of WellFormed, words of every family, worked examples of the spec, and for every statement that has hypotheses
a state and operands that meet them (test_meets_…).
-/
namespace Sys2Proof.Tests
open Sys2Proof Sys2Proof.Machine
set_option Elab.async false

/-! ## The state in which the examples stand: one thread READY in slot 0 of core 0 of package 1, an instruction of one word in hand -/

noncomputable section

def c0 : CoreId := { pkg := 1, n := 0 }

/-- The placed thread with some of its registers set, and r. -/
def thr : Thread :=
  { placedThread with regs := { placedThread.regs with g := (placedThread.regs.g.set 8 0x800200000100#64).set 9 7#64 |>.set 10 0xFFFFFFFFFFFFFFFF#64 } }

/-- The state with a thread in hand. -/
def withT (t : Thread) : State :=
  let s := setT (placeThread State.reset [0x1000#16]) c0 0 (some t)
  { s with cur := { core := c0, slot := 0, words := [0x1000#16] }, agenda := [] }

/-- The same with changes of the rest of the machine. -/
def demo : State := withT thr

/-- What remains to be asked of an instruction in such a state. -/
def readyB (s : State) (t : Thread) (i : Instr) : Bool :=
  levelOk s i && fieldsOk s i && allotted t i && running t i && decide ((usesOf i).lat ≤ 32) && !unitTaken s t i

end

theorem ready_of {s : State} {t : Thread} {i : Instr} (hand : getT s s.cur.core s.cur.slot = some t) (hn : t.net = false) (ho : t.out = []) (ha : t.acc = [])
    (h : readyB s t i = true) : Ready s t i := by
  simp only [readyB, Bool.and_eq_true, decide_eq_true_eq, Bool.not_eq_true'] at h
  refine ⟨hand, h.1.1.1.1.1, h.1.1.1.1.2, h.1.1.1.2, h.1.1.2, ?_, ⟨fun _ => ha, .inr (by simp [ho, h.1.2])⟩, h.2⟩
  exact portCheck_none (by rw [hn]; exact portReads_net_false _) (by rw [hn]; exact portWrites_net_false _)
    (by rw [hn]; simp [List.any_eq_false, portDir_net_false])

theorem hand_withT (t : Thread) : getT (withT t) (withT t).cur.core (withT t).cur.slot = some t := rfl

/-- An instruction is ready in the example state. -/
theorem ready_demo {i : Instr} (h : readyB demo thr i = true) : Ready demo thr i := ready_of (hand_withT thr) rfl rfl rfl h

/-- So is every row of a table. -/
theorem ready_rows {α β : Type} (l : List ((α → Instr) × β)) (o : α) (h : l.all (fun r => readyB demo thr (r.1 o)) = true) :
    ∀ row ∈ l, Ready demo thr (row.1 o) := fun row hr => ready_demo (List.all_eq_true.mp h row hr)

/-! ## Hypotheses that are met: integer and scalar floating-point instructions -/

theorem test_meets_integer_arithmetic : ∀ row ∈ aluRows, Ready demo thr (row.1 { pre := bare, w := .d, rd := 63, x := 9, y := .imm (-1) }) :=
  ready_rows _ _ (by decide +kernel)
theorem test_meets_integer_division : ∀ row ∈ divRows, Ready demo thr (row.1 { pre := bare, w := .w, rd := 63, x := 10, y := .reg 0 }) :=
  ready_rows _ _ (by decide +kernel)
theorem test_meets_high_product : ∀ row ∈ mulhRows, Ready demo thr (row.1 { pre := bare, w := .d, rd := 1, x := 10, y := 10 }) :=
  ready_rows _ _ (by decide +kernel)
theorem test_meets_unary : ∀ row ∈ unaryRows, Ready demo thr (row.1 { pre := bare, w := .d, rd := 1, x := 10 }) := ready_rows _ _ (by decide +kernel)
theorem test_meets_compare : ∀ row ∈ compareRows, Ready demo thr (row.1 { pre := bare, w := .d, pd := 7, x := 10, y := .imm 0 }) :=
  ready_rows _ _ (by decide +kernel)
theorem test_meets_moves : Ready demo thr (.mov { pre := bare, rd := 0, y := .imm 5 }) ∧ Ready demo thr (.bfx { pre := bare, rd := 1, x := 10, pos := 63, len := 1 }) ∧
    Ready demo thr (.bfxu { pre := bare, rd := 1, x := 10, pos := 0, len := 64 }) ∧ Ready demo thr (.bfi { pre := bare, rd := 1, x := 10, pos := 32, len := 32 }) ∧
    Ready demo thr (.addsh { pre := bare, rd := 1, x := 9, y := 10, sh := 7 }) ∧ Ready demo thr (.movh { pre := bare, rd := 1, imm := 2 ^ 32 - 1 }) :=
  ⟨ready_demo (by decide +kernel), ready_demo (by decide +kernel), ready_demo (by decide +kernel), ready_demo (by decide +kernel),
    ready_demo (by decide +kernel), ready_demo (by decide +kernel)⟩

end Sys2Proof.Tests

/-! ## What all issued instructions share -/

namespace Sys2Proof.Tests
open Sys2Proof Sys2Proof.Machine
set_option Elab.async false

noncomputable section

/-- The state with a thread in slot 0 of any core. -/
def onCore (c : CoreId) (t : Thread) : State := { setT demo c 0 (some t) with cur := { core := c, slot := 0, words := [0x1000#16] } }

/-- A thread of a kernel with net; the eastern neighbour of its core, core 1, belongs to its grid. -/
def netThr : Thread := { thr with net := true }
def netState (q : List Word) : State :=
  let s := modCore (withT netThr) { pkg := 1, n := 1 } (fun k => { k with tenancy := some 0 })
  modCore s c0 (fun k => { k with nq := k.nq.set 1 q })

/-- An access of the thread that is not yet accepted. -/
def someAccess : Access := accessOf demo thr (.read [(0x800000000000#64, 8)] 8 (.scalar false)) false OrdSc.plain

/-- A result outstanding. -/
def someOut : Out := { seq := 0, dst := .g 40, val := .none, flags := {}, ready := false, staleBy := none }

def addI (rd x : GReg) : Instr := .add { pre := bare, w := .d, rd := rd, x := x, y := .imm 1 }

/-- The conditions that the shared statements ask first. -/
def common (s : State) (_ : Thread) (i : Instr) : Bool := isIssued i && fieldsOk s i && levelOk s i

end

theorem ready_port {s : State} {t : Thread} {i : Instr} (hand : getT s s.cur.core s.cur.slot = some t) (ho : t.out = []) (ha : t.acc = [])
    (h : readyB s t i = true) (hp : (portCheck s s.cur.core s.cur.slot t (usesOf i)).isNone = true) : Ready s t i := by
  simp only [readyB, Bool.and_eq_true, decide_eq_true_eq, Bool.not_eq_true'] at h
  exact ⟨hand, h.1.1.1.1.1, h.1.1.1.1.2, h.1.1.1.2, h.1.1.2, Option.isNone_iff_eq_none.mp hp, ⟨fun _ => ha, .inr (by simp [ho, h.1.2])⟩, h.2⟩

theorem test_meets_predicated_off : let i := Instr.add { pre := { bare with pn := 1 }, w := .d, rd := 1, x := 9, y := .imm 1 }
    (common demo thr i && allotted thr i && !running thr i) = true ∧ inHand demo thr := ⟨by decide +kernel, rfl⟩
theorem test_meets_register_beyond : let t := { thr with allot := { thr.allot with g := 32 } }
    (common (withT t) t (addI 32 9) && !allotted t (addI 32 9)) = true ∧ inHand (withT t) t := ⟨by decide +kernel, rfl⟩
theorem test_meets_level : (isIssued (.mbxs { pre := bare, b := 9, c := 10 }) && fieldsOk demo (.mbxs { pre := bare, b := 9, c := 10 }) &&
      (usesOf (.mbxs { pre := bare, b := 9, c := 10 })).priv) = true ∧ demo.cur.core.n < 8192 ∧ inHand demo thr ∧
    let f : CoreId := { pkg := 1, n := 8192 }
    (isIssued (.susp { pre := bare }) && fieldsOk (onCore f thr) (.susp { pre := bare }) && (usesOf (.susp { pre := bare })).noFp) = true ∧
      8192 ≤ (onCore f thr).cur.core.n ∧ inHand (onCore f thr) thr := ⟨by decide +kernel, by decide +kernel, rfl, by decide +kernel, by decide +kernel, rfl⟩
theorem test_meets_port_destination : let i := Instr.div { pre := bare, w := .d, rd := 60, x := 9, y := .imm 1 }
    (common (netState []) netThr i && allotted netThr i && running netThr i && (usesOf i).lg.any (fun r => (portDir netThr.net r).isSome)) = true ∧
      inHand (netState []) netThr := ⟨by decide +kernel, rfl⟩
theorem test_meets_port_nowhere : (common (netState []) netThr (addI 1 60) && allotted netThr (addI 1 60) && running netThr (addI 1 60) &&
      !(usesOf (addI 1 60)).lg.any (fun r => (portDir netThr.net r).isSome)) = true ∧
    (portDirs netThr (addI 1 60)).any (leadsNowhere (netState []) netThr) = true := ⟨by decide +kernel, by decide +kernel⟩
theorem test_meets_port_waits : (common (netState [1]) netThr (addI 1 61) && allotted netThr (addI 1 61) && running netThr (addI 1 61) &&
      !(usesOf (addI 1 61)).lg.any (fun r => (portDir netThr.net r).isSome) && (portDirs netThr (addI 1 61)).all (fun d => !leadsNowhere (netState [1]) netThr d) &&
      popsShort (netState [1]) netThr (addI 1 61)) = true ∧ netThr.acc = [] ∧ inHand (netState [1]) netThr := ⟨by decide +kernel, rfl, rfl⟩
theorem test_meets_port_operands : Ready (netState [1, 2]) netThr (addI 1 61) ∧ Ready (netState []) netThr (addI 61 9) ∧ netThr.net = true :=
  ⟨ready_port rfl rfl rfl (by decide +kernel) (by decide +kernel), ready_port rfl rfl rfl (by decide +kernel) (by decide +kernel), rfl⟩
theorem test_meets_waits_for_accesses : let t := { thr with acc := [someAccess] }
    (common (withT t) t (.quit { pre := bare }) && allotted t (.quit { pre := bare }) && running t (.quit { pre := bare }) &&
      (portCheck (withT t) c0 0 t (usesOf (.quit { pre := bare }))).isNone && (usesOf (.quit { pre := bare })).eff) = true ∧ t.acc ≠ [] :=
  ⟨by decide +kernel, by simp⟩
theorem test_meets_33rd_result : let t := { thr with out := List.replicate 32 someOut }
    let i := Instr.div { pre := bare, w := .d, rd := 1, x := 9, y := .imm 1 }
    (common (withT t) t i && allotted t i && running t i && (portCheck (withT t) c0 0 t (usesOf i)).isNone && decide (32 < t.out.length + (usesOf i).lat)) = true :=
  by decide +kernel
theorem test_meets_fields : inHand demo thr ∧ demo.cur.core.n < 8192 ∧ ((1 : GReg) = 0 ∨ (1 : GReg).val % 4 ≠ 0) ∧ (64 : Nat) ≤ 64 ∧ (20 : Nat) < 64 :=
  ⟨rfl, by decide +kernel, by decide, by decide, by decide⟩

/-! ## Floating point, predicates, vectors -/

theorem test_meets_scalar_float : (∀ row ∈ fpRows, Ready demo thr (row.1 { pre := bare, fmt := .f32, rm := .dyn, rd := 1, x := 9, y := 10 })) ∧
    Ready demo thr (.fdiv { pre := bare, fmt := .f64, rm := .rtz, rd := 1, x := 9, y := 0 }) ∧
    (∀ row ∈ fpSlowRows, Ready demo thr (row.1 { pre := bare, fmt := .f32, rm := .rup, rd := 1, x := 9 })) ∧
    (∀ row ∈ fpMinRows, Ready demo thr (row.1 { pre := bare, fmt := .f16, rd := 1, x := 9, y := 10 })) ∧
    (∀ row ∈ fpSignRows, Ready demo thr (row.1 { pre := bare, fmt := .bf16, rd := 1, x := 9 })) ∧
    (∀ row ∈ fpCompareRows, Ready demo thr (row.1 { pre := bare, fmt := .f32, pd := 0, x := 9, y := 10 })) :=
  ⟨ready_rows _ _ (by decide +kernel), ready_demo (by decide +kernel), ready_rows _ _ (by decide +kernel), ready_rows _ _ (by decide +kernel),
    ready_rows _ _ (by decide +kernel), ready_rows _ _ (by decide +kernel)⟩
theorem test_meets_scalar_conversions : Ready demo thr (.fcvt { pre := bare, dst := .bf16, src := .f32, rm := .rne, rd := 1, x := 9 }) ∧
    Ready demo thr (.ftoi { pre := bare, fmt := .f32, iw := .i8, rm := .rtz, rd := 1, x := 9 }) ∧
    Ready demo thr (.ftoiu { pre := bare, fmt := .f32, iw := .i64, rm := .rtz, rd := 1, x := 9 }) ∧
    Ready demo thr (.itof { pre := bare, fmt := .f16, iw := .i64, rm := .rtz, rd := 1, x := 10 }) ∧
    Ready demo thr (.iutof { pre := bare, fmt := .f16, iw := .i64, rm := .rtz, rd := 1, x := 10 }) ∧
    (Ready demo thr (.fton { pre := bare, sat := true, rm := .rne, nf := 0, rd := 1, x := 9 }) ∧ (nfFmt thr.regs.nf[(0 : NfReg)]).isSome = true) ∧
    (Ready demo thr (.ntof { pre := bare, sat := false, rm := .dyn, nf := 4, rd := 1, x := 9 }) ∧ (nfFmt thr.regs.nf[(4 : NfReg)]).isSome = true) :=
  ⟨ready_demo (by decide +kernel), ready_demo (by decide +kernel), ready_demo (by decide +kernel), ready_demo (by decide +kernel), ready_demo (by decide +kernel),
    ⟨ready_demo (by decide +kernel), by decide +kernel⟩, ready_demo (by decide +kernel), by decide +kernel⟩

/-- The thread with a narrow-format register that is no format (W = 3). -/
def badNf : Thread := { thr with regs := { thr.regs with nf := thr.regs.nf.set 7 0xFFFC#16 } }
theorem test_meets_bad_format : Ready (withT badNf) badNf (.fton { pre := bare, sat := true, rm := .rne, nf := 7, rd := 1, x := 9 }) ∧
    Ready (withT badNf) badNf (.ntof { pre := bare, sat := false, rm := .dyn, nf := 7, rd := 1, x := 9 }) ∧ nfFmt badNf.regs.nf[(7 : NfReg)] = none :=
  ⟨ready_of rfl rfl rfl rfl (by decide +kernel), ready_of rfl rfl rfl rfl (by decide +kernel), by decide +kernel⟩
theorem test_meets_float_results : ((decodeFp fp32 0x7FC00000).isNaN || (decodeFp fp32 0).isNaN) = true ∧ (decodeFp fp32 0xBF800000).isNaN = false ∧
    (decodeFp fp32 0xBF800000).neg = true ∧ (decodeFp fp32 0xBF800000).isZero = false ∧ (decodeFp fp32 0x7F800001).isSNaN = true ∧
    ((decodeFp fp32 0).isZero && (decodeFp fp32 0x80000000).isZero) = true ∧ (decodeFp fp32 0x80000000).neg = true ∧ (decodeFp fp32 0).neg = false := by decide +kernel
theorem test_meets_predicates : (∀ row ∈ predRows, Ready demo thr (row.1 { pre := bare, pd := 7, x := 1, y := 0 })) ∧
    Ready demo thr (.pset { pre := bare, pd := 7, imm := 2 ^ 32 - 1 }) ∧ Ready demo thr (.psetg { pre := bare, pd := 7, x := 10 }) ∧
    Ready demo thr (.pgetg { pre := bare, rd := 63, x := 0 }) ∧ Ready demo thr (.ppopc { pre := bare, rd := 63, x := 0 }) ∧
    Ready demo thr (.ppack { pre := bare, g := 9, lane := 31 }) ∧ Ready demo thr (.punpack { pre := bare, g := 9, lane := 0 }) ∧
    Ready demo thr (.psave { pre := bare, v := 31, k := 3 }) ∧ Ready demo thr (.prest { pre := bare, v := 31, k := 0 }) :=
  ⟨ready_rows _ _ (by decide +kernel), ready_demo (by decide +kernel), ready_demo (by decide +kernel), ready_demo (by decide +kernel), ready_demo (by decide +kernel),
    ready_demo (by decide +kernel), ready_demo (by decide +kernel), ready_demo (by decide +kernel), ready_demo (by decide +kernel)⟩
theorem test_meets_vector_float : (∀ row ∈ vfpRows, Ready demo thr (row.1 { pre := bare, fmt := .f32, rm := .dyn, vd := 1, x := 2, y := .v 3 })) ∧
    Ready demo thr (.vdiv { pre := bare, fmt := .f64, rm := .rdn, vd := 1, x := 2, y := .v 3 }) ∧
    (∀ row ∈ vfpSlowRows, Ready demo thr (row.1 { pre := bare, fmt := .f32, rm := .rne, vd := 1, x := 2 })) ∧
    (∀ row ∈ vfpMinRows, Ready demo thr (row.1 { pre := bare, fmt := .bf16, vd := 1, x := 2, y := 3 })) ∧
    (∀ row ∈ vfpSignRows, Ready demo thr (row.1 { pre := bare, fmt := .f16, vd := 1, x := 2 })) :=
  ⟨ready_rows _ _ (by decide +kernel), ready_demo (by decide +kernel), ready_rows _ _ (by decide +kernel), ready_rows _ _ (by decide +kernel),
    ready_rows _ _ (by decide +kernel)⟩
theorem test_meets_vector_compare_integer : (∀ row ∈ vfpCompareRows, Ready demo thr (row.1 { pre := bare, fmt := .f16, pd := 1, x := 2, y := .g 9, sel := 1 })) ∧
    (∀ row ∈ vintCompareRows, Ready demo thr (row.1 { pre := bare, iw := .i8, pd := 1, x := 2, y := .v 3, sel := 3 })) ∧
    (∀ row ∈ vintRows, Ready demo thr (row.1 { pre := bare, iw := .i64, vd := 1, x := 2, y := .v 3 })) ∧
    (∀ row ∈ vsatRows, Ready demo thr (row.1 { pre := bare, iw := .i16, vd := 1, x := 2, y := 3 })) ∧
    (∀ row ∈ vnarrowRows, Ready demo thr (row.1 { pre := bare, iw := .i32, q := true, vd := 1, x := 2 })) ∧
    (∀ row ∈ vwidenRows, Ready demo thr (row.1 { pre := bare, iw := .i16, q := true, vd := 1, x := 2 })) ∧
    (∀ row ∈ vunaryRows, Ready demo thr (row.1 { pre := bare, iw := .i32, vd := 1, x := 2 })) :=
  ⟨ready_rows _ _ (by decide +kernel), ready_rows _ _ (by decide +kernel), ready_rows _ _ (by decide +kernel), ready_rows _ _ (by decide +kernel),
    ready_rows _ _ (by decide +kernel), ready_rows _ _ (by decide +kernel), ready_rows _ _ (by decide +kernel)⟩
theorem test_meets_vector_moves : Ready demo thr (.vsel { pre := bare, iw := .i32, vd := 1, x := 2, y := 3, k := 7 }) ∧
    Ready demo thr (.vbcast { pre := bare, iw := .i8, vd := 1, g := 10 }) ∧ Ready demo thr (.vext { pre := bare, iw := .i8, rd := 1, x := 2, i := 127 }) ∧
    Ready demo thr (.vins { pre := bare, iw := .i64, vd := 1, g := 10, i := 15 }) ∧ Ready demo thr (.vshuf { pre := bare, iw := .i32, vd := 7, x := 8, y := 9 }) ∧
    Ready demo thr (.vperm { pre := bare, iw := .i32, vd := 7, x := 8, mode := 0, k := 31 }) ∧
    Ready demo thr (.vrot { pre := bare, iw := .i32, gs := 5, vd := 7, x := 8, y := .imm 31 }) ∧
    Ready demo thr (.vvoteAny { pre := bare, pd := 1, x := 0, gs := 5 }) ∧ Ready demo thr (.vvoteAll { pre := bare, pd := 1, x := 0, gs := 1 }) ∧
    Ready demo thr (.vvoteBallot { pre := bare, rd := 1, x := 0 }) ∧ Ready demo thr (.vmatch { pre := bare, iw := .i64, vd := 1, x := 2 }) :=
  ⟨ready_demo (by decide +kernel), ready_demo (by decide +kernel), ready_demo (by decide +kernel), ready_demo (by decide +kernel), ready_demo (by decide +kernel),
    ready_demo (by decide +kernel), ready_demo (by decide +kernel), ready_demo (by decide +kernel), ready_demo (by decide +kernel), ready_demo (by decide +kernel),
    ready_demo (by decide +kernel)⟩
theorem test_meets_reductions : (∀ row ∈ vfredRows, Ready demo thr (row.1 { pre := bare, fmt := .f32, rm := .dyn, gs := 5, vd := 1, x := 2 })) ∧
    (∀ row ∈ vfscanRows, Ready demo thr (row.1 { pre := bare, fmt := .f64, rm := .dyn, ex := true, gs := 4, vd := 1, x := 2 })) ∧
    (∀ row ∈ viredRows, Ready demo thr (row.1 { pre := bare, iw := .i8, gs := 7, vd := 1, x := 2 })) ∧
    (∀ row ∈ viscanRows, Ready demo thr (row.1 { pre := bare, iw := .i64, ex := false, gs := 1, vd := 1, x := 2 })) :=
  ⟨ready_rows _ _ (by decide +kernel), ready_rows _ _ (by decide +kernel), ready_rows _ _ (by decide +kernel), ready_rows _ _ (by decide +kernel)⟩
theorem test_meets_vector_conversions : Ready demo thr (.vfcvt { pre := bare, dst := .f16, src := .f32, rm := .dyn, q := 1, vd := 1, x := 2 }) ∧
    Ready demo thr (.vfcvt { pre := bare, dst := .f64, src := .f16, rm := .dyn, q := 3, vd := 1, x := 2 }) ∧
    Ready demo thr (.vftoi { pre := bare, fmt := .f32, rm := .dyn, vd := 1, x := 2 }) ∧ Ready demo thr (.vftoiu { pre := bare, fmt := .f32, rm := .dyn, vd := 1, x := 2 }) ∧
    Ready demo thr (.vitof { pre := bare, fmt := .f32, rm := .dyn, vd := 1, x := 2 }) ∧ Ready demo thr (.viutof { pre := bare, fmt := .f32, rm := .dyn, vd := 1, x := 2 }) ∧
    (nfFmt thr.regs.nf[(4 : NfReg)]).any (fun f => decide (3 ≤ groupMax f.width) && decide (groupMax f.width < 8)) = true ∧
    Ready demo thr (.vfton { pre := bare, sat := false, rm := .dyn, nf := 4, q := 3, vd := 1, x := 2 }) ∧
    Ready demo thr (.vntof { pre := bare, sat := false, rm := .dyn, nf := 4, q := 3, vd := 1, x := 2 }) ∧
    Ready demo thr (.vmxsc { pre := bare, rd := 1, x := 2, nf := 4 }) ∧ Ready demo thr (.vmxpk { pre := bare, rm := .rne, nf := 4, q := 0, vd := 3, x := 2, g := 10 }) ∧
    Ready demo thr (.vmxunpk { pre := bare, rm := .dyn, nf := 4, q := 0, vd := 3, x := 2, g := 10 }) :=
  ⟨ready_demo (by decide +kernel), ready_demo (by decide +kernel), ready_demo (by decide +kernel), ready_demo (by decide +kernel), ready_demo (by decide +kernel),
    ready_demo (by decide +kernel), by decide +kernel, ready_demo (by decide +kernel), ready_demo (by decide +kernel), ready_demo (by decide +kernel),
    ready_demo (by decide +kernel), ready_demo (by decide +kernel)⟩

end Sys2Proof.Tests

/-! ## Control, traps and accesses -/

namespace Sys2Proof.Tests
open Sys2Proof Sys2Proof.Machine
set_option Elab.async false

noncomputable section

/-- The example thread with one general register set. -/
def gThr (r : GReg) (x : Dword) : Thread := { thr with regs := thr.regs.setG r x }

/-- The same in the handler. -/
def inH (r : GReg) (x : Dword) : Thread := { gThr r x with inHandler := true }

/-- A grid that handles traps of every class, and its thread with a stack pointer in its own stack. -/
def trapGrid : Grid := { placedGrid with hdr := { placedHeader with trapen := 0x7F, trapvec := 0x40 } }
def trapState (t : Thread) : State := modPkg (withT t) 1 (fun k => { k with grids := k.grids.set 0 (some trapGrid) })

end

/-- The operands of the example state, by what the registers hold. -/
theorem test_example_registers : readG 0 thr 8 = 0x800200000100#64 ∧ readG 0 thr 9 = 7 ∧ readG 0 thr 10 = 0xFFFFFFFFFFFFFFFF#64 := by decide +kernel

theorem test_meets_branches : (∀ row ∈ branchRows, Ready demo thr (row.1 { sw := false, neg := false, pn := 0, off := 0x1FFFE / 2 })) ∧
    (∀ row ∈ branchRows, row.2 (readP thr 0) = true ∧ row.2 (~~~(readP thr 0)) = false) ∧ inImem ((thr.pc : Int) + 2 * (0x1FFFE / 2)) ∧
    ¬ inImem ((thr.pc : Int) + 2 * (0x20000 / 2)) ∧ ¬ inImem ((thr.pc : Int) + 2 * (-1)) :=
  ⟨ready_rows _ _ (by decide +kernel), by decide +kernel, by unfold inImem; decide +kernel, by unfold inImem; decide +kernel, by unfold inImem; decide +kernel⟩
theorem test_meets_calls : Ready demo thr (.call { pre := bare, link := 1, off := 50 }) ∧ inImem ((thr.pc : Int) + 2 * 50) ∧
    Ready demo thr (.jmp { pre := bare, link := 0, tgt := 9 }) ∧ ¬ inImem ((operand demo thr (.jmp { pre := bare, link := 0, tgt := 9 }) 0).toNat : Int) ∧
    Ready demo thr (.jmp { pre := bare, link := 1, tgt := 0 }) ∧ inImem ((operand demo thr (.jmp { pre := bare, link := 1, tgt := 0 }) 0).toNat : Int) :=
  ⟨ready_demo (by decide +kernel), by unfold inImem; decide +kernel, ready_demo (by decide +kernel), by unfold inImem; decide +kernel, ready_demo (by decide +kernel),
    by unfold inImem; decide +kernel⟩

def jov (g : GReg) (target : Nat) : Instr := .jov { pre := bare, g := g, target := target }
theorem test_meets_segments : Ready demo thr (jov 0 62) ∧ (operand demo thr (jov 0 62) 0).toNat = 0 ∧ segmentHere demo 0 = true ∧ inImem (62 : Nat) ∧
    fitsSegment (getCore demo c0) 0 62 ∧ ¬ fitsSegment (getCore demo c0) 0 64 ∧ 2 ^ 16 ≤ (operand demo thr (jov 10 0) 0).toNat ∧
    Ready demo thr (jov 9 0) ∧ segmentHere demo 7 = false ∧ isPending (getCore demo c0) 7 = false :=
  ⟨ready_demo (by decide +kernel), by decide +kernel, by decide +kernel, by unfold inImem; decide, by unfold fitsSegment; decide +kernel, by unfold fitsSegment; decide +kernel,
    by decide +kernel, ready_demo (by decide +kernel), by decide +kernel, by decide +kernel⟩
theorem test_meets_tret : Ready demo thr (.tret { pre := bare, g := 9 }) ∧ thr.inHandler = false ∧
    let t := inH 9 0x3E#64
    Ready (withT t) t (.tret { pre := bare, g := 9 }) ∧ t.inHandler = true ∧ (operand (withT t) t (.tret { pre := bare, g := 9 }) 0).toNat = 0 * 2 ^ 32 + 0x3E ∧
      segmentHere (withT t) 0 = true ∧ inImem (0x3E : Nat) ∧ fitsSegment (getCore (withT t) c0) 0 0x3E :=
  ⟨ready_demo (by decide +kernel), rfl, ready_of rfl rfl rfl rfl (by decide +kernel), rfl, by decide +kernel, by decide +kernel, by unfold inImem; decide,
    by unfold fitsSegment; decide +kernel⟩

def enter (n : Nat) : Instr := .enter { pre := bare, n := n }
theorem test_meets_enter : Ready demo thr (enter 4096) ∧ (operand demo thr (enter 4096) 0).toNat % 16 = 0 ∧ thr.slim.toNat = (operand demo thr (enter 4096) 0).toNat - 4096 ∧
    (issueAddr c0 (BitVec.ofInt 64 (0x800200080000 - 4096 + 4096 - 8)) 8 8).isRight = true ∧ Ready demo thr (enter 4112) ∧
    ((operand demo thr (enter 4112) 0).toNat : Int) - 4112 < thr.slim.toNat ∧
    (let t := gThr 2 0x80020007FFF8#64
     Ready (withT t) t (enter 16) ∧ (operand (withT t) t (enter 16) 0).toNat % 16 ≠ 0) :=
  ⟨ready_demo (by decide +kernel), by decide +kernel, by decide +kernel, by decide +kernel, ready_demo (by decide +kernel), by decide +kernel,
    ready_of rfl rfl rfl rfl (by decide +kernel), by decide +kernel⟩
theorem test_meets_leave : let t := gThr 2 0x80020007F000#64
    Ready (withT t) t (.leave { pre := bare, n := 4096 }) ∧
      (issueAddr c0 (operand (withT t) t (.leave { pre := bare, n := 4096 }) 0 + dw 4096 - 8) 8 1).isRight = true :=
  ⟨ready_of rfl rfl rfl rfl (by decide +kernel), by decide +kernel⟩
theorem test_meets_trap_instructions : (∀ row ∈ trapRows, Ready demo thr (row.1 { pre := bare, code := 31 })) ∧ Ready demo thr (.ecall { pre := bare, n := 1023 }) :=
  ⟨ready_rows _ _ (by decide +kernel), ready_demo (by decide +kernel)⟩

def aTrap : TrapInfo := { cls := clsTrap, cause := 5, addr := 0, aux := 0, pc := 0, seg := 0, words := [0x1000#16] }
theorem test_meets_user_trap : let s := trapState thr
    getT s c0 0 = some thr ∧ gridOf s c0 thr = some trapGrid ∧ userHandled s c0 thr aTrap = true ∧
      resolve c0 (thr.regs.g[(2 : Fin 64)] - 64) = some (0x80000007FFC0#64) ∧ (drainThread s c0 0).redirects = [] ∧ Memory.wf (drainThread s c0 0).mem = true ∧
      userHandled demo c0 thr aTrap = false ∧ (let t := { thr with acc := [someAccess] }; getT (withT t) c0 0 = some t ∧ ¬ (t.out = [] ∧ t.acc = [])) :=
  ⟨rfl, rfl, by decide +kernel, by decide +kernel, by decide +kernel, by decide +kernel, by decide +kernel, rfl, by simp⟩

/-- An own scratchpad address, by its window's alias and by its place (R76), at the ends of the window. -/
theorem test_meets_addresses : issueAddr c0 0x1000000000000000#64 1 1 = .inl 1 ∧ windowOf (locOf 0x80000007FFFF#64) = .spad 0 ∧
    windowOf (locOf 0x80000007FFFC#64) ≠ windowOf (locOf 0x80000007FFFC#64 + 8 - 1) ∧ windowOf (locOf 0x800000000000#64) ≠ .ownSpad := by decide +kernel

def memOps (data base : GReg) (size : Size) (off : Off) : MemOps := { pre := bare, os := OrdSc.plain, size := size, data := data, base := base, off := off }
def okAddr (n al : Nat) (a : Dword) : Bool := (issueAddr c0 a n al).isRight
theorem test_meets_loads : (∀ row ∈ loadRows, Ready demo thr (row.1 (memOps 5 8 .h (.imm (-2))))) ∧
    (∀ row ∈ loadRows, okAddr 2 2 (addressOf demo thr (row.1 (memOps 5 8 .h (.imm (-2)))) (.imm (-2))) = true) ∧
    (∀ row ∈ loadRows, Ready demo thr (row.1 (memOps 5 10 .b .none)) ∧ okAddr 1 1 (addressOf demo thr (row.1 (memOps 5 10 .b .none)) .none) = false) :=
  ⟨ready_rows _ _ (by decide +kernel), by decide +kernel, fun row h => ⟨ready_rows _ _ (by decide +kernel) row h, by revert row; decide +kernel⟩⟩
theorem test_meets_stores : (∀ row ∈ storeRows, Ready demo thr (row.1 (memOps 5 8 .d .none))) ∧
    (∀ row ∈ storeRows, okAddr 8 8 (addressOf demo thr (row.1 (memOps 5 8 .d .none)) .none) = true) ∧
    (∀ row ∈ storeRows, Ready demo thr (row.1 (memOps 5 10 .b .none)) ∧ okAddr 1 1 (addressOf demo thr (row.1 (memOps 5 10 .b .none)) .none) = false) ∧
    Ready demo thr (.ffill (memOps 5 8 .w .none)) ∧ okAddr 4 1 (addressOf demo thr (.ffill (memOps 5 8 .w .none)) .none) = true ∧
    fillOk true 4 0x800000000100#64 = true ∧ Ready demo thr (.fclr { pre := bare, os := OrdSc.plain, b := 8 }) ∧
    okAddr 128 1 (dw ((operand demo thr (.fclr { pre := bare, os := OrdSc.plain, b := 8 }) 0).toNat / 128 * 128)) = true ∧ fillOk true 128 0x800000000100#64 = true :=
  ⟨ready_rows _ _ (by decide +kernel), by decide +kernel, fun row h => ⟨ready_rows _ _ (by decide +kernel) row h, by revert row; decide +kernel⟩,
    ready_demo (by decide +kernel), by decide +kernel, by decide +kernel, ready_demo (by decide +kernel), by decide +kernel, by decide +kernel⟩
theorem test_meets_atomics : (∀ row ∈ atomRows, Ready demo thr (row.1 { pre := bare, os := OrdSc.plain, w := .w, rd := 5, base := 8, y := .imm (-1) })) ∧
    okAddr 4 4 (readG 0 thr 8) = true ∧ okAddr 4 4 (readG 0 thr 9) = false ∧
    (∀ row ∈ atomRows, Ready demo thr (row.1 { pre := bare, os := OrdSc.plain, w := .w, rd := 5, base := 9, y := .reg 0 })) ∧
    Ready demo thr (.acas { pre := bare, os := OrdSc.plain, w := .d, rd := 5, base := 8, c := 9 }) ∧
    (∀ row ∈ afaddRows, Ready demo thr (row.1 { pre := bare, os := OrdSc.plain, rd := 5, base := 8, y := 9 })) :=
  ⟨ready_rows _ _ (by decide +kernel), by decide +kernel, by decide +kernel, ready_rows _ _ (by decide +kernel), ready_demo (by decide +kernel),
    ready_rows _ _ (by decide +kernel)⟩
theorem test_meets_vector_accesses : Ready demo thr (.vld { pre := bare, v := 1, base := 8, off := .none }) ∧
    Ready demo thr (.vst { pre := bare, v := 1, base := 8, off := .imm 32 }) ∧ (laneAddrs c0 0x800200000100#64 (List.range 32)).isRight = true ∧
    (laneAddrs c0 0x800000000100#64 [31]).isRight = true ∧ Ready demo thr (.vgatherW { pre := bare, sc := 3, v := 1, base := 8, idx := 2 }) ∧
    Ready demo thr (.vscatterD { pre := bare, sc := 0, v := 1, base := 8, idx := 2 }) ∧ (elemAddrs c0 8 [0x800200000100#64, 0x800200000108#64]).isRight = true :=
  ⟨ready_demo (by decide +kernel), ready_demo (by decide +kernel), by decide +kernel, by decide +kernel, ready_demo (by decide +kernel),
    ready_demo (by decide +kernel), by decide +kernel⟩
theorem test_meets_fragment : let t := gThr 9 8#64
    let i := Instr.ldf { pre := bare, half := true, v := 1, base := 8, pitch := 9 }
    Ready (withT t) t i ∧ (operand (withT t) t i 0).toNat % 8 = 0 ∧ (operand (withT t) t i 1).toNat % 8 = 0 ∧
      ((fragElems 2 0xFFFFFFFF#32).map (fun x => (0x800200000100#64 : Dword) + dw (x.1 * 8 + 2 * x.2))).all (fun a => (ownSpad c0 a 2).isSome) = true :=
  ⟨ready_of rfl rfl rfl rfl (by decide +kernel), by decide +kernel, by decide +kernel, by decide +kernel⟩

end Sys2Proof.Tests

/-! ## Posted items, threads, futures, flags, barriers -/

namespace Sys2Proof.Tests
open Sys2Proof Sys2Proof.Machine
set_option Elab.async false

noncomputable section

/-- An access is judged to be allowed. -/
def isOk (s : State) (w : Who) (a : Dword) (n : Nat) (k : AKind) : Bool := match (judge s w a n k).2 with | .ok _ _ => true | _ => false
def okAt (s : State) (w : Who) (a : Dword) (n : Nat) (k : AKind) : State × Nat := match judge s w a n k with | (z, .ok ph _) => (z, ph) | (z, _) => (z, 0)

/-- The example state with domain 1, its root at 0x800000000200, and memory given. -/
def domMem : List Host.Cell := [(2 ^ 48 + 0x1008, 0x00), (2 ^ 48 + 0x1009, 0x02), (2 ^ 48 + 0x100A, 0x00), (2 ^ 48 + 0x100B, 0x00), (2 ^ 48 + 0x100C, 0x00),
  (2 ^ 48 + 0x100D, 0x80), (2 ^ 48 + 0x100E, 0x00), (2 ^ 48 + 0x100F, 0x80)]
def domState (t : Thread) (m : List Host.Cell) : State :=
  { modBlock (withT t) 1 0 (fun b => { b with domtab := 0x0001000000001000#64 }) with mem := domMem ++ m }
def dThr : Thread := { thr with domain := 1, weight := 4 }

/-- Whether a posted item's target and flag are as the statements ask. -/
def postB (s : State) (i : Instr) (target flag : Dword) (n align : Nat) (fill : Bool) : Bool :=
  match issueAddr s.cur.core target n align, issueFlag (settled s i) s.cur.core flag with
  | .inr a, .inr _ => decide (windowOf (locOf a) ≠ .none) && itemRoom (settled s i) s.cur.core && fillOk fill n a
  | _, _ => false

end

theorem ok_of {s : State} {w : Who} {a : Dword} {n : Nat} {k : AKind} (h : isOk s w a n k = true) :
    ∃ host, judge s w a n k = ((okAt s w a n k).1, .ok (okAt s w a n k).2 host) := by
  unfold isOk at h; unfold okAt
  rcases hj : judge s w a n k with ⟨z, j⟩
  rw [hj] at h
  cases j <;> simp_all

theorem post_of {s : State} {i : Instr} {target flag : Dword} {n al : Nat} {fill : Bool} (h : postB s i target flag n al fill = true) :
    ∃ a f, postable s i target flag n al a f ∧ fillOk fill n a = true := by
  unfold postB at h
  split at h
  · next a f ha hf => simp only [Bool.and_eq_true, decide_eq_true_eq] at h; exact ⟨a, f, ⟨⟨ha, hf, h.1.1⟩, h.1.2⟩, h.2⟩
  · cases h

/-- An instruction is ready in the example state with a domain. -/
theorem ready_dom {i : Instr} {t : Thread} {m : List Host.Cell} (hn : t.net = false) (ho : t.out = []) (ha : t.acc = [])
    (h : readyB (domState t m) t i = true) : Ready (domState t m) t i := ready_of rfl hn ho ha h

theorem test_meets_fences : ∀ row ∈ fenceRows, Ready demo thr (row { pre := bare, os := OrdSc.plain }) ∧ (thr.out = [] ∧ thr.acc = []) ∧
    let t := { thr with acc := [someAccess] }; inHand (withT t) t ∧ ¬ (t.out = [] ∧ t.acc = []) := fun row h =>
  ⟨ready_demo (by revert row; decide +kernel), ⟨rfl, rfl⟩, rfl, by simp⟩

def stp8 (wt : Bool) : Instr := .stp { pre := bare, os := OrdSc.plain, fill := true, wt := wt, data := .g .d 9, base := 8, flag := none }
theorem test_meets_posted_store : readyB demo thr (stp8 false) = true ∧ (∃ a f, postable demo (stp8 false) (operand demo thr (stp8 false) 0) 0 8 8 a f ∧ fillOk true 8 a = true) ∧
    Ready (domState dThr []) dThr (stp8 true) ∧ dThr.domain ≠ 0 ∧ 2 ≤ dThr.weight :=
  ⟨by decide +kernel, post_of (by decide +kernel), ready_dom rfl rfl rfl (by decide +kernel), by decide +kernel, by decide +kernel⟩
theorem test_meets_posted_vector : let i := Instr.stp { pre := bare, os := OrdSc.plain, fill := true, wt := false, data := .v 3, base := 8, flag := some 8 }
    Ready demo thr i ∧ ∃ a f, postable demo i (operand demo thr i 0) (operand demo thr i 1) 128 32 a f ∧ fillOk true 128 a = true :=
  ⟨ready_demo (by decide +kernel), post_of (by decide +kernel)⟩
theorem test_meets_getl : let i := Instr.getl { pre := bare, os := OrdSc.plain, fill := false, dst := 8, src := 8, flag := none }
    Ready demo thr i ∧ (operand demo thr i 0).toNat % 128 = 0 ∧ (ownSpad c0 (operand demo thr i 0) 128).isSome = true ∧
      (∃ a f, postable demo i (operand demo thr i 1) 0 128 32 a f ∧ fillOk false 128 a = true) ∧
      Ready demo thr (.getl { pre := bare, os := OrdSc.plain, fill := false, dst := 9, src := 8, flag := none }) ∧
      (operand demo thr (.getl { pre := bare, os := OrdSc.plain, fill := false, dst := 9, src := 8, flag := none }) 0).toNat % 128 ≠ 0 :=
  ⟨ready_demo (by decide +kernel), by decide +kernel, by decide +kernel, post_of (by decide +kernel), ready_demo (by decide +kernel), by decide +kernel⟩
theorem test_meets_reductions_posted :
    (∀ row ∈ redRows, readyB demo thr (row.1 { pre := bare, os := OrdSc.plain, w := .w, data := 9, base := 8, flag := none }) = true ∧
      postB demo (row.1 { pre := bare, os := OrdSc.plain, w := .w, data := 9, base := 8, flag := none }) 0x800200000100#64 0 4 4 false = true) ∧
    (∀ row ∈ redFaddRows, readyB demo thr (row.1 { pre := bare, os := OrdSc.plain, data := 9, base := 8, flag := some 8 }) = true ∧
      postB demo (row.1 { pre := bare, os := OrdSc.plain, data := 9, base := 8, flag := some 8 }) 0x800200000100#64 0x800200000100#64 row.2.2 row.2.2 false = true) ∧
    (∀ row ∈ taddRows, readyB demo thr (row.1 { pre := bare, os := OrdSc.plain, v := 3, base := 8, flag := none }) = true ∧
      postB demo (row.1 { pre := bare, os := OrdSc.plain, v := 3, base := 8, flag := none }) 0x800200000100#64 0 128 32 false = true) := by
  refine ⟨?_, ?_, ?_⟩ <;> decide +kernel

def spawnI (b : GReg) (y : Src) : Instr := .spawn { pre := bare, rd := 20, b := b, start := y }
/-- A grid of kernels with room for more threads on a core. -/
def roomGrid : Grid := { placedGrid with hdr := { placedHeader with a := 1 } }
def spawnState (t : Thread) : State := modPkg (domState t []) 1 (fun k => { k with grids := k.grids.set 0 (some roomGrid) })
def fullRing (s : State) : State := modHub s 1 0 (fun h => { h with ring := (List.range 256).map (fun i => { slot := i, prio := 0, order := i }) })
theorem test_meets_spawn : let t := { dThr with regs := thr.regs.setG 11 0#64 }
    let z := settled (spawnState t) (spawnI 10 (.imm 62))
    readyB (spawnState t) t (spawnI 10 (.imm 62)) = true ∧ operand (spawnState t) t (spawnI 10 (.imm 62)) 0 = 0xFFFFFFFFFFFFFFFF#64 ∧ inImem (62 : Nat) ∧
      gridOf z c0 t = some roomGrid ∧ readyB (spawnState t) t (spawnI 0 (.reg 11)) = true ∧ coreIn z 1 t.pid 0 = true ∧ (getCore z c0).tenancy = t.gslot ∧
      reserveOn z 1 0 roomGrid.hdr 0 0 [0] = .slot 0 1 ∧ reserveOn z 1 0 roomGrid.hdr 0 0 [1] = .ring 0 ∧
      reserveOn (fullRing z) 1 0 roomGrid.hdr 0 0 [1] = .refused :=
  ⟨by decide +kernel, by decide +kernel, by unfold inImem; decide, by decide +kernel, by decide +kernel,
    by decide +kernel, by decide +kernel, by decide +kernel, by decide +kernel, by decide +kernel⟩

def quitI : Instr := .quit { pre := bare }
def suspI : Instr := .susp { pre := bare }
theorem test_meets_ends : Ready demo thr quitI ∧ thr.domain = 0 ∧ endHold (settled demo quitI) (ctxOf demo thr quitI) = none ∧
    Ready (domState dThr []) dThr quitI ∧ dThr.domain ≠ 0 ∧ endHold (settled (domState dThr []) quitI) (ctxOf (domState dThr []) dThr quitI) = none ∧
    rootOf (settled (domState dThr []) quitI) 1 dThr.pid dThr.domain = some (0x800000000200#64, false) ∧
    (∃ host, judge (settled (domState dThr []) quitI) (whoOf c0 dThr) 0x800000000200#64 8 .rmw = ((okAt (settled (domState dThr []) quitI) (whoOf c0 dThr) 0x800000000200#64 8 .rmw).1,
      .ok (okAt (settled (domState dThr []) quitI) (whoOf c0 dThr) 0x800000000200#64 8 .rmw).2 host)) ∧
    Ready demo thr suspI ∧ endHold (settled demo suspI) (ctxOf demo thr suspI) = none ∧
    (ringFree (getHub (settled demo suspI) 1 0)).isSome = true ∧ markerOf thr suspI = false :=
  ⟨ready_demo (by decide +kernel), rfl, by decide +kernel, ready_dom rfl rfl rfl (by decide +kernel), by decide +kernel, by decide +kernel, by decide +kernel,
    ok_of (by decide +kernel), ready_demo (by decide +kernel), by decide +kernel, by decide +kernel, by decide +kernel⟩
theorem test_meets_quit_jump : let t := gThr 1 0
    let i := Instr.jmp { pre := bare, link := 0, tgt := 1 }
    Ready (withT t) t i ∧ operand (withT t) t i 0 = 0 ∧ t.domain = 0 ∧ endHold (drainThread (withT t) c0 0) (ctxOf (withT t) t i) = none :=
  ⟨ready_of rfl rfl rfl rfl (by decide +kernel), by decide +kernel, rfl, by decide +kernel⟩

def fldI (d : Bool) : Instr := if d then .fldS (memOps 5 8 .d .none) else .fld (memOps 5 8 .d .none)
theorem test_meets_future : ∀ d : Bool, readyB demo thr (fldI d) = true ∧ issueAddr c0 (addressOf demo thr (fldI d) .none) 8 1 = .inr 0x800000000100#64 ∧
    isOk (settled demo (fldI d)) (whoOf c0 thr) 0x800000000100#64 8 .read = true ∧
    lineEmpty (okAt (settled demo (fldI d)) (whoOf c0 thr) 0x800000000100#64 8 .read).1 thr.gslot (okAt (settled demo (fldI d)) (whoOf c0 thr) 0x800000000100#64 8 .read).2 = false := by
  intro d; cases d <;> decide +kernel

def waitcI : Instr := .waitc { pre := bare, rd := 20, b := 8, n := .imm 5 }
def atFlag (s : State) (t : Thread) (i : Instr) : State × Nat := okAt (settled s i) (whoOf c0 t) 0x800000000100#64 8 .read
theorem test_meets_waitc : Ready demo thr waitcI ∧ thr.woken = none ∧ issueAddr c0 (operand demo thr waitcI 0) 8 8 = .inr 0x800000000100#64 ∧
    isOk (settled demo waitcI) (whoOf c0 thr) 0x800000000100#64 8 .read = true ∧
    reached (leNat (readJudged (atFlag demo thr waitcI).1 (whoOf c0 thr) 0x800000000100#64 (atFlag demo thr waitcI).2 8)) 5 = false ∧
    reached (leNat (readJudged (atFlag demo thr waitcI).1 (whoOf c0 thr) 0x800000000100#64 (atFlag demo thr waitcI).2 8)) 0 = true ∧ markerOf thr waitcI = false :=
  ⟨ready_demo (by decide +kernel), rfl, by decide +kernel, by decide +kernel, by decide +kernel, by decide +kernel, by decide +kernel⟩

/-- R94: the comparison at the ends of its range. -/
theorem test_reached_ends : reached 5 5 = true ∧ reached 4 5 = false ∧ reached (2 ^ 31 + 4) 5 = true ∧ reached (2 ^ 31 + 5) 5 = false ∧ reached 3 0xFFFFFFFE = true := by decide

def wquietI : Instr := .wquiet { pre := bare, b := 11 }
theorem test_meets_wquiet : let t := { thr with regs := thr.regs.setG 11 1 }
    let s := domState t [(2 ^ 48 + 0x800000000207, 0x80)]
    Ready s t wquietI ∧ (operand s t wquietI 0).toNat = 1 ∧ rootOf (settled s wquietI) 1 0 1 = some (0x800000000200#64, false) ∧ t.weight = 0 ∧ t.woken = none ∧
      isOk (settled s wquietI) (whoOf c0 t) 0x800000000200#64 8 .read = true ∧
      readNat (okAt (settled s wquietI) (whoOf c0 t) 0x800000000200#64 8 .read).1 t.gslot (okAt (settled s wquietI) (whoOf c0 t) 0x800000000200#64 8 .read).2 8 = 2 ^ 63 ∧
      readNat (okAt (settled (domState t []) wquietI) (whoOf c0 t) 0x800000000200#64 8 .read).1 t.gslot
        (okAt (settled (domState t []) wquietI) (whoOf c0 t) 0x800000000200#64 8 .read).2 8 ≠ 2 ^ 63 :=
  ⟨ready_dom rfl rfl rfl (by decide +kernel), by decide +kernel, by decide +kernel, rfl, rfl, by decide +kernel, by decide +kernel, by decide +kernel⟩

def armI (dis inc : Bool) : Instr :=
  let o : RrrOps := { pre := bare, rd := if inc then 8 else 9, b := 8, c := if dis && inc then 8 else 9 }
  if dis then (if inc then .disarmInc o else .disarmMsg o) else if inc then .armInc o else .armMsg o
theorem test_meets_arms : ∀ dis inc : Bool, readyB demo thr (armI dis inc) = true ∧ issueAddr c0 (operand demo thr (armI dis inc) 0) 8 8 = .inr 0x800000000100#64 ∧
    isOk (settled demo (armI dis inc)) (whoOf c0 thr) 0x800000000100#64 8 .read = true ∧ (operand demo thr (armI dis false) 1).toNat < 2 ^ 32 ∧
    issueAddr c0 (operand demo thr (armI dis true) 1) 8 8 = .inr 0x800000000100#64 ∧ eddyUsed (atFlag demo thr (armI dis inc)).1 c0 < 64 ∧
    reached (leNat (readJudged (atFlag demo thr (armI dis inc)).1 (whoOf c0 thr) 0x800000000100#64 (atFlag demo thr (armI dis inc)).2 8)) 7 = false ∧
    armRoom (atFlag demo thr (armI dis inc)).1 (atFlag demo thr (armI dis inc)).2 = true := by decide +kernel

/-- A reel unit of the crew, enabled, for 2 arrivals of each core in phase 9. -/
def reelOf (now next : Nat) : Reel := { reg := 0x8000000904000000#64, now := now, next := next, owner := some 0, era := 0 }
def reelState (r : Reel) : State := modCore demo c0 (fun k => { k with reel := k.reel.setIfInBounds 3 r })
def barI (w : Bool) : Instr := if w then .barWait { pre := bare, g := 9, k := 3 } else .barArrive { pre := bare, g := 9, k := 3 }
def barTestI : Instr := .barTest { pre := bare, rd := 20, x := 9, k := 3 }
theorem test_meets_reels : ∀ r ∈ [reelOf 0 0, reelOf 1 0, reelOf 2 0, reelOf 2 2], let s := reelState r
    (∀ w, readyB s thr (barI w) = true ∧ reelUsable (settled s (barI w)) (ctxOf s thr (barI w)) 3 = some r) ∧
      readyB s thr barTestI = true ∧ reelUsable s (ctxOf s thr barTestI) 3 = some r ∧ reelUsable demo (ctxOf demo thr barTestI) 3 = none ∧
      r.reg.toNat / 2 ^ 32 % 2 ^ 16 = 9 ∧ r.reg.toNat / 2 ^ 26 % 16 + 1 = 2 ∧ (operand s thr (barI true) 0).toNat = 7 := by decide +kernel

def growI : Instr := .grow { pre := bare, rd := 20, y := .imm 15 }
def growState (g : Grid) : State := modPkg demo 1 (fun k => { k with grids := k.grids.set 0 (some g) })
theorem test_meets_grow : ∀ g ∈ [placedGrid, { placedGrid with st := .faulted }, { placedGrid with coloc := true }, { placedGrid with gcount := 2 ^ 32 - 15 }],
    readyB (growState g) thr growI = true ∧ gridOf (settled (growState g) growI) c0 thr = some g ∧ (sourceAt (growState g) thr growI 0 (.imm 15)).toNat = 15 := by
  decide +kernel
theorem test_meets_wsplit : let t := { dThr with regs := thr.regs.setG 11 1 }
    let s := setT (domState t []) c0 1 (some dThr)
    let i := Instr.wsplit { pre := bare, rd := 20, b := 11 }
    readyB s t i = true ∧ (operand s t i 0).toNat = 1 ∧ getT (settled s i) c0 1 = some dThr ∧ t.domain = dThr.domain ∧ 2 ≤ t.weight ∧
      getT (settled (domState t []) i) c0 1 = none := by decide +kernel
def ibxI (x : Bool) : Instr := if x then .ibxT { pre := bare, rd := 20 } else .ibx { pre := bare, rd := 20 }
theorem test_meets_inbox : ∀ x, readyB demo thr (ibxI x) = true ∧ (getCore (settled demo (ibxI x)) c0).inbox = [] ∧
    let s := modCore demo c0 (fun k => { k with inbox := [{ crew := 0, d0 := 1, d1 := 2, d2 := 3, d3 := 4 }] })
    readyB s thr (ibxI x) = true ∧ (getCore (settled s (ibxI x)) c0).inbox ≠ [] := by decide +kernel

end Sys2Proof.Tests

/-! ## System instructions -/

namespace Sys2Proof.Tests
open Sys2Proof Sys2Proof.Machine
set_option Elab.async false

noncomputable section

/-- The example thread on fault processor 0 of package 1. -/
def f0 : CoreId := { pkg := 1, n := 8192 }
def fpState (t : Thread) : State := onCore f0 t
def srrI (n : Nat) : Instr := .srr { pre := bare, g := 20, num := n }
def srwI (n : Nat) : Instr := .srw { pre := bare, g := 9, num := n }

/-- Sixty-four bits at an address. -/
def dwordAt (a x : Nat) : List Host.Cell := (List.range 8).map (fun i => (2 ^ 48 + a + i, BitVec.ofNat 8 (x / 2 ^ (8 * i))))

/-- Translation of partition 0 in which the page at 0x50000 of address space 0 lies at 0x60000. -/
def xlatMem (discard : Nat) : List Host.Cell := dwordAt 0 0x1000 ++ (dwordAt 0x1000 (2 ^ 63 + 0x2000) ++ dwordAt 0x1008 (2 ^ 48 + 0x3000)) ++
  dwordAt 0x2000 (2 ^ 63 + 0x10000) ++ (dwordAt 0x3000 0 ++ dwordAt 0x3008 (2 ^ 40) ++ dwordAt 0x3010 (2 ^ 63 + 2 ^ 36) ++ dwordAt 0x3018 0) ++
  dwordAt 0x10000 (2 ^ 63 + 0x20000) ++ dwordAt 0x20000 (2 ^ 63 + 0x30000) ++ dwordAt 0x30050 (2 ^ 63 + 2 ^ 61 + 2 ^ 58 + discard * 2 ^ 59 + 0x60000)
def xlatState (discard : Nat) (t : Thread) : State := { fpState t with mem := xlatMem discard }
def pageThr : Thread := { thr with regs := (thr.regs.setG 11 0x50000#64).setG 12 0#64 }

end

theorem test_meets_user_sr : (∀ x ∈ userSr demo thr, readyB demo thr (srrI x.1) = true) ∧ demo.cur.core.n < 8192 ∧ gridOf demo c0 thr = some placedGrid ∧
    readyB demo thr (srrI 7) = true ∧ readyB demo thr (srrI 14) = true ∧ placedGrid.pools.find? (fun x => decide (x.1 = 0)) = none ∧
    (let g := { placedGrid with pools := [(0, 256)] }; gridOf (growState g) c0 thr = some g ∧ g.pools.find? (fun x => decide (x.1 = 0)) = some (0, 256)) ∧
    readyB demo thr (srrI 12) = true ∧ readyB demo thr (srwI 12) = true ∧ thr.out = [] ∧
    (let s := reelState (reelOf 0 0); readyB s thr (srrI 19) = true ∧ (getCore s c0).reel[3]? = some (reelOf 0 0)) := by decide +kernel
/-- An instruction is ready beside results that are outstanding. -/
theorem ready_beside {s : State} {t : Thread} {i : Instr} (hand : getT s s.cur.core s.cur.slot = some t) (hn : t.net = false) (ha : t.acc = [])
    (ho : t.out.length + (usesOf i).lat ≤ 32) (h : readyB s t i = true) : Ready s t i := by
  simp only [readyB, Bool.and_eq_true, decide_eq_true_eq, Bool.not_eq_true'] at h
  exact ⟨hand, h.1.1.1.1.1, h.1.1.1.1.2, h.1.1.1.2, h.1.1.2, portCheck_none (by rw [hn]; exact portReads_net_false _) (by rw [hn]; exact portWrites_net_false _)
    (by rw [hn]; simp [List.any_eq_false, portDir_net_false]), ⟨fun _ => ha, .inr ho⟩, h.2⟩
theorem test_meets_fpc_waits : let t := { thr with out := [someOut] }; Ready (withT t) t (srrI 12) ∧ Ready (withT t) t (srwI 12) ∧ t.out ≠ [] :=
  ⟨ready_beside rfl rfl rfl (by decide +kernel) (by decide +kernel), ready_beside rfl rfl rfl (by decide +kernel) (by decide +kernel), by simp⟩

/-- A reel write that enables unit 0 for the rectangle of the core alone: rows 0 to 0, columns 0 to 0. -/
theorem test_meets_reel_write : let t := gThr 9 (BitVec.ofNat 64 (2 ^ 63))
    let s := modCore (withT t) c0 (fun k => { k with reel := k.reel.setIfInBounds 0 { Reel.reset with owner := some 0 } })
    readyB s t (srwI 16) = true ∧ (getCore (settled s (srwI 16)) c0).reel[0]? = some { Reel.reset with owner := some 0 } ∧
      (operand s t (srwI 16) 0).toNat = 2 ^ 63 ∧ meshRow 0 = 0 ∧ meshCol 0 = 0 ∧ reelBound (settled s (srwI 16)) (ctxOf s t (srwI 16)) 0 = true ∧
      reelBound (settled s (srwI 16)) (ctxOf s t (srwI 16)) 1 = false := by decide +kernel
theorem test_meets_privileged_sr : (∀ n ∈ [64, 65, 66, 67, 256, 271], readyB (fpState thr) thr (srrI n) = true) ∧
    (∀ n ∈ [65, 67, 258, 263, 268, 256, 272], readyB (fpState thr) thr (srwI n) = true) ∧ 8192 ≤ (fpState thr).cur.core.n ∧
    partLive (settled (fpState thr) (srwI 258)) 1 0 = true ∧ partLive (settled (fpState thr) (srwI 290)) 1 1 = false := by decide +kernel
theorem test_meets_blocks : blockOpen (fpState thr) 256 0 0 ∧ blockOpen (fpState thr) 271 0 15 ∧ blockOpen (settled (fpState thr) (srwI 272)) 272 0 16 ∧
    (0, (0x8000FFFF00000001#64 : Dword)) ∈ blockRows (block (fpState thr) 1 0) := by unfold blockOpen; decide +kernel

theorem test_meets_mailboxes : let t := { thr with regs := (thr.regs.setG 11 15).setG 12 (BitVec.ofNat 64 (2 ^ 48 + 16)) }
    let s := fpState t
    let i : Instr := .mbxs { pre := bare, b := 11, c := 9 }
    let j : Instr := .mbxs { pre := bare, b := 12, c := 9 }
    readyB s t i = true ∧ (operand s t i 0).toNat = 0 * 2 ^ 48 + 15 ∧ (route (settled s i) 1 1).isSome = true ∧
      (getCore (settled s i) { pkg := 1, n := 8207 }).mailbox.length < 64 ∧
      (let u := modCore s { pkg := 1, n := 8207 } (fun k => { k with mailbox := List.replicate 64 1 })
       readyB u t i = true ∧ 64 ≤ (getCore (settled u i) { pkg := 1, n := 8207 }).mailbox.length) ∧
      readyB s t j = true ∧ (operand s t j 0).toNat % 2 ^ 48 / 2 ^ 4 ≠ 0 ∧
      readyB s t (.mbxr { pre := bare, rd := 20 }) = true ∧ (getCore (settled s (.mbxr { pre := bare, rd := 20 })) f0).mailbox = [] ∧
      markerOf t (.mbxr { pre := bare, rd := 20 }) = false ∧
      (let u := modCore s f0 (fun k => { k with mailbox := [7] })
       readyB u t (.mbxr { pre := bare, rd := 20 }) = true ∧ readyB u t (.wfi { pre := bare }) = true ∧ (getCore u f0).mailbox = [7]) ∧
      readyB s t (.wfi { pre := bare }) = true ∧ (getCore s f0).timer = 0 := by decide +kernel

def sdI (k : Nat) : Instr :=
  let o : BcOps := { pre := bare, b := 12, c := 11 }
  match k with | 0 => .tlbsdInval o | 1 => .tlbsdTransit o | 2 => .tlbsdLand o | 3 => .tlbsdDiscard o | 4 => .tlbsdRanges { o with c := 12 } | 5 => .tlbsdResume o | _ => .tlbsdRefuse o
theorem test_meets_shootdowns : ∀ k ∈ [0, 1, 2, 3, 4], (readyB (xlatState 0 pageThr) pageThr (sdI k) && readyB (xlatState 1 pageThr) pageThr (sdI k)) = true ∧
    transitAt (settled (xlatState 0 pageThr) (sdI k)) 1 0 0 0x50000 = none ∧
    (k = 4 ∨ operand (xlatState 0 pageThr) pageThr (sdI k) 1 = 0x50000#64) ∧ operand (xlatState 0 pageThr) pageThr (sdI k) 0 = 0 := by decide +kernel
theorem test_meets_pages : ∀ k ∈ [1, 3], ∀ x ∈ [0, 1], decide (pageAt (settled (xlatState x pageThr) (sdI k)) 1 0 0 0x50000 =
    some (0, 0x50000, false, some (0x30050, 2 ^ 63 + 2 ^ 61 + 2 ^ 58 + x * 2 ^ 59 + 0x60000))) = true := by decide +kernel
theorem test_meets_page_operands : ∀ k ∈ [0, 1, 2, 3, 4], ∀ v, pageOperands (settled (xlatState 0 pageThr) (sdI k)) 0 0 0x50000#64 v ∧
    pageOperands (settled (xlatState 0 pageThr) (sdI k)) 0 0 0 v := by unfold pageOperands; decide +kernel
theorem test_meets_transit : let x : Transit := { stack := 0, pid := 0, asid := 0, va := 0x50000, big := false }
    let s := modPkg (xlatState 0 pageThr) 1 (fun k => { k with transits := [x] })
    ∀ k ∈ [1, 2, 3], readyB s pageThr (sdI k) = true ∧ transitAt (settled s (sdI k)) 1 0 0 0x50000 = some x ∧ (getPkg (settled s (sdI k)) 1).held = [] ∧
      pageThr.woken = none := by decide +kernel
theorem test_meets_resume : let t := { thr with regs := (thr.regs.setG 11 5).setG 12 0#64 }
    let w : FaultWait := { core := c0, slot := 0, ticket := 5, page := 0, addr := 0, write := false, homePkg := 1, homeFp := 0, sent := true, words := [] }
    let q := { thr with run := .held (.ticket 5) }
    let s := modPkg (setT (fpState t) c0 0 (some q)) 1 (fun k => { k with waits := [w] })
    ∀ k ∈ [5, 6], readyB s t (sdI k) = true ∧ (operand s t (sdI k) 1).toNat = 5 ∧ (operand s t (sdI k) 0).toNat % 2 ^ 60 = 0 ∧
      (getPkg (settled s (sdI k)) 1).waits.find? (fun w => decide (w.ticket = 5) && w.sent) = some w ∧
      getT (modPkg (settled s (sdI k)) 1 (fun k => { k with waits := k.waits.filter (fun x => decide (x.ticket ≠ 5)) })) w.core w.slot = some q := by decide +kernel

end Sys2Proof.Tests

/-! ## The matrix unit and the engines -/

namespace Sys2Proof.Tests
open Sys2Proof Sys2Proof.Machine
set_option Elab.async false

noncomputable section

/-- The example state in a co-resident grid whose next core belongs to it. -/
def ringState (k : Core → Core) : State :=
  let s := modPkg (withT thr) 1 (fun p => { p with grids := p.grids.set 0 (some { placedGrid with coloc := true }) })
  modCore (modCore s { pkg := 1, n := downstream 0 } (fun x => { x with tenancy := some 0 })) c0 k

/-- productFits of two descriptors, at width w. -/
def fitsB (w : Nat) (s z : State) (t : Thread) (major mod : Nat) (da db : Dword) : Bool :=
  (if major = 1 then (nfFmt (pickedNf t da)).any (fun f => decide (f.width = w)) && (nfFmt (pickedNf t db)).any (fun f => decide (f.width = w))
   else decide (w = 8) && decide (da.toNat / 2 ^ 4 % 2 ^ 3 = 0) && decide (db.toNat / 2 ^ 4 % 2 ^ 3 = 0)) &&
  (ownSpad s.cur.core (da &&& 0xFFFFFFFFFFFFFF80#64) (geoOf major mod w).bytes).isSome && (ownSpad s.cur.core (db &&& 0xFFFFFFFFFFFFFF80#64) (geoOf major mod w).bytes).isSome &&
  decide (db.toNat % 2 ^ 4 = 0) && decide (da.toNat % 2 ^ 4 + 1 ≤ (getCore z s.cur.core).maxRows)

def mmaO : MmaOps := { pre := bare, half := false, z := true, t := 7, a := 8, b := some 8 }
def mmaIO : MmaIOps := { pre := bare, z := false, sat := true, sa := true, sb := true, t := 7, a := 8, b := some 8 }

end

theorem fits_of (w : Nat) {s z : State} {t : Thread} {major mod : Nat} {da db : Dword} (h : fitsB w s z t major mod da db = true) :
    productFits z s t major mod da (some db) := by
  simp only [fitsB, Bool.and_eq_true, decide_eq_true_eq] at h
  obtain ⟨⟨⟨⟨h1, h2⟩, h3⟩, h4⟩, h5⟩ := h
  refine ⟨w, fun e => ?_, fun e => ?_, h2, fun d hd => ?_, h5, fun e => by cases e⟩
  · rw [if_pos e, Bool.and_eq_true, Option.any_eq_true, Option.any_eq_true] at h1
    obtain ⟨⟨f, hf, hw⟩, g, hg, hv⟩ := h1
    exact ⟨f, hf, of_decide_eq_true hw, fun d hd => ⟨g, by cases hd; exact hg, of_decide_eq_true hv⟩⟩
  · rw [if_neg e, Bool.and_eq_true, Bool.and_eq_true] at h1
    exact ⟨of_decide_eq_true h1.1.1, of_decide_eq_true h1.1.2, fun d hd => by cases hd; exact of_decide_eq_true h1.2⟩
  · cases hd; exact ⟨h3, h4⟩

theorem test_meets_products : ∀ row ∈ mmaRows, ∃ w, readyB demo thr (row.1 mmaO) = true ∧
    fitsB w demo (settled demo (row.1 mmaO)) thr row.2.1 (row.2.2 mmaO) (operand demo thr (row.1 mmaO) 0) (operand demo thr (row.1 mmaO) 1) = true ∧
    (getCore (settled demo (row.1 mmaO)) c0).mq.length < 8 := fun row h =>
  ⟨8, by revert row; decide +kernel⟩
theorem test_meets_integer_products : ∀ row ∈ mmaIntRows, readyB demo thr (row.1 mmaIO) = true ∧
    fitsB 8 demo (settled demo (row.1 mmaIO)) thr 2 row.2 (operand demo thr (row.1 mmaIO) 0) (operand demo thr (row.1 mmaIO) 1) = true := by decide +kernel
theorem test_meets_full_queue : let m : MCmd := { (default : MCmd) with slot := 0, tile := 3 }
    let s := modCore demo c0 (fun k => { k with mq := List.replicate 8 m })
    readyB s thr (.mzero { pre := bare, t := 3 }) = true ∧ 8 ≤ (getCore (settled s (.mzero { pre := bare, t := 3 })) c0).mq.length ∧
      (∃ m ∈ (getCore s c0).mq, m.slot = s.cur.slot ∧ m.remote = none ∧ m.tile = 3) ∧ readyB s thr (.mwait { pre := bare, t := 3 }) = true ∧
      readyB s thr (.mwaitAll { pre := bare }) = true :=
  ⟨by decide +kernel, by decide +kernel, ⟨{ (default : MCmd) with slot := 0, tile := 3 }, by decide +kernel, by decide +kernel⟩, by decide +kernel, by decide +kernel⟩
theorem test_meets_tile_commands : Ready demo thr (.mzero { pre := bare, t := 7 }) ∧ Ready demo thr (.mload { pre := bare, t := 7, b := 8 }) ∧
    (operand demo thr (.mload { pre := bare, t := 7, b := 8 }) 0).toNat % 128 = 0 ∧ (ownSpad c0 0x800200000100#64 1024).isSome = true ∧
    ownSpad c0 0x80020007FF80#64 1024 = none ∧ Ready demo thr (.mload { pre := bare, t := 0, b := 9 }) ∧
    (operand demo thr (.mload { pre := bare, t := 0, b := 9 }) 0).toNat % 128 ≠ 0 :=
  ⟨ready_demo (by decide +kernel), ready_demo (by decide +kernel), by decide +kernel, by decide +kernel, by decide +kernel, ready_demo (by decide +kernel),
    by decide +kernel⟩

noncomputable def drainI (add : Bool) : Instr :=
  let o : MdrainOps := { pre := bare, os := OrdSc.plain, note := true, i32 := true, t := 7, b := 8, flag := some 8 }
  if add then .mdrainAdd o else .mdrain o
noncomputable def drainQI : Instr := .mdrainQ { pre := bare, os := OrdSc.plain, note := false, u := true, t := 0, b := 8, param := 8 }
theorem test_meets_drains : (∀ add, readyB demo thr (drainI add) = true ∧
      postB demo (drainI add) (operand demo thr (drainI add) 0) (operand demo thr (drainI add) 1) 1024 32 false = true) ∧
    readyB demo thr drainQI = true ∧ (operand demo thr drainQI 1).toNat % 128 = 0 ∧ (ownSpad c0 (operand demo thr drainQI 1) 128).isSome = true ∧
    postB demo drainQI (operand demo thr drainQI 0) 0 256 32 false = true := by refine ⟨?_, ?_, ?_, ?_, ?_⟩ <;> decide +kernel

noncomputable def ringI (k : Nat) : Instr := match k with | 0 => .mring { pre := bare, cls := 0, b := 8 } | 1 => .mpass { pre := bare } | _ => .mringRecv { pre := bare }
theorem test_meets_ring : ∀ k ∈ [0, 1, 2], readyB (ringState id) thr (ringI k) = true ∧ coResident (settled (ringState id) (ringI k)) c0 thr = true ∧
    (getCore (settled (ringState id) (ringI k)) { pkg := 1, n := downstream 0 }).tenancy = thr.gslot ∧
    readyB demo thr (ringI k) = true ∧ coResident (settled demo (ringI k)) c0 thr = false ∧ (getCore (settled demo (ringI k)) { pkg := 1, n := downstream 0 }).tenancy ≠ thr.gslot := by
  decide +kernel
theorem test_meets_matrix_registers : Ready demo thr (.mwait { pre := bare, t := 0 }) ∧ Ready demo thr (.mwaitAll { pre := bare }) ∧ (getCore demo c0).mq = [] ∧
    Ready demo thr (.mrd { pre := bare, v := 31, t := 7, h := 7 }) ∧ Ready demo thr (.mcap { pre := bare, rd := 20 }) ∧ (getCore demo c0).maxRows < 2 ^ 8 ∧
    Ready demo thr (.mfmt { pre := bare, nf := 7, x := 10 }) ∧ Ready demo thr (.mfmtr { pre := bare, rd := 20, nf := 0 }) :=
  ⟨ready_demo (by decide +kernel), ready_demo (by decide +kernel), by decide +kernel, ready_demo (by decide +kernel), ready_demo (by decide +kernel),
    by decide +kernel, ready_demo (by decide +kernel), ready_demo (by decide +kernel)⟩

noncomputable def mcmdI : Instr := .mcmd { pre := bare, b := 11, c := 8 }
theorem test_meets_remote_command : let t := gThr 11 0
    let z := settled (withT t) mcmdI
    readyB (withT t) t mcmdI = true ∧ (operand (withT t) t mcmdI 0).toNat = 0 ∧ coreIn z 1 t.pid 0 = true ∧ (getCore z { c0 with n := 0 }).tenancy = t.gslot ∧ (operand (withT t) t mcmdI 1).toNat % 32 = 0 ∧
      ownSpad c0 (operand (withT t) t mcmdI 1) 32 = some 0x800000000100#64 ∧ isOk z (whoOf c0 t) 0x800000000100#64 32 .read = true ∧
      issueFlag (okAt z (whoOf c0 t) 0x800000000100#64 32 .read).1 c0 0 = .inr 0 ∧
      readNat (okAt z (whoOf c0 t) 0x800000000100#64 32 .read).1 t.gslot (okAt z (whoOf c0 t) 0x800000000100#64 32 .read).2 32 = 0 ∧
      itemRoom (okAt z (whoOf c0 t) 0x800000000100#64 32 .read).1 c0 = true := by decide +kernel
theorem test_meets_grant : let t := { gThr 11 0x3#64 with regs := (gThr 11 0x3#64).regs.setG 12 0xFFFFFFFF#64 }
    let i := Instr.mgrant { pre := bare, rd := 20, b := 12, c := 11 }
    let s := withT t
    let u := modCore s c0 (fun k => { k with grant := some { slot := 5, key := 1, mask := 1, away := none } })
    readyB s t i = true ∧ (operand s t i 0).toNat < 2 ^ 32 ∧ (operand s t i 1).toNat < 2 ^ 8 ∧ (operand s t i 1).toNat < 2 ^ t.allot.a ∧ (getCore s c0).grant = none ∧
      readyB u t i = true ∧ (getCore u c0).grant = some { slot := 5, key := 1, mask := 1, away := none } ∧
      readyB demo thr (.mgrant { pre := bare, rd := 20, b := 10, c := 9 }) = true ∧ 2 ^ 32 ≤ (operand demo thr (.mgrant { pre := bare, rd := 20, b := 10, c := 9 }) 0).toNat := by
  decide +kernel

/-- A core with one command at the head of its queue. -/
def mqState (m : MCmd) : State := modCore demo c0 (fun k => { k with mq := [m], latInc := some { size := 0, bytes := [], desc := none } })
def cmd (op : MOp) : MCmd := cmdOf demo thr 7 0 op 0x800200000100#64 0x800200000100#64 0 0
theorem test_meets_head : ∀ op ∈ [MOp.zero, .load, .product 2 24 0, .product 2 28 0, .ring 0, .ringRecv, .pass, .drain 0 true false 0 0x800000000100#64 0],
    headCommand (mqState (cmd op)) c0 [] (cmd op) [] thr ∧ tileFree [] (cmd op) ∧ (cmd op).da.toNat % 128 = 0 := by unfold headCommand tileFree; decide +kernel
theorem fetch_of {s : State} {c : CoreId} {t : Thread} {d : Dword} {n ph : Nat} (h1 : operandAt c d n = some ph) (h2 : allFull s t.gslot [(ph, n)] = true) (h3 : s.poison = []) :
    fetchable s c t d n ph := ⟨h1, h2, by simp [poisoned, h3], fun i _ => by simp [poisoned, h3]⟩
theorem test_meets_fetch : fetchable (mqState (cmd .load)) c0 thr 0x800200000100#64 1024 (2 ^ 48 + 0x800000000100) :=
  fetch_of (by decide +kernel) (by decide +kernel) (by decide +kernel)
theorem test_meets_tile_write : let m := { cmd .zero with started := true, res := some 0 }
    (getCore (mqState m) c0).mq = [m] ∧ getT (mqState m) c0 m.slot = some thr ∧ m.slot < 16 ∧ m.tile < 8 ∧ m.remote = none := by decide +kernel
theorem test_meets_arrival : let r : RemoteCmd := { who := whoOf c0 thr, target := c0, key := 9, major := 4, func := 0, mod := 0, tile := 7, da := 0, db := 0, block := 0, flag := 0, no := 0, malformed := false }
    let s := { modCore demo c0 (fun k => { k with grant := some { slot := 0, key := 9, mask := 0x80, away := none } }) with remotes := [r] }
    s.remotes[0]? = some r ∧ (getCore s c0).grant = some { slot := 0, key := 9, mask := 0x80, away := none } ∧ getT s c0 0 = some thr ∧ (getCore s c0).mq.length < 8 := by decide +kernel

end Sys2Proof.Tests

namespace Sys2Proof.Tests
open Sys2Proof Sys2Proof.Machine
set_option Elab.async false

noncomputable section

/-- A record of R319: 2 elements of 8 bytes, strides 8 on both sides; and of the same with its seal. -/
def layRec : Nat := 3 + 2 ^ 8 + 2 ^ 64 * (2 + 2 ^ 32 + 2 ^ 64 + 2 ^ 96) + 2 ^ 192 * 8 + 2 ^ 320 * 8
def layThr (x : Nat) : Thread := { thr with regs := { (thr.regs.setG 12 0x800200001000#64).setG 13 0x800200002000#64 |>.setG 14 0 with v := thr.regs.v.set 3 (BitVec.ofNat 1024 x) } }
def shapeI : Instr := .shape { pre := bare, vd := 2, x := 3 }
def copyI : Instr := .copy { pre := bare, os := OrdSc.plain, v := 3, b := 12 }

/-- Dwords from an address of package 1. -/
def dwordsAt : Nat → List Nat → List Host.Cell
  | _, [] => []
  | a, x :: l => (dwordAt a x).filter (fun c => decide (c.2 ≠ 0)) ++ dwordsAt (a + 8) l

/-- A tensor under handle 2 (R325): one dimension of 1,000 elements of 4 bytes in this package's scratchpad of core 0, at offset 0x1000. -/
def shardEnt : Nat := 2 ^ 63 + 2 * 2 ^ 61 + 2 ^ 42 + 0x800000001000 / 64 + 2 ^ 64 * 1000 + 2 ^ 96 * 1000 + 2 ^ 128 * 4 +
  (2 ^ 176 + 2 ^ 208) + (2 ^ 288 + 2 ^ 320) + (2 ^ 400 + 2 ^ 432)
def shardState (t : Thread) (e : Nat) : State := modHub (modBlock (withT t) 1 0 (fun b => { b with shardtab := 0x4000#64 })) 1 0 (fun h => { h with shard := [(2, BitVec.ofNat 512 e)] })
def shardThr (x : Nat) : Thread := { thr with regs := ((thr.regs.setG 11 2).setG 12 (BitVec.ofNat 64 x)).setG 13 0 }
def shO (rd : GReg) : ShardOps := { pre := bare, os := OrdSc.plain, sx := false, rd := rd, b := 11, c := 12 }

/-- A grid with an overlay segment 3 of 256 bytes at 0x400. -/
def segGrid : Grid := { placedGrid with khdr := 0x10000, hdr := { placedHeader with segs := [(3, 0x400, 256, 0x800)] } }
def segThr : Thread := gThr 11 3
def segState (k : Core → Core) : State := modCore (modPkg (withT segThr) 1 (fun p => { p with grids := p.grids.set 0 (some segGrid) })) c0 k
def cfO : CfetchOps := { pre := bare, os := OrdSc.plain, b := 11, flag := some 8 }

/-- A block for `amp.apply` on qubit 0 of one, at 0x800000000100, with its layout record at 0x800000000200. -/
def ampMem : List Host.Cell := dwordsAt 0x800000000100 [0x800000000200, 0x800000000300, 0, 0, 1, 0xFFFFFFFFFFFFFF00, 0xFFFFFFFF, 0] ++
  dwordsAt 0x800000000200 [0x10001, 0x800000000400, 3]
def ampState : State := { demo with mem := ampMem }
def ampI : Instr := .ampApply { pre := bare, os := OrdSc.plain, b := 8 }
def collI (r : Bool) : Instr := let o : CollOps := { pre := bare, os := OrdSc.plain, b := 8, c := 8 }; if r then .collRunReload o else .collRun o

end

theorem test_meets_shape : readyB (withT (layThr layRec)) (layThr layRec) shapeI = true ∧ layoutOk ((readV 0 (layThr layRec) 3).toNat % 2 ^ 496) = true ∧
    readyB demo thr shapeI = true ∧ layoutOk ((readV 0 thr 3).toNat % 2 ^ 496) = false := by decide +kernel
theorem test_meets_copy : let x := layRec + sealOf layRec * 2 ^ 496
    let t := layThr x
    let s := withT t
    readyB s t copyI = true ∧ (readV (settled s copyI).tick t 3).toNat % 2 ^ 512 = x ∧ x / 2 ^ 17 % 2 = 0 ∧ itemRoom (settled s copyI) c0 = true ∧
      (match copyCheck (settled s copyI) c0 t.pid x (operand s t copyI 0) (operand s t copyI 1) (operand s t copyI 2) with
        | .inr r => r == (0x800000001000#64, 0x800000002000#64, 0#64) | .inl _ => false) = true := by decide +kernel
theorem test_meets_shards : ∀ i ∈ [Instr.lds (shO 20), .ldso (shO 20), .sts (shO 20), .stso (shO 20)],
    let t := shardThr 7
    let s := shardState t shardEnt
    readyB s t i = true ∧ operand s t i 0 = 2 ∧ (operand s t i 1).toNat = 7 ∧ shardSeen s t 2 = shardEnt ∧ shardBase s 1 0 ≠ 0 ∧ shardBase demo 1 0 = 0 := by
  intro i h
  simp only [List.mem_cons, List.not_mem_nil, or_false] at h
  rcases h with rfl | rfl | rfl | rfl <;> decide +kernel
theorem test_meets_shard_table : shardTable (shardState (shardThr 7) shardEnt) (shardThr 7) 2 ∧ shardEnt < 2 ^ 512 := by
  refine ⟨⟨?_, ?_, ?_⟩, ?_⟩ <;> decide +kernel

/-- R326: the element 7 of the tensor, the first outside it, and causes 2 and 3. -/
theorem test_meets_shard_rule : (match shardRule shardEnt [7, 0, 0, 0] with | .inr x => x == (1, 0x80000000101C) | .inl _ => false) = true ∧
    (match shardRule shardEnt [1000, 0, 0, 0] with | .inl c => c == 1 | .inr _ => false) = true ∧
    (match shardRule shardEnt [0, 1, 0, 0] with | .inl c => c == 1 | .inr _ => false) = true ∧
    (match shardRule 0 [0, 0, 0, 0] with | .inl c => c == 2 | .inr _ => false) = true ∧
    (match shardRule (2 ^ 63) [0, 0, 0, 0] with | .inl c => c == 3 | .inr _ => false) = true ∧
    (issueAddr c0 (dw (2 ^ 48 + 0x80000000101C)) 4 4).isRight = true := by decide +kernel
theorem test_meets_shinv : let t := { thr with regs := thr.regs.setG 11 2 }
    let i := Instr.shinv { pre := bare, rd := 20, b := 11, c := 8 }
    let z := settled (withT t) i
    readyB (withT t) t i = true ∧ (operand (withT t) t i 0).toNat = 2 ∧ (operand (withT t) t i 1).toNat % 64 = 0 ∧
      ownSpad c0 (operand (withT t) t i 1) 64 = some 0x800000000100#64 ∧ isOk z (whoOf c0 t) 0x800000000100#64 64 .read = true ∧
      readNat (okAt z (whoOf c0 t) 0x800000000100#64 64 .read).1 t.gslot (okAt z (whoOf c0 t) 0x800000000100#64 64 .read).2 64 = 0 := by decide +kernel

theorem test_meets_cfetch : ∀ i ∈ [Instr.cfetch cfO, .cfetchNote cfO], let s := segState id
    readyB s segThr i = true ∧ gridOf (settled s i) c0 segThr = some segGrid ∧ segGrid.hdr.segs.find? (fun x => decide (x.1 = 3)) = some (3, 0x400, 256, 0x800) ∧
      (operand s segThr i 0).toNat = 3 ∧ issueFlag (settled s i) c0 (optFlag s segThr i (some 8)) = .inr 0x800000000100#64 ∧ itemRoom (settled s i) c0 = true ∧
      isResident (getCore (settled s i) c0) 3 = false ∧ (busyRanges (getCore (settled s i) c0)).any (segsMeet (0x400, 256)) = false ∧
      isResident (getCore (segState (fun k => { k with resident := [{ id := 3, load := 0x400, size := 256 }] })) c0) 3 = true ∧
      (busyRanges (getCore (segState (fun k => { k with base := some (0, 0x500) })) c0)).any (segsMeet (0x400, 256)) = true := by
  intro i h
  simp only [List.mem_cons, List.not_mem_nil, or_false] at h
  rcases h with rfl | rfl <;> decide +kernel

theorem test_meets_amplitude : let z := settled ampState ampI
    let z1 := (okAt z (whoOf c0 thr) 0x800000000100#64 64 .read).1
    let b := readNat z1 thr.gslot (okAt z (whoOf c0 thr) 0x800000000100#64 64 .read).2 64
    readyB ampState thr ampI = true ∧ ownSpad c0 (operand ampState thr ampI 0) 64 = some 0x800000000100#64 ∧ isOk z (whoOf c0 thr) 0x800000000100#64 64 .read = true ∧
      (match ampAddrs z1 c0 0 false b with | .inr r => r == (0x800000000200#64, 0x800000000300#64, 0#64) | .inl _ => false) = true ∧
      isOk z1 (whoOf c0 thr) 0x800000000200#64 64 .read = true ∧
      ampOk false b (leNat (readJudged (okAt z1 (whoOf c0 thr) 0x800000000200#64 64 .read).1 (whoOf c0 thr) 0x800000000200#64
        (okAt z1 (whoOf c0 thr) 0x800000000200#64 64 .read).2 64)) 0 = true ∧ ampOk false 0 0 0 = false ∧
      readyB ampState thr (.ampPerm { pre := bare, os := OrdSc.plain, b := 8 }) = true := by decide +kernel
theorem test_meets_collective : ∀ r, let z := settled demo (collI r)
    readyB demo thr (collI r) = true ∧ (operand demo thr (collI r) 0).toNat % 32 = 0 ∧
      (match baseCheck z c0 0 (operand demo thr (collI r) 0) with | .inr a => a == 0x800000000100#64 | .inl _ => false) = true ∧
      (operand demo thr (collI r) 1).toNat % 128 = 0 ∧ ownSpad c0 (operand demo thr (collI r) 1) 128 = some 0x800000000100#64 ∧
      isOk z (whoOf c0 thr) 0x800000000100#64 128 .read = true ∧
      readNat (okAt z (whoOf c0 thr) 0x800000000100#64 128 .read).1 thr.gslot (okAt z (whoOf c0 thr) 0x800000000100#64 128 .read).2 128 = 0 := by decide +kernel

/-- Core 3 of the cluster of port 0 is a ford core. -/
noncomputable def fordCore : CoreId := { pkg := 1, n := 16 * portCluster 0 + 3 }
noncomputable def fordState (h : Hub → Hub) : State := modHub (modBlock (onCore fordCore thr) 1 0 (fun b => { b with fordmap := b.fordmap.set 0 0x8#64 })) 1 (portCluster 0) h
noncomputable def blkqI (d : Bool) : Instr := if d then .blkqDone { pre := bare, b := 9 } else .blkq { pre := bare, rd := 20 }
theorem test_meets_ford : ∀ d, readyB (fordState id) thr (blkqI d) = true ∧ isFord (settled (fordState id) (blkqI d)) fordCore 0 = true ∧
    (getHub (settled (fordState id) (blkqI d)) 1 (clusterOf fordCore.n)).blocks = [] ∧ (getHub (settled (fordState id) (blkqI d)) 1 (clusterOf fordCore.n)).popped = [] ∧
    readyB demo thr (blkqI d) = true ∧ isFord (settled demo (blkqI d)) c0 0 = false ∧
    (getHub (settled (fordState (fun h => { h with blocks := [default] })) (blkqI d)) 1 (clusterOf fordCore.n)).blocks = [default] := by decide +kernel
theorem test_meets_block_done : let t := gThr 9 (blockWord default)
    let s := setT (fordState (fun h => { h with popped := [default] })) fordCore 0 (some t)
    readyB s t (blkqI true) = true ∧ (getHub (settled s (blkqI true)) 1 (clusterOf fordCore.n)).popped.find?
      (fun b => decide (blockWord b = operand s t (blkqI true) 0)) = some default := by decide +kernel
theorem test_meets_baddq : Ready demo thr (.baddq { pre := bare, rm := .rne, nf := 4, vd := 1, x := 2, y := 3 }) ∧ (nfFmt thr.regs.nf[(4 : NfReg)]).isSome = true ∧
    (∃ b, b < 7 ∧ bitOf (lanesOf thr bare) b = true) := ⟨ready_demo (by decide +kernel), by decide +kernel, 0, by decide, by decide +kernel⟩

end Sys2Proof.Tests

/-! ## The memory system's own steps -/

namespace Sys2Proof.Tests
open Sys2Proof Sys2Proof.Machine
set_option Elab.async false

noncomputable section

def acc (op : AccOp) : Access := accessOf demo thr op false OrdSc.plain
def accThr (op : AccOp) : Thread := { thr with acc := [acc op], out := [someOut] }
def accState (op : AccOp) : State := withT (accThr op)

/-- An address in the scratchpad of core 0, one that no window holds, and a store of one byte waiting at the first. -/
def here : Dword := 0x800000000100#64
def nowhere : Dword := 0x900000000000#64

def postItem (a : Dword) (bs : List Byte) : Item :=
  { id := 4, who := whoOf c0 thr, kind := 1, op := .store [(0, bs)] false, addr := a, flag := here, share := 0, domain := 0, note := false, stage := .sent }
def itemState (a : Dword) : State := { demo with items := [postItem a [1, 2]] }
def arrivalAt (a : Dword) (inc : Bool) : Arrival :=
  { id := 4, who := whoOf c0 thr, kind := 0, flag := a, inc := inc, share := 0, domain := 0, addr := 0, tag := 0, stage := .sent }
def arrState (a : Dword) (inc : Bool) : State := { demo with arrivals := [arrivalAt a inc] }

end

theorem test_meets_acceptance : ∀ op ∈ [AccOp.read [(here, 4)] 4 (.scalar true), .write [(here, [1, 2, 3])] 3, .rmw .cas here 8 1 0, .fill here [1], .clear here],
    let s := accState op
    let a := acc op
    getT s c0 0 = some (accThr op) ∧ (accThr op).acc[0]? = some a ∧ a.buffered = false ∧ mayAccept s (whoOf c0 (accThr op)) (accThr op) 0 = true ∧ a.pops = [] ∧
      (∀ k ∈ [AKind.read, .write, .rmw, .fill], isOk (settleFor s (whoOf c0 (accThr op)) 0 a) (whoOf c0 (accThr op)) here 8 k = true) ∧
      lineEmpty (settleFor s (whoOf c0 (accThr op)) 0 a) thr.gslot (physOf c0 here) = false ∧ (settleFor s (whoOf c0 (accThr op)) 0 a).redirects = [] ∧ Memory.wf (settleFor s (whoOf c0 (accThr op)) 0 a).mem = true := by
  decide +kernel
theorem test_meets_failed_access : let op := AccOp.read [(nowhere, 4)] 4 (.scalar false)
    let s := accState op
    getT s c0 0 = some (accThr op) ∧ mayAccept s (whoOf c0 (accThr op)) (accThr op) 0 = true ∧
      (judge (settleFor s (whoOf c0 (accThr op)) 0 (acc op)) (whoOf c0 (accThr op)) nowhere 4 .read).2 = .fail 1 ∧
      (xlate (settleFor s (whoOf c0 (accThr op)) 0 (acc op)) (whoOf c0 (accThr op)) nowhere false).2 = .fail 1 := by decide +kernel
theorem test_meets_landing : let o : Out := { someOut with ready := true, val := .dword 5 }
    let t := { thr with out := [o] }
    getT (withT t) c0 0 = some t ∧ t.out[0]? = some o ∧ o.dst = .g 40 ∧ t.acc = [] ∧ getT (accState (.clear here)) c0 0 = some (accThr (.clear here)) ∧
      (accThr (.clear here)).out[0]? = some someOut ∧ someOut.ready = false := by decide +kernel
theorem test_meets_items : (itemState here).items[0]? = some (postItem here [1, 2]) ∧ itemBlocked (itemState here) (postItem here [1, 2]) = false ∧
    isOk (itemState here) (whoOf c0 thr) here 2 .write = true ∧ itemBlocked (itemState nowhere) (postItem nowhere [1, 2]) = false ∧
    (judge (itemState nowhere) (whoOf c0 thr) nowhere 2 .write).2 = .fail 1 ∧ (itemState here).owed = [] ∧
    (∀ x ∈ (itemState here).pkgs, x.2.recs = []) ∧ (itemState nowhere).redirects = [] ∧ (getCore (itemState nowhere) c0).tenancy = thr.gslot ∧
    (getCore (itemState nowhere) c0).heldRecs = [] ∧ (getCore (itemState nowhere) c0).inbox.length < 32 := by decide +kernel
theorem test_meets_arrivals : (∀ i, (arrState here i).arrivals[0]? = some (arrivalAt here i) ∧ isOk (arrState here i) (whoOf c0 thr) here 8 .rmw = true ∧
      (okAt (arrState here i) (whoOf c0 thr) here 8 .rmw).1.redirects = [] ∧ Memory.wf (okAt (arrState here i) (whoOf c0 thr) here 8 .rmw).1.mem = true) ∧
    (judge (arrState nowhere false) (whoOf c0 thr) nowhere 8 .rmw).2 = .fail 1 := by decide +kernel
theorem test_meets_held_record : let r : Rec := { crew := 0, d0 := 1, d1 := 2, d2 := 3, d3 := 4 }
    let s := modCore demo c0 (fun k => { k with heldRecs := [r] })
    let f := modCore s c0 (fun k => { k with inbox := List.replicate 32 r })
    (getCore s c0).heldRecs = [r] ∧ (getCore s c0).inbox.length < 32 ∧ (getCore f c0).heldRecs = [r] ∧ 32 ≤ (getCore f c0).inbox.length := by decide +kernel

/-- Threads parked without an entry, words on their way, and a result owed to an image. -/
theorem test_meets_polls : let t := { thr with run := .parked (.flag (2 ^ 48 + 0x800000000100) 5) false }
    let q := { thr with run := .parked (.root (2 ^ 48 + 0x800000000100)) false }
    getT (withT t) c0 0 = some t ∧ reached (readNat (withT t) t.gslot (2 ^ 48 + 0x800000000100) 8) 5 = false ∧
      reached (readNat (withT t) t.gslot (2 ^ 48 + 0x800000000100) 8) 0 = true ∧ getT (withT q) c0 0 = some q ∧
      readNat (withT q) q.gslot (2 ^ 48 + 0x800000000100) 8 ≠ 2 ^ 63 ∧
      readNat { withT q with mem := [(2 ^ 48 + 0x800000000107, 0x80)] } q.gslot (2 ^ 48 + 0x800000000100) 8 = 2 ^ 63 := by decide +kernel
theorem test_meets_walk : let w : Walk := { pkg := 1, cluster := 0, pid := 0, next := 1 }
    let s := { demo with walks := [w] }
    s.walks[0]? = some w ∧ (ringFree (getHub s w.pkg w.cluster)).isSome = true := by decide +kernel
theorem test_meets_words : let w : NWord := { pkg := 1, dst := 0, dir := 3, gslot := 0, era := 0, words := [7] }
    let s := { demo with nwords := [w, { w with gslot := 9 }] }
    s.nwords[0]? = some w ∧ (∀ x ∈ s.nwords.take 0, ¬ (x.pkg = w.pkg ∧ x.dst = w.dst ∧ x.dir = w.dir)) ∧ (getCore s c0).tenancy = some w.gslot ∧
      (getCore s c0).era = w.era ∧ (getCore s c0).tenancy ≠ some 9 := by decide +kernel

/-- Reel messages within the rectangle of rows 0 to 2 and column 0, and a release at the core that sent one. -/
theorem test_meets_reel_messages : let m : ReelMsg := { pkg := 1, at_ := 0, src := 0, unit := 3, era := 0, phase := 9, reg := BitVec.ofNat 64 (2 ^ 63 + 2 * 2 ^ 13), gslot := some 0 }
    let s := { reelState (reelOf 1 0) with reelArr := [m], reelRel := [m] }
    s.reelArr[0]? = some m ∧ ((reelNext m.reg m.at_).bind (reelNext m.reg)).isSome = true ∧ s.reelRel[0]? = some m ∧ s.redirects = [] ∧ (getCore s c0).tenancy = m.gslot ∧
      (getCore s c0).reel[3]? = some (reelOf 1 0) ∧ (reelOf 1 0).reg.toNat / 2 ^ 63 = 1 ∧ (reelOf 1 0).era = m.era ∧ (Reel.reset).reg.toNat / 2 ^ 63 = 0 := by decide +kernel
theorem test_meets_late : let l : Late := { img := 2 ^ 48 + 0x800000001000, entry := some 31, core := c0, allot := thr.allot, out := { someOut with ready := true, val := .dword 5 }, shoot := none }
    let s := { demo with lates := [l] }
    s.lates[0]? = some l ∧ l.out.dst = .g 40 ∧ 0x100 ≤ regAt l.allot (.g 40) ∧ s.redirects = [] ∧ Memory.wf s.mem = true ∧
      (∀ y ∈ s.lates.take 0, ¬ (y.img = l.img ∧ y.out.dst = l.out.dst)) := by decide +kernel
theorem test_meets_wfi : let t := { thr with run := .held .wfi }
    let u := modCore (fpState t) f0 (fun k => { k with mailbox := [1], notify := [(7, 1), (9, 2), (7, 3)] })
    getT (fpState t) f0 0 = some t ∧ heldMet (fpState t) f0 0 t .wfi = false ∧ getT u f0 0 = some t ∧ heldMet u f0 0 t .wfi = true ∧
      (((getCore u f0).notify.map (fun y => y.1)).eraseDups)[1]? = some 9 ∧ (getCore u f0).notify.find? (fun y => decide (y.1 = 9)) = some (9, 2) ∧
      (getCore u f0).mailbox.length < 64 ∧
      64 ≤ (getCore (modCore u f0 (fun k => { k with mailbox := List.replicate 64 1 })) f0).mailbox.length := by decide +kernel
theorem test_meets_fault_wait : let w : FaultWait := { core := c0, slot := 0, ticket := 5, page := 0, addr := 0, write := false, homePkg := 1, homeFp := 0, sent := false, words := [] }
    let t := { thr with run := .held (.ticket 5) }
    let q : PortReq := { core := c0, stack := 0, pid := 0, asid := 0, page := 0, big := false, req := .item 4, ticket := none, refused := true }
    let v := { q with req := .item 5 }
    let s := modPkg (withT t) 1 (fun k => { k with waits := [w], retries := [q, v] })
    (getPkg s 1).waits.find? (fun w => decide (w.core = c0 ∧ w.slot = 0 ∧ w.ticket = 5) && !w.sent) = some w ∧ getT s c0 0 = some t ∧
      aheadOver s { w with shadow := true } = false ∧ aheadOver { s with clock := 4096 } w = true ∧
      (allRetries s)[0]? = some (1, q) ∧ (allRetries s)[1]? = some (1, v) ∧ (getPkg s 1).retries.findIdx (fun x => decide (x = v)) = 1 := by decide +kernel
theorem test_meets_undefined : inHand demo thr := rfl

end Sys2Proof.Tests

/-! ## The engines' own steps -/

namespace Sys2Proof.Tests
open Sys2Proof Sys2Proof.Machine
set_option Elab.async false

noncomputable section

def aJob : Job := { who := whoOf c0 thr, flag := 0, tag := 0, note := false, packet := none, failed := false, firstRec := none }

/-- No request of an operation has to wait (noWait_of): none stands at a port, none comes before it, and its page and cluster are there. -/
def noWaitB (s : State) (w : Who) (r : Req) (l : List (Dword × Bool)) : Bool := l.all (fun x => (ownReqs s w x.1 r).isEmpty && (portBehind s w x.1 r).isNone &&
  (match (xlate s w x.1 x.2).2 with | .fault .. | .transit .. | .asleep .. => false | _ => true))

/-- A copy of one element of eight bytes. -/
def oneElem : Nat := 3 + 2 ^ 8 + 2 ^ 64 * (1 + 2 ^ 32 + 2 ^ 64 + 2 ^ 96)
def aCopy (x : Nat) (flag : Dword) : CopyJob :=
  { id := 0, job := { aJob with flag := flag }, core := c0, rcd := BitVec.ofNat 512 x, dst := 0x800000001000#64, src := 0x800000002000#64, share := 0, domain := 0 }
def copyState (x : Nat) (flag : Dword) : State := { demo with copies := [aCopy x flag] }

/-- Two qubits at 0x800000000400; the two groups of qubit 0. -/
def aQlr : Nat := 0x10002 + 2 ^ 64 * 0x800000000400 + 2 ^ 128 * 0x403
def anAmp (perm : Bool) : AmpJob :=
  { job := aJob, no := 0, perm := perm, blk := BitVec.ofNat 512 (0x800000000200 + 2 ^ 64 * 0x800000000300 + 2 ^ 256 * 2 + 2 ^ 320 * 0xFFFFFFFFFFFFFF00 + 2 ^ 384 * 0xFFFFFFFF)
    qlr := BitVec.ofNat 512 aQlr, uniRec := BitVec.ofNat 512 aQlr, doneGroups := [], failGroups := [] }
def ampRun (perm : Bool) : State := modHub demo 1 0 (fun h => { h with amps := [anAmp perm] })

/-- A braid of one SIGNAL step, in memory at 0x800000000800 and running. -/
def aStep (kind len : Nat) : Step := { kind := kind, sb := 0, db := 1, ndep := 0, len := len, soff := 0, doff := 0x800000000100#64, succ := [] }
def aRun (started : Bool) (x : Step) : BraidRun :=
  { id := 3, job := aJob, addr := 0x800000000800#64, base := List.replicate 8 0, reload := false, started := started, steps := [x]
    st := [{ cnt := 0, done := false, failed := false, tainted := false, pushed := 0, marked := 0, ticket := none }] }
def braidMem : List Host.Cell := dwordsAt 0x800000000800 [0x10001, 0, 0, 0, 0x10000, 0, 0, 0xFFFFFFFFFFFFFFFF]
def braidState (r : BraidRun) : State := { modHub demo 1 0 (fun h => { h with runs := [r] }) with mem := braidMem }

/-- A shoot-down of handle 2. -/
def aShoot (r : Bool) (ns : List Nat) (hs : List (Nat × Nat)) : Shoot :=
  { id := 7, who := whoOf c0 thr, slot := 0, seq := 0, handle := 2, entry := 0, atRoot := r, nodes := ns, hubs := hs, passed := false }
def shootState (r : Bool) (ns : List Nat) (hs : List (Nat × Nat)) (t : Thread) : State := { shardState t shardEnt with shoots := [aShoot r ns hs] }

end

theorem noWait_of {s : State} {w : Who} {r : Req} {l : List (Dword × Bool)} (h : noWaitB s w r l = true) : noWait s w r l := by
  unfold noWaitB at h
  simp only [List.all_eq_true, Bool.and_eq_true, List.isEmpty_iff, Option.isNone_iff_eq_none] at h
  refine ⟨?_, fun x hx => by simp [refusedAt, (h x hx).1.1]⟩
  induction l with
  | nil => rfl
  | cons x l ih =>
    have hg : engineGo w r s x = .inr s := by
      obtain ⟨⟨h1, h2⟩, h3⟩ := h x (by simp)
      rcases hx : xlate s w x.1 x.2 with ⟨z, k⟩
      rw [hx] at h3
      cases k <;> simp_all [engineGo, passPort]
    rw [engineWait, hg]
    exact ih (fun y hy => h y (by simp [hy]))

theorem test_meets_copy_runs : (copyState 0 here).copies.find? (fun j => decide (j.core = c0)) = some (aCopy 0 here) ∧ copyBlocked (copyState 0 here) (aCopy 0 here) = false ∧
    layoutOk 0 = false ∧ (aCopy 0 here).job.flag ≠ 0 ∧ (copyState 0 here).redirects = [] ∧ (getCore (copyState 0 here) c0).tenancy = thr.gslot ∧
    layoutOk ((aCopy oneElem 0).rcd.toNat % 2 ^ 496) = true ∧ (∀ k, k < 4 → (aCopy oneElem 0).rcd.toNat / 2 ^ (64 + 32 * k) % 2 ^ 32 = 1) ∧
    noWaitB (copyState oneElem 0) (whoOf c0 thr) (.copy 0) [(0x800000002000#64, false), (0x800000001000#64, true)] = true ∧
    isOk (copyState oneElem 0) (whoOf c0 thr) 0x800000002000#64 8 .read = true ∧ isOk (copyState oneElem 0) (whoOf c0 thr) 0x800000001000#64 8 .write = true := by
  decide +kernel
theorem test_meets_load : let l : SegLoad := { era := 0, who := some (whoOf c0 thr), seg := { id := 3, load := 0x400, size := 256 }, image := 0x800000002000#64, pid := 0, asid := 0, flag := 0, note := false }
    let s := modCore demo c0 (fun k => { k with loads := [l] })
    (getCore s c0).loads = [l] ∧ l.era = (getCore s c0).era ∧ noWaitB s (whoOf c0 thr) (.load c0) ((sectorParts 256 0x800000002000#64 256).map (fun p => (p.1, false))) = true ∧
      (engineRead s (whoOf c0 thr) (.load c0) (sectorParts 256 0x800000002000#64 256)).2.isLeft = true := by decide +kernel
theorem test_meets_amp_group : let j := anAmp false
    let s := ampRun false
    (getHub s 1 0).amps = [j] ∧ dword j.blk.toNat 3 = 0 ∧ dword j.blk.toNat 4 = 2 ∧ groupMembers j 1 = [(dw (2 ^ 48 + 0x800000000410), 8), (dw (2 ^ 48 + 0x800000000418), 8)] ∧
      let rq : Req := .amp 1 0 (some 1)
      noWaitB s j.job.who rq ((groupMembers j 1).map (fun p => (p.1, true)) ++ (ampUni j).map (fun p => (p.1, false))) = true ∧
      (engineRead s j.job.who rq (groupMembers j 1)).2.isLeft = true ∧ (engineRead (engineRead s j.job.who rq (groupMembers j 1)).1 j.job.who rq (ampUni j)).2.isLeft = true ∧
      (engineAt s j.job.who rq .write (groupMembers j 1)).2.isLeft = true := by decide +kernel
theorem test_meets_amp_perm : let j := anAmp true
    let s := ampRun true
    let at_ := (List.range (2 ^ (j.qlr.toNat % 2 ^ 8))).map (fun i => (issuerAddr j.job.who (ampAt j.qlr.toNat i), 8))
    let rq : Req := .amp 1 0 none
    (getHub s 1 0).amps = [j] ∧ at_.length = 4 ∧
      noWaitB s j.job.who rq (at_.map (fun p => (p.1, false)) ++ (at_ ++ sectorParts 64 (dw (j.blk.toNat % 2 ^ 64)) 64).map (fun p => (p.1, true))) = true ∧
      (engineRead s j.job.who rq at_).2.isLeft = true ∧ (engineAt s j.job.who rq .write at_).2.isLeft = true ∧
      (engineAt s j.job.who rq .write (sectorParts 64 (dw (j.blk.toNat % 2 ^ 64)) 64)).2.isLeft = true := by decide +kernel
theorem test_meets_braids : let r := aRun false (aStep 0 0)
    (getHub (braidState r) 1 0).runs.find? (fun r => !r.started) = some r ∧ ((getHub (braidState r) 1 0).runs.filter (fun x => x.started)).length < 4 ∧
      (match (readBraid (braidState r) 1 0 r).2 with | .inl (some l) => l.length == 1 | _ => false) = true := by decide +kernel
theorem test_meets_braid_steps : (∀ x ∈ [aStep 5 0, aStep 6 3], readyStep (braidState (aRun true x)) 1 0 3 0 = some (aRun true x, x, (aRun true x).st.head!)) ∧
    (match stepWork (braidState (aRun true (aStep 5 0))) (whoOf c0 thr) (.braid 1 0 3 (some 0)) (aStep 5 0) false 0 here with | .done _ => true | _ => false) = true ∧
    (match stepWork (braidState (aRun true (aStep 5 0))) (whoOf c0 thr) (.braid 1 0 3 (some 0)) (aStep 5 0) false 0 nowhere with | .failed _ _ _ => true | _ => false) = true ∧
    (stepDst (aRun true (aStep 5 0)) (aStep 5 0)) = here ∧ noWaitB demo (whoOf c0 thr) (.braid 1 0 3 (some 0)) [(here, true)] = true ∧ isOk demo (whoOf c0 thr) here 8 .rmw = true := by
  decide +kernel
theorem test_meets_queue_step : let q := portCluster 0
    let x := aStep 6 (3 + 2 ^ 16 * q)
    let s := { fordState (fun h => { h with runs := [aRun true x] }) with mem := [] }
    let u := modHub s 1 0 (fun h => { h with runs := [aRun true x] })
    x.len / 2 ^ 16 % 2 ^ 9 = q ∧ hasFord u 1 0 q = true ∧ (getHub u 1 q).blocks.length < 4096 ∧ (readyStep u 1 0 3 0).isSome = true ∧ 0 < x.len % 2 ^ 16 := by
  decide +kernel
theorem test_meets_shoots : (let s := shootState false [] [] thr; s.shoots = [aShoot false [] []]) ∧
    (let s := shootState true [1] [] thr; 1 ∈ (aShoot true [1] []).nodes ∧ treeParent s 1 = none ∧ shardBase s 1 0 ≠ 0 ∧ devOk s 1 0 (shardBase s 1 0 + 64 * 2) = true) ∧
    (let s := shootState true [] [(1, 0)] thr; isAwake (getHub s 1 0).ret = true ∧ shardPending s 1 0 2 = false) ∧
    (let t := { thr with acc := [{ acc (.clear here) with shard := some 2 }] }; let s := shootState true [] [(1, 0)] t
     shardPending s 1 0 2 = true) ∧
    (let t := { thr with run := .held (.shinv 7), out := [someOut] }; let s := shootState true [] [] t
     getT s c0 0 = some t ∧ someOut.dst = .g 40 ∧ someOut.staleBy = none) := by decide +kernel

end Sys2Proof.Tests

/-! ## Queues, weirs and run queues -/

namespace Sys2Proof.Tests
open Sys2Proof Sys2Proof.Machine
set_option Elab.async false

noncomputable section

/-- A packet of a type with its first six dwords, published; DONE is its seventh. -/
def packetBits (type : Nat) (d : List Nat) (done : Nat) : Nat := (d.zip (List.range 6)).foldl (fun x y => x + y.1 * 2 ^ (64 * y.2)) 0 + 2 ^ 384 * done + 2 ^ 448 * (2 ^ 56 + type * 2 ^ 48)

/-- Queue 0 of package 1: 16 slots at 0x80000, in partition 0 with physical addresses; its first slot holds a packet. -/
def queueMem (x : Nat) (valid : Nat) : List Host.Cell :=
  ((List.range 8).flatMap (fun i => dwordAt (0x40000 + 8 * i) ([0x80000, 0x800000000100, 0, 0, 0, 0, 0, valid * 2 ^ 63 + 0xFFFF * 2 ^ 32 + 4].getD i 0))) ++
    (List.range 8).flatMap (fun i => dwordAt (0x80000 + 8 * i) (x / 2 ^ (64 * i) % 2 ^ 64))
def queueState (x valid : Nat) : State := { modPkg demo 1 (fun k => { k with qtab := 0x40000#64, descs := [0] }) with
    mem := queueMem x valid, lines := [(2 ^ 48 + 0x80000, BitVec.ofNat 512 x)] }

/-- A packet taken: next to start. -/
def packet (type : Nat) (d : List Nat) : Packet :=
  { index := 9, bits := BitVec.ofNat 512 (packetBits type d 0x800000000100), pid := 0, asid := 0xFFFF, prio := 0, started := false, bad := [], takenAt := 0, no := 7 }
def takenState (k : Packet) (m : List Host.Cell) : State := { modPkg demo 1 (fun x => { x with queues := [{ q := 0, pkts := [k], failed := false, served := true, closing := false, desc := BitVec.ofNat 512 (2 ^ 511) }] }) with mem := m }

/-- Memory of the engine packets: a copy record, a braid's base line and an amplitude block with its record, at 0x800000001000. -/
def copyPk : Packet := packet 2 [0x800000001000, 0x800000002000, 0x800000003000, 0x800000000200, 0]
def copyPkMem : List Host.Cell := dwordsAt 0x800000001000 ((List.range 8).map (fun i => (layRec + sealOf layRec * 2 ^ 496) / 2 ^ (64 * i) % 2 ^ 64))
def braidPk : Packet := packet 3 [0x800000000800, 0x800000001000, 0, 0x800000000200, 0]
def ampPk : Packet := packet 4 [0x800000000100, 0, 0, 0x800000000200, 0]
def waitPk : Packet := packet 5 [0x800000000100, 5]
def signalPk : Packet := { packet 6 [] with bits := BitVec.ofNat 512 (packetBits 6 [0x800000000100] 0) }

/-- A KERNEL packet of one group at level 3, with its header at 0x800000001000. -/
def kernelPk : Packet := packet 1 [0x800000001000, 0, 0, 0, 0, 3 * 2 ^ 38 + 1]
def headerMem (magic : Nat) : List Host.Cell := dwordsAt 0x800000001000 [magic + 2 ^ 40, 8, 128, 0, 0x4000000000, 0, 0, 0]

/-- A package whose partition 0 has reach 0 alone, with grid 1 that has a group of a cluster to place. -/
def clusterGrid : Grid := { placedGrid with level := 2, crew := 1, gcount := 1, next := 0, live := 0, groups := [], khdr := 0x800000001000 }
def reachState (g1 : Option Grid) : State :=
  modPkg { demo with clock := 2 ^ 20 } 1 (fun k => { k with grids := k.grids.set 1 g1, blocks := k.blocks.set 0 {
    PBlock.reset with pctl := 0x8000000100000001#64, imgpool := 0x10000000#64, imgsize := 0x1000000#64 } })

/-- The same with a parked thread of grid 0, a group of its own, on the first core of every cluster of reach 0. -/
def parkedThr : Thread := { thr with run := .parked .inbox false }
def crowded (g1 : Option Grid) : State :=
  let s := (List.range 32).foldl (fun s k => setCore s { pkg := 1, n := 16 * k } { Core.reset with slots := Core.reset.slots.set 0 (some parkedThr), tenancy := some 0 }) (reachState g1)
  modPkg s 1 (fun k => { k with grids := k.grids.set 0 (some { placedGrid with gcount := 32, next := 32, groups := (List.range 32).map (fun i =>
    { index := i, crews := [{ core := 16 * i, crew := 0, live := 1, slots := [0] }], out := false, alloc := none, since := 0, leftAt := 0, restorable := false }) }) })

end

theorem test_meets_packet_taken : ∀ ty ∈ [1, 2, 3, 4, 5, 6], let s := queueState (packetBits ty [] 0) 1
    nextPacket s 1 0 = none ∧ (getQueue s 1 0).pkts = [] ∧ descValid (descBits s 1 0) = true ∧ (descOf (descBits s 1 0)).isSome = true ∧
      noWaitB (openQueue s 1 0 (descBits s 1 0)) (weirOf 1 0 0 0xFFFF) (.weir (.head 0 4)) [(0x80000#64, true)] = true ∧
      (match (xlate s (weirOf 1 0 0 0xFFFF) 0x80000#64 true).2 with | .at_ ph _ none _ => ph == 2 ^ 48 + 0x80000 | _ => false) = true ∧
      s.poison = [] ∧ headPacket s (2 ^ 48 + 0x80000) = some (packetBits ty [] 0, []) ∧ readNat s none (2 ^ 48 + 0x80000) 64 / 2 ^ 504 = 1 ∧
      headPacket { s with lines := [] } (2 ^ 48 + 0x80000) = none ∧ packetBits ty [] 0 / 2 ^ 496 % 2 ^ 8 = ty ∧ packetBits ty [] 0 < 2 ^ 512 ∧ Memory.wf s.mem = true := by
  decide +kernel
theorem test_meets_packet_refused : let k := { copyPk with bad := [7] }
    let b := packet 2 [0, 0, 0, 0, 512]
    nextPacket (takenState k []) 1 0 = some k ∧ k.type = 2 ∧ k.report = none ∧ packetOk k.bits.toNat = true ∧ nextPacket (takenState b []) 1 0 = some b ∧ b.bad = [] ∧ packetOk b.bits.toNat = false := by decide +kernel
theorem test_meets_descriptors : (let s := queueState 0 0; 0 ∈ (getPkg s 1).descs ∧ descValid (descBits s 1 0) = false) ∧
    (let s := { queueState 0 1 with mem := dwordAt 0x40000 1 ++ (queueMem 0 1).drop 8 }
     descValid (descBits s 1 0) = true ∧ descOf (descBits s 1 0) = none ∧ noteRoom s 1 0 (weirSender 0) = true) ∧
    (let s := queueState 0 1; (descOf (descBits s 1 0)).isSome = true) := by decide +kernel
theorem test_meets_startable : ∀ k ∈ [copyPk, braidPk, ampPk, waitPk, signalPk, kernelPk], nextPacket (takenState k []) 1 0 = some k ∧ k.bad = [] ∧ packetOk k.bits.toNat = true ∧
    barrierMet (takenState k []) 1 0 k = true := by decide +kernel
theorem test_meets_copy_packet : let s := takenState copyPk copyPkMem
    let w := weirWho { pkg := 1, n := 0 } 0 0xFFFF
    inReach s 1 0 (reachOfCluster 0) = true ∧ noWaitB s w (.weir (.packet 0 7)) [(dw 0x800000001000, false)] = true ∧ resolve c0 (dw 0x800000001000) = some (dw 0x800000001000) ∧
      (match weirRead s w (.packet 0 7) (dw 0x800000001000) 64 7 with
        | .bytes s1 b => b == layRec + sealOf layRec * 2 ^ 496 && (match copyCheck s1 c0 0 b (dw 0x800000002000) (dw 0x800000003000) 0 with | .inr _ => true | .inl _ => false)
        | _ => false) = true ∧ (layRec + sealOf layRec * 2 ^ 496) / 2 ^ 17 % 2 = 0 := by decide +kernel
theorem test_meets_braid_packet : let s := takenState braidPk []
    (match weirRead s (weirWho { pkg := 1, n := 0 } 0 0xFFFF) (.packet 0 7) (dw 0x800000001000) 128 7 with
      | .bytes s1 b => (match baseCheck s1 c0 0 (dw 0x800000000800) with | .inr _ => true | .inl _ => false) &&
        (match baseLineCheck s1 c0 b with | .inr _ => true | .inl _ => false)
      | _ => false) = true := by decide +kernel
theorem test_meets_amp_packet : let s := takenState ampPk ampMem
    let w := weirWho { pkg := 1, n := 0 } 0 0xFFFF
    (match weirRead s w (.packet 0 7) (dw 0x800000000100) 64 7 with
      | .bytes s1 b => (match ampAddrs s1 c0 0 false b with
        | .inr r => (match weirRead s1 w (.packet 0 7) r.1 64 7 with | .bytes _ q => ampOk false b q 0 | _ => false)
        | .inl _ => false)
      | _ => false) = true ∧ ampPk.bits.toNat / 2 ^ 489 % 2 = 0 := by decide +kernel
theorem test_meets_waitflag : let s := takenState waitPk []
    (match weirRead s (packetWho 1 0 waitPk) (.packet 0 7) (dw 0x800000000100) 8 1 with | .bytes _ v => reached v 5 == false && reached v 0 | _ => false) = true := by decide +kernel
theorem test_meets_complete : (getQueue (takenState waitPk []) 1 0).pkts.find? (fun x => decide (x.no = 7)) = some waitPk ∧ waitPk.type ≠ 6 ∧ waitPk.done ≠ 0 ∧ waitPk.done % 8 = 0 := by
  decide +kernel
theorem test_meets_admission : let s := takenState kernelPk (headerMem 0x4B39584C)
    waitingSlot (updateReserve s 1) 1 0 kernelPk = none ∧ getGrid s 1 1 = none ∧ getGrid s 1 0 = some placedGrid ∧
      (match readHeader (updateReserve s 1) (packetWho 1 0 kernelPk) (.packet 0 7) (dw (kFields kernelPk.bits.toNat).khdr) with
        | .ok z1 h => admitReason z1 1 0 (kFields kernelPk.bits.toNat) h == 0 && !h.coloc && !h.net && (admitReason z1 1 0 { kFields kernelPk.bits.toNat with gcount := 0 } h == 3)
        | _ => false) = true ∧ (kFields kernelPk.bits.toNat).coloc = false ∧ (kFields kernelPk.bits.toNat).domain = 0 := by decide +kernel
theorem test_meets_placement : let s := updateReserve (reachState (some clusterGrid)) 1
    (match firstBy (candidates s 1 0) with | some (.place 1 x) => x.length == 16 | _ => false) = true := by decide +kernel
theorem test_meets_start_group : getGrid demo 1 0 = some placedGrid ∧ placedGrid.hdr.reel = false := by decide +kernel
theorem test_meets_done : let g := { placedGrid with live := 0, groups := [] }
    let s := modPkg (withT thr) 1 (fun k => { k with grids := k.grids.set 0 (some g) })
    getGrid s 1 0 = some g ∧ gridComplete g = true ∧ gridQuiet s 1 0 = true ∧ g.domain = 0 := by decide +kernel
theorem test_meets_ageing : hasPending clusterGrid = true ∧ clusterGrid.pendSince + 2 ^ 20 ≤ (reachState (some clusterGrid)).clock ∧
    (reachState none).clock < { clusterGrid with pendSince := 1 }.pendSince + 2 ^ 20 := by decide +kernel

/-- A group of one crew off core 0, its wait over, in a redirect without threads; and one with a parked thread in the way of the whole reach. -/
theorem test_meets_restore : let r : Group := { index := 0, crews := [{ core := 0, crew := 0, live := 1, slots := [0] }], out := true, alloc := some (0, 0), since := 0, leftAt := 0, restorable := true }
    let s := setT (modPkg demo 1 (fun k => { k with grids := k.grids.set 0 (some { placedGrid with next := 1, gcount := 1, groups := [r] }) })) c0 0 none
    let u := { s with redirects := [{ pkg := 1, core := 0, gslot := 0, crew := 0, base := 0, size := 0, image := 2 ^ 48 + 0x800000001000, bitsAt := 0, dataAt := 0, recs := [], home := [], eras := [] }] }
    firstBy (candidates (updateReserve u 1) 1 0) = some (.restore 0 r) := by decide +kernel
theorem test_meets_eviction : let s := updateReserve (crowded (some clusterGrid)) 1
    (match wanting s 1 0 with
      | [(_, rk, .place 1)] => (match enough s 1 0 (.place 1) (victims s 1 0 rk) [] with | some vs => vs.length == 1 | none => false)
      | _ => false) = true := by decide +kernel

/-- A READY record at the head of cluster 0's run queue, in the base segment or in segment 3. -/
def readyRec (seg : Nat) : CRec := { seg := seg, pc := 62, args := [1, 2, 3, 4], weight := 0, frame := 0, state := 1, gslot := 0, again := false, tid := 7, prio := 0, kernel := 0, domain := 0 }
def ringState1 (seg : Nat) : State := (appendRing (setT (segState id) c0 0 none) 1 0 (readyRec seg)).1
theorem test_meets_pickup : let s := ringState1 0
    (ringHead (getHub s 1 0)).map (fun e => e.slot) = some 0 ∧ crecOk (readNat s none (ringAt 1 0 0) 64) = true ∧ getGrid s 1 0 = some segGrid ∧
      (rotation (getHub s 1 0).pickLast).findSome? (fun i => (takesThread s 1 i 0 segGrid.hdr 0).map (fun sl => (i, sl))) = some (0, 0) ∧
      crecOk 0 = false := by decide +kernel
theorem test_meets_head_segment : let s := ringState1 3
    let s1 := ((List.range 16).map (fun i => 16 * 0 + i)).foldl (fun s n => fetchMissing s { pkg := 1, n := n }) s
    (ringHead (getHub s 1 0)).isSome = true ∧ ringHead (getHub s1 1 0) = ringHead (getHub s 1 0) ∧ crecOk (readNat s1 none (ringAt 1 0 0) 64) = true ∧
      (CRec.ofBits (readNat s1 none (ringAt 1 0 0) 64)).seg = 3 ∧ getGrid s1 1 0 = some segGrid ∧ loadCore s1 1 0 0 segGrid.hdr 0x400 256 = some 0 ∧
      isResident (getCore s1 c0) 3 = false ∧ isPending (getCore s1 c0) 3 = false := by decide +kernel

end Sys2Proof.Tests

/-! ## Traps that waited, halts and images -/

namespace Sys2Proof.Tests
open Sys2Proof Sys2Proof.Machine
set_option Elab.async false

noncomputable section

def waitTrap : Thread := { thr with trap := some aTrap, run := .held .trap }
def trapRec : TrapWait := { pid := 0, rcd := 5, gslot := 0, sent := none }

/-- A trap queue of 16 entries at 0x50000. -/
def tqState (full : Bool) : State :=
  let s := modPkg demo 1 (fun k => { k with trapWaits := [trapRec] })
  modBlock s 1 0 (fun b => { b with trapq := 0x50000#64, tqtail := if full then 16 else 15 })
def pre (op at_ : Nat) (todo : List (Nat × Nat × Nat)) : Preempt := { pid := 0, op := op, gslot := 0, core := 0, was := 0, todo := todo, at_ := at_ }
def preState (q : Preempt) (size : Nat) (mem : List Host.Cell) : State :=
  { modBlock (modPkg demo 1 (fun k => { k with preempts := [q] })) 1 0 (fun b => { b with pasize := BitVec.ofNat 64 size, parea := 0x60000#64 }) with mem := mem }

/-- An area with the image of crew 0 of grid 0, its core 0, and the entry of that crew. -/
def areaMem : List Host.Cell := dwordAt 0x60000 0x400 ++ dwordAt 0x60008 0 ++ dwordAt 0x60400 0
def areaRedirect : Redirect := { pkg := 1, core := 0, gslot := 0, crew := 0, base := 0, size := 0, image := 2 ^ 48 + 0x60000, bitsAt := 0, dataAt := 0, recs := [], home := [], eras := [] }

/-- IMGCTL asked for an operation on the image at 0x70000 of a trapped thread of grid 0. -/
def anImg : TrapImg := { pid := 0, at_ := 2 ^ 48 + 0x70000, alloc := none, gslot := 0, core := 0, crew := 0 }
def imgState (op : Nat) (l : List TrapImg) : State :=
  { modBlock (modPkg (setT demo c0 0 none) 1 (fun k => { k with trapImgs := l })) 1 0 (fun b => { b with imgreq := some (op, 0x70000) }) with
    mem := dwordAt 0x70000 (imageLen thr.allot 0 + 2 ^ 32 + 2 ^ 48 + 2 ^ 56) ++ (List.range 15).flatMap (fun i => dwordAt (0x70008 + 8 * i) 0) }

end

theorem test_meets_waiting_trap : getT (trapState waitTrap) c0 0 = some waitTrap ∧ userHandled (trapState waitTrap) c0 waitTrap aTrap = true ∧
    getT (withT waitTrap) c0 0 = some waitTrap ∧ userHandled (withT waitTrap) c0 waitTrap aTrap = false ∧ (getCore (withT waitTrap) c0).halted = false := by decide +kernel
theorem test_meets_trap_record : (getPkg (tqState false) 1).trapWaits = [trapRec] ∧ (trapEntryAt (tqState false) 1 0).isSome = true ∧ trapEntryAt (tqState true) 1 0 = none ∧
    noteRoom (tqState false) 1 0 (clusterOf (trapRec.rcd.toNat / 2 ^ 384 % 2 ^ 13)) = true ∧ Memory.wf (tqState false).mem = true := by decide +kernel
theorem test_meets_halts : (∀ op ∈ [0, 1, 2], getPreempt (preState (pre op 0 []) 7 []) 1 0 = some (pre op 0 []) ∧
      haltTarget (preState (pre op 0 []) 7 []) 1 0 op 0 0 = [(0, 0, 0)] ∧
      (block (preState (pre op 0 []) 7 []) 1 0).pasize.toNat < needOf (preState (pre op 0 []) 7 []) 1 [(0, 0, 0)] ∧
      needOf (preState (pre op 0 []) 1048576 []) 1 [(0, 0, 0)] ≤ (block (preState (pre op 0 []) 1048576 []) 1 0).pasize.toNat) ∧
    inFlight (preState (pre 1 1 [(0, 0, 0)]) 0 []) 1 0 0 = false ∧ getPreempt (preState (pre 1 2 []) 0 []) 1 0 = some (pre 1 2 []) := by decide +kernel
theorem test_meets_resume_area : let s := { preState (pre 3 0 []) 0 areaMem with redirects := [areaRedirect] }
    areaImages s 1 3 (2 ^ 48 + 0x60000) = [some (areaRedirect, 0)] ∧ areaOk s 1 0 [some (areaRedirect, 0)] = true ∧ areaOk s 1 0 [none] = false ∧
      getPreempt s 1 0 = some (pre 3 0 []) ∧ (block s 1 0).parea.toNat / 2 ^ 6 % 2 ^ 42 * 64 = 0x60000 ∧ isOffCore demo 1 0 0 0 = false := by decide +kernel
theorem test_meets_images : ∀ op ∈ [1, 2], (block (imgState op [anImg]) 1 0).imgreq = some (op, 0x70000) ∧ trapImage (imgState op []) 1 0 0x70000 = none ∧
    trapImage (imgState op [anImg]) 1 0 0x70000 = some (anImg, placedGrid) ∧ (getCore (imgState op [anImg]) c0).tenancy = some 0 ∧
    isOffCore (imgState op [anImg]) 1 0 0 0 = false ∧ getT (imgState op [anImg]) c0 (imgSlot (imgState op [anImg]) (2 ^ 48 + 0x70000)) = none := by decide +kernel

end Sys2Proof.Tests

/-! ## Errors, the host, boot and retention -/

namespace Sys2Proof.Tests
open Sys2Proof Sys2Proof.Machine
set_option Elab.async false

noncomputable section

/-- Package 1 with dies out of reset. -/
def upState : State := modPkg demo 1 (fun k => { k with bootstat := 0xFFFFFFFFFFFFFFFF#64 })
def hfRec (pid asid : Nat) : HFaultRec := { d0 := BitVec.ofNat 64 (pid * 2 ^ 56 + asid * 2 ^ 40), page := 0x50000#64, addr := 0, rpkg := 0 }
def hubState (f : Hub → Hub) : State := modHub demo 1 0 f

end

/-- R420: a dword in error, and accesses at the ends of its reach. -/
theorem test_meets_poison : let s := { demo with poison := [0x100] }
    s.poison.contains 0x100 = true ∧ 0x107 < 0x100 + 8 ∧ 0x100 < 0x107 + 1 ∧ poisoned s none 0x107 1 = true ∧ poisoned s none 0x108 1 = false ∧
      poisoned s none 0xFF 1 = false ∧ (demo.poison.filter (inCluster 1 0) = []) ∧ (0 : Nat) < 8192 := by decide +kernel
theorem test_meets_corrected : (getHub (hubState id) 1 0).errs = [] ∧ (getHub (hubState id) 1 0).corrected = 0 ∧
    (let s := hubState (fun h => { h with corrected := 3, lastReport := some 0 }); 0 < (getHub s 1 0).corrected ∧ (getHub s 1 0).lastReport = some 0 ∧ s.clock < 0 + 2 ^ 20) ∧
    (let s := modBlock (hubState (fun h => { h with corrected := 3 })) 1 0 (fun b => { b with pctl := 0 })
     pidOfReach s 1 (reachOfCluster 0) = none ∧ (getHub s 1 0).lastReport = none ∧ (getPkg s 1).errLog.length < 1024) := by decide +kernel
theorem test_meets_windows : windowAt upState 1 1 false 0x17FFFFFF8 8 = some (2 ^ 48 + 0x800000000000 + 0x17FFFFFF8) ∧ windowAt upState 1 1 false 0x17FFFFFF9 8 = none ∧
    windowAt upState 1 0 true 0xFFFFFFFFF8 8 = some (2 ^ 48 + 0xFFFFFFFFF8) ∧ windowAt upState 1 2 false 0 8 = none ∧ windowAsleep upState 1 false 0 8 = [] ∧
    windowAsleep (modHub upState 1 0 (fun h => { h with ret := .asleep })) 1 false 0 8 ≠ [] ∧ protectedBytes upState none (2 ^ 48 + 0x800000000000) 8 = false ∧
    poisoned upState none (2 ^ 48 + 0x800000000000) 8 = false ∧ poisoned { upState with poison := [2 ^ 48 + 0x800000000000] } none (2 ^ 48 + 0x800000000000) 8 = true := by
  decide +kernel
theorem test_meets_host_registers : (blockWrite demo 1 0 7 5).isSome = true ∧ (blockWrite demo 1 0 2 5).isNone = true ∧
    (getCore demo { pkg := 1, n := 8192 + notifyOf demo 1 0 }).mailbox.length < 64 ∧ fld (hfRec 1 0).d0 59 56 ≠ 0 ∧ fld (hfRec 0 0).d0 59 56 = 0 ∧ doorBusy demo 1 0 = false ∧
    asEntry (xlatState 0 thr) 1 0 (fld (hfRec 0 0).d0 55 40) = .tables 0x2000 0x3000 1 ∧ doorBusy (xlatState 0 thr) 1 0 = false ∧
    (match searchRange (xlatState 0 thr) 1 0 0 0x3000 (hfRec 0 0).page.toNat 14 0 1 with | .hit _ => true | _ => false) = true := by decide +kernel
theorem test_meets_fordmap : inReach demo 1 0 (reachOfCluster (portCluster 7)) = true ∧ liveOn demo 1 0 (portCluster 7) = false ∧
    inReach (modBlock demo 1 0 (fun b => { b with pctl := 0 })) 1 0 (reachOfCluster (portCluster 0)) = false := by decide +kernel
theorem test_meets_power : (getPkg demo 1).cap = 2800 ∧ (1000 : Nat) ≤ 1000 ∧ (2800 : Nat) ≤ 2800 ∧ (2800 : Nat) < 2801 ∧ 100 * 2659 < 95 * 2800 ∧ 95 * 2800 ≤ 100 * 2660 := by decide +kernel

/-- QTAB where a descriptor of the table is valid; before it is set none is. -/
theorem test_meets_qtab : descValid (descBits (queueState 0 1) 1 0) = true ∧ ∀ q, q < 65536 → descValid (descBits demo 1 q) = false := by
  refine ⟨by decide +kernel, fun q _ => ?_⟩
  rw [show descBits demo 1 q = 0 from if_pos (.inl rfl)]
  decide +kernel
theorem test_meets_boot : (0 < 1 ∧ 4095 < 4096) ∧ (imageErr (newImage demo 1 0) ≠ 0 ∨ imageErr (newImage demo 1 0) = 0) ∧ Memory.wf demo.mem = true :=
  ⟨by decide, (Classical.em _).symm, by decide +kernel⟩
theorem test_meets_partitions : created demo 1 0 = true ∧ partLive demo 1 0 = true ∧ partLive (modPkg demo 1 (fun k => { k with grids := Vector.replicate 255 none })) 1 0 = false ∧
    (let s := modBlock (modPkg demo 1 (fun k => { k with bootstat := 0xFFFFFFFFFFFFFFFF#64 })) 1 0 (fun b => { b with pctl := 0 })
     (getPkg s 1).booted = true ∧ created s 1 3 = false ∧ reachFree s 1 15 = true) ∧ reachFree demo 1 0 = false ∧ Memory.wf demo.mem = true := by decide +kernel
theorem test_meets_job : (getPkg demo 1).booted = true ∧ (getPkg State.reset 2).booted = false ∧ (64 * 63 * 1 * 1 : Nat) ≤ 4095 ∧ 4095 < (64 * 64 * 1 * 1 : Nat) := by decide +kernel
theorem test_meets_retention : quietCluster demo 1 511 = true ∧ (getHub demo 1 511).ret = .awake ∧ quietCluster demo 1 0 = false ∧
    (getHub (hubState (fun h => { h with ret := .entering 7600 true })) 1 0).ret = .entering 7600 true := by decide +kernel
theorem test_meets_session : (getPkg (modPkg demo 1 (fun k => { k with session := 1 })) 1).session = 1 ∧ (getPkg demo 1).session ≠ 1 := by decide +kernel

end Sys2Proof.Tests

/-! ## WellFormed refuses an ill-formed term for each of its checks -/

namespace Sys2Proof.Tests
open Sys2Proof Sys2Proof.Machine
set_option Elab.async false

/-- None of these is well formed. -/
noncomputable def noneWf (l : List Instr) : Bool := l.all (fun i => !i.wf)

abbrev acqO : OrdSc := { ord := .acq, scope := .core }
abbrev relO : OrdSc := { ord := .rel, scope := .core }
abbrev arO : OrdSc := { ord := .ar, scope := .sys }

theorem test_refuses_integer : noneWf [
    .add { pre := bare, w := .d, rd := 1, x := 1, y := .imm (2 ^ 44) }, .add { pre := bare, w := .d, rd := 1, x := 2, y := .imm (2 ^ 34) },
    .shl { pre := bare, w := .d, rd := 1, x := 1, y := .imm (-1) }, .mov { pre := bare, rd := 1, y := .imm (2 ^ 44) },
    .clt { pre := bare, w := .d, pd := 1, x := 1, y := .imm (-2 ^ 34 - 1) }, .cltu { pre := bare, w := .d, pd := 1, x := 1, y := .imm (-1) },
    .bfx { pre := bare, rd := 1, x := 1, pos := 60, len := 5 }, .bfxu { pre := bare, rd := 1, x := 1, pos := 0, len := 0 },
    .bfi { pre := bare, rd := 1, x := 1, pos := 64, len := 1 }, .sextB { pre := bare, w := .w, rd := 1, x := 1 },
    .movh { pre := bare, rd := 1, imm := 2 ^ 32 }, .min { pre := bare, w := .d, rd := 1, x := 1, y := .imm (2 ^ 34) }] = true := by decide +kernel
theorem test_refuses_float : noneWf [
    .fadd { pre := bare, fmt := .f32, rm := .rne, rd := 1, x := 1, y := 1 }, .fexp2 { pre := bare, fmt := .f16, rm := .rne, rd := 1, x := 1 },
    .fcvt { pre := bare, dst := .f32, src := .f32, rm := .dyn, rd := 1, x := 1 }, .ntof { pre := bare, sat := true, rm := .dyn, nf := 0, rd := 1, x := 1 },
    .pset { pre := bare, pd := 1, imm := 2 ^ 32 }] = true := by decide +kernel
theorem test_refuses_control : noneWf [
    .br { sw := false, neg := false, pn := 0, off := 2 ^ 44 }, .bany { sw := false, neg := false, pn := 1, off := -2 ^ 34 - 1 },
    .call { pre := bare, link := 1, off := 2 ^ 44 }, .jov { pre := bare, g := 1, target := 2 ^ 35 }, .enter { pre := bare, n := 8 },
    .leave { pre := bare, n := 32784 }, .srr { pre := bare, g := 1, num := 1024 }, .srw { pre := bare, g := 1, num := 1024 },
    .ecall { pre := bare, n := 1024 }] = true := by decide +kernel
theorem test_refuses_memory : noneWf [
    .ld { pre := bare, os := acqO, size := .d, data := 1, base := 2, off := .imm 0 }, .sto { pre := bare, os := acqO, size := .d, data := 1, base := 2, off := .imm 0 },
    .ldSigned { pre := bare, os := OrdSc.plain, size := .d, data := 1, base := 2, off := .imm 0 },
    .st { pre := bare, os := OrdSc.plain, size := .w, data := 1, base := 2, off := .none },
    .ldo { pre := bare, os := relO, size := .d, data := 1, base := 2, off := .reg 3 }, .vld { pre := bare, v := 1, base := 32, off := .none },
    .ffill { pre := bare, os := acqO, size := .d, data := 1, base := 2, off := .imm 0 }, .fclr { pre := bare, os := relO, b := 32 },
    .fence { pre := bare, os := OrdSc.plain }, .fenceSc { pre := bare, os := acqO }] = true := by decide +kernel
theorem test_refuses_atomics : noneWf [
    .getl { pre := bare, os := acqO, fill := false, dst := 1, src := 2, flag := some 3 }, .getl { pre := bare, os := relO, fill := true, dst := 1, src := 2, flag := none },
    .stp { pre := bare, os := relO, wt := false, fill := false, data := .g .w 1, base := 2, flag := none },
    .aadd { pre := bare, os := arO, w := .d, rd := 1, base := 2, y := .imm (2 ^ 34) }, .redAdd { pre := bare, os := acqO, w := .d, data := 1, base := 2, flag := some 3 },
    .redFaddF32 { pre := bare, os := arO, data := 1, base := 2, flag := some 3 }, .taddF32 { pre := bare, os := acqO, v := 1, base := 2, flag := some 3 },
    .spawn { pre := bare, rd := 1, b := 2, start := .imm (-1) }, .waitc { pre := bare, rd := 0, b := 1, n := .imm (2 ^ 32) },
    .armMsg { pre := bare, rd := 32, b := 1, c := 2 }, .grow { pre := bare, rd := 1, y := .imm (-1) }, .mbxr { pre := bare, rd := 32 }] = true := by decide +kernel
theorem test_refuses_vectors : noneWf [
    .vadd { pre := bare, fmt := .f32, rm := .dyn, vd := 1, x := 2, y := .g 3 }, .vdiv { pre := bare, fmt := .f32, rm := .dyn, vd := 1, x := 2, y := .g 3 },
    .vfceq { pre := bare, fmt := .f32, pd := 1, x := 2, y := .v 3, sel := 1 }, .vceq { pre := bare, iw := .i8, pd := 1, x := 2, y := .v 3, sel := 4 },
    .vinarrow { pre := bare, iw := .i64, q := false, vd := 1, x := 2 }, .viwiden { pre := bare, iw := .i8, q := false, vd := 1, x := 2 },
    .vext { pre := bare, iw := .i64, rd := 1, x := 2, i := 16 }, .vins { pre := bare, iw := .i8, vd := 1, g := 2, i := 128 },
    .vfcvt { pre := bare, dst := .f16, src := .f32, rm := .dyn, q := 2, vd := 1, x := 2 },
    .vntof { pre := bare, sat := false, rm := .rne, nf := 0, q := 0, vd := 1, x := 2 }, .vrcp { pre := bare, fmt := .bf16, rm := .dyn, vd := 1, x := 2 },
    .vperm { pre := bare, iw := .i32, vd := 1, x := 2, mode := 2, k := 1 }, .vrot { pre := bare, iw := .i32, gs := 6, vd := 1, x := 2, y := .imm 1 },
    .vvoteAny { pre := bare, pd := 1, x := 2, gs := 0 }, .vmatch { pre := bare, iw := .i8, vd := 1, x := 2 },
    .vredMin { pre := bare, fmt := .f32, rm := .rne, gs := 5, vd := 1, x := 2 }, .vredIadd { pre := bare, iw := .i64, gs := 5, vd := 1, x := 2 },
    .vscanMax { pre := bare, fmt := .f32, rm := .rne, ex := false, gs := 5, vd := 1, x := 2 },
    .vscanIadd { pre := bare, iw := .i8, ex := false, gs := 8, vd := 1, x := 2 }] = true := by decide +kernel
theorem test_refuses_matrix : noneWf [
    .mmaMx { pre := bare, half := true, z := false, t := 1, a := 8, b := none }, .mload { pre := bare, t := 1, b := 32 },
    .mdrain { pre := bare, os := OrdSc.plain, note := false, i32 := true, t := 1, b := 2, flag := some 3 },
    .mdrainAdd { pre := bare, os := OrdSc.plain, note := false, i32 := true, t := 1, b := 2, flag := none },
    .mdrainQ { pre := bare, os := acqO, note := false, u := false, t := 1, b := 2, param := 3 }, .mcap { pre := bare, rd := 32 },
    .mfmt { pre := bare, nf := 0, x := 32 }, .mfmtr { pre := bare, rd := 32, nf := 0 }, .blkq { pre := bare, rd := 32 }, .blkqDone { pre := bare, b := 32 }] = true := by decide +kernel
theorem test_refuses_engines : noneWf [
    .copy { pre := bare, os := acqO, v := 1, b := 8 }, .lds { pre := bare, os := acqO, sx := false, rd := 1, b := 2, c := 4 },
    .ldso { pre := bare, os := relO, sx := false, rd := 1, b := 2, c := 4 }, .sts { pre := bare, os := OrdSc.plain, sx := true, rd := 1, b := 2, c := 4 },
    .stso { pre := bare, os := acqO, sx := false, rd := 1, b := 2, c := 4 }, .cfetch { pre := bare, os := relO, b := 32, flag := none },
    .ampApply { pre := bare, os := acqO, b := 2 }, .collRun { pre := bare, os := arO, b := 2, c := 3 }] = true := by decide +kernel
theorem test_refuses_machine_steps : noneWf [
    .kernelPacket 4096 0, .copyRun { pkg := 1, n := 8208 }, .timerWake { pkg := 1, n := 0 } 16, .braidRunStart 1 512, .groupPlacement 1 4, .preemptResume 1 16,
    .undefinedInstruction { cause := 0, aux := 0, priv := false }, .undefinedInstruction { cause := 6, aux := 0, priv := false }] = true := by decide +kernel

/-! ## Words written out from the spec's encodings -/

theorem test_words_of_every_family : wordSamples.all (fun r => decide (decode (r.1 ++ [0xFFFF]) = { instr := r.2, nwords := r.1.length })) = true := by decide +kernel
theorem test_words_to_5 : decode [0x781B, 0x7C30, 0x750C, 0x292A] = { nwords := 4, instr := .redMinu {
      pre := bare, os := { ord := .rlx, scope := .dev }, w := .w, data := 9, base := 10, flag := some 12 } } ∧
    decode [0x7803, 0x750A, 0x0C49] = { nwords := 3, instr := .ldf { pre := bare, half := true, v := 2, base := 9, pitch := 10 } } ∧
    decode [0x7804, 0x8400] = { nwords := 2, instr := .quit { pre := { bare with sw := true } } } ∧
    decode [0x7804, 0x2500] = { nwords := 2, instr := .ibx { pre := bare, rd := 8 } } := by decide +kernel
theorem test_words_to_7 : decode [0x7806, 0x7402, 0x1C61] = { nwords := 3, instr := .mrd { pre := bare, v := 3, t := 1, h := 2 } } ∧
    decode [0x7807, 0x0488] = { nwords := 2, instr := .copy { pre := bare, os := OrdSc.plain, v := 4, b := 8 } } ∧
    decode [0x7807, 0x740A, 0x2009] = { nwords := 3, instr := .collRun { pre := bare, os := OrdSc.plain, b := 9, c := 10 } } := by decide +kernel
/-- The first words of two rows of the opcode table, as withFetchWord stores them: `or g0, g0, g0` and `quit |`. -/
theorem test_table_words : decodeTableWord 16 0x1000 = some (.or { pre := bare, w := .d, rd := 0, x := 0, y := .reg 0 }) ∧
    decodeTableWord 32 0x78048400 = some (.quit { pre := { bare with sw := true } }) := by decide +kernel

/-! ## Worked examples of the spec -/

/-- R174: amounts at and beyond the width. -/
theorem test_shifts : aluRes .shl .d 5 64 = (0, {}) ∧ aluRes .sar .d (-8) 70 = (-1, {}) ∧ aluRes .shr .w 0x80000000 31 = (1, {}) ∧
    aluRes .shl .w 1 31 = (0xFFFFFFFF80000000, {}) := by decide
/-- R177: division by zero, and the most negative number by -1. -/
theorem test_division : aluRes .div .d 7 0 = (-1, { dz := true }) ∧ aluRes .rem .d 7 0 = (7, { dz := true }) ∧
    aluRes .div .w 0x80000000 0xFFFFFFFF = (0xFFFFFFFF80000000, {}) := by decide
/-- R94: the comparison of counts. -/
theorem test_counts : reached 0xFFFFFFFE 2 = false ∧ reached 1 2 = false ∧ reached 2 2 = true ∧ reached 0x80000001 2 = true ∧ reached 0x80000002 2 = false := by decide
/-- The presets of E2M1 and E4M3 (R122). -/
abbrev e2m1 : Fmt := { width := 4, signed := true, ew := 2, mw := 1, bias := 1, spec := .none, ieee := false }
abbrev e4m3 : Fmt := { width := 8, signed := true, ew := 4, mw := 3, bias := 7, spec := .nanOnly, ieee := false }
/-- R122: preset 4 is E2M1, preset 0 is E4M3. -/
theorem test_presets : nfFmt 0x2810 = some e2m1 ∧ nfFmt 0xB074 = some e4m3 ∧ nfFmt 0xFFFC = none := by decide
/-- R132: conversions to narrow formats, and one rounding only. -/
theorem test_conversions : fpConvert fp32 e2m1 .rtz false 0x40BCCCCD = (6, { nx := true }) ∧ fpConvert fp32 e2m1 .rtz false 0x7F800000 = (7, { of := true }) ∧
    fpConvert fp32 e2m1 .rtz false 0xFFC00000 = (0xF, { nv := true }) ∧ fpConvert fp32 e4m3 .rne false 0x7FC00000 = (0x7F, {}) ∧
    fpConvert fp32 e4m3 .rne false 0x43FA0000 = (0x7E, { of := true, nx := true }) ∧ (fpConvert fp64 bf16 .rne false 0x3FF0100000001000).1 = 0x3F81 := by decide +kernel
/-- R131 at its limits: 127, 128, -128 and -129 in 8 signed bits, 255, 256 and -1 in 8 unsigned bits, 1 in one bit. -/
theorem test_integer_limits : let f := fun (n : Bool) (m : Nat) => FVal.fin n m 0 false
    convToInt (f false 127) 8 true .rne = (127, {}) ∧ convToInt (f false 128) 8 true .rne = (127, { nv := true }) ∧ convToInt (f true 128) 8 true .rne = (-128, {}) ∧
    convToInt (f true 129) 8 true .rne = (-128, { nv := true }) ∧ convToInt (f false 255) 8 false .rne = (255, {}) ∧
    convToInt (f false 256) 8 false .rne = (255, { nv := true }) ∧ convToInt (f true 1) 8 false .rne = (0, { nv := true }) ∧ convToInt (f false 1) 1 false .rtz = (1, {}) := by
  decide +kernel
/-- R133: a block whose largest magnitude is 480, and one far below the range of the scale. -/
theorem test_block_scales : mxScale e4m3 [.fin false 480 0 false] = (127, {}) ∧ (mxElem e4m3 .rne 127 (.fin false 480 0 false)).1 = 0x7E ∧
    mxScale e2m1 [.fin false 3 (-200) false] = (0, {}) ∧ mxElem e2m1 .rne 0 (.fin false 3 (-200) false) = (0, { uf := true, nx := true }) := by decide +kernel
/-- R282: 5.0, -1.3 and 0.2 in E2M1. -/
theorem test_block_of_three : mxPack e2m1 .rne [decodeFp fp32 0x40A00000, decodeFp fp32 0xBFA66666, decodeFp fp32 0x3E4CCCCD] = (127, [0x6, 0xB, 0x0], { uf := true, nx := true }) := by
  decide +kernel
/-- R134: the three sums of the table, and the second without its last product. -/
theorem test_matrix_sums : matSum [plusZero, .fin false 1 24 false, .fin false 1 0 false, .fin false 1 0 false] = 0x4B800001 ∧
    matSum [.fin false 1 0 false, .fin false 1 (-24) false, .fin false 1 (-60) false] = 0x3F800001 ∧
    matSum [plusZero, .fin false 1 20 false, .fin true 1 20 false, .fin false 3 (-30) false] = 0 ∧
    matSum [.fin false 1 0 false, .fin false 1 (-24) false] = 0x3F800000 := by decide +kernel
/-- R284: the indices 31, 1, 32 and a large one, under a predicate that leaves lane 4 out. -/
theorem test_shuffle : let x := ofElems 32 ((List.range 32).map (100 + ·))
    let c := ofElems 32 [31, 0, 32, 0xFFFFFFFF, 2]
    let r := vshuf 32 (fun i => decide (i ≠ 4)) (ofElems 32 [9, 9, 9, 9, 9]) x c
    (List.range 5).map (elem 32 r) = [131, 100, 0, 0, 9] := by decide +kernel
/-- R290: the full reduction, the one without lane 3, and the scan of 1.0, 2^24, 1.0 and 1.0. -/
theorem test_reduction_and_scan : let v := ofElems 32 [0x3F800000, 0x4B800000, 0x3F800000, 0x3F800000]
    let add := fredComb .add fp32 .rne
    (List.range 4).map (elem 32 (vred add 32 2 (fun _ => true) 0 v).1) = [0x4B800001, 0x4B800001, 0x4B800001, 0x4B800001] ∧
    (List.range 4).map (elem 32 (vred add 32 2 (fun i => decide (i < 3)) 0 v).1) = [0x4B800000, 0x4B800000, 0x4B800000, 0] ∧
    (List.range 4).map (elem 32 (vscan add 0 false 32 2 (fun _ => true) 0 v).1) = [0x3F800000, 0x4B800000, 0x4B800000, 0x4B800001] := by decide +kernel
/-- R330: index 13 of the example record. -/
theorem test_amplitude_place : let x := 4 + 1 * 2 ^ 16 + 0x40000000 * 2 ^ 64 + (0x03 + 0x15 * 2 ^ 8 + 0x24 * 2 ^ 16 + 0x80 * 2 ^ 24) * 2 ^ 128
    qlrOk x = true ∧ ampAt x 13 = dw (2 * 2 ^ 48 + 0x001040000008) := by decide +kernel
/-- R204: a frame of 96 bytes below 0x800200080000 moves g2 to 0x80020007FFA0; the third one would pass the stack limit and leaves g2. -/
theorem test_frames : let at_ := fun (x : Nat) => withT { gThr 2 (dw x) with slim := dw 0x80020007FF00 }
    let g2 := fun (x : Nat) => (match exec (.enter { pre := bare, n := 96 }) (at_ x) with | .next s => (getT s c0 0).map (fun t => readG 0 t 2) | _ => none)
    g2 0x800200080000 = some 0x80020007FFA0#64 ∧ g2 0x80020007FF40 = some 0x80020007FF40#64 := by decide +kernel
/-- R438: 2 and 55 in a job of 8 · 4 · 2 · 1 are six hops apart. -/
theorem test_route : ((route { State.reset with job := some { na := 8, nb := 4, nc := 2, nd := 1 } } 2 55).map List.length) = some 6 := by decide +kernel

end Sys2Proof.Tests

/-! ## Hypotheses of the wider statements -/

namespace Sys2Proof.Tests
open Sys2Proof Sys2Proof.Machine
set_option Elab.async false

noncomputable section

/-- The page at 0x50000 of address space 0 in host memory. -/
def hostMem : List Host.Cell := xlatMem 0 |>.map (fun c => if c.1 = 2 ^ 48 + 0x30057 then (c.1, 0xE4) else c)
def hostThr : Thread := gThr 8 0x50010#64
def hostState : State := { withT hostThr with mem := hostMem }
def hostAt : Dword := 0x50010#64

def stpO (wt : Bool) (base : GReg) : StpOps := { pre := bare, os := OrdSc.plain, fill := true, wt := wt, data := .g .d 9, base := base, flag := none }
def wThr (domain weight : Nat) : Thread := { thr with domain := domain, weight := weight, regs := thr.regs.setG 11 0x40000#64 }
/-- The root of domain 1 holds x. -/
def rootState (t : Thread) (x : Nat) : State := domState t (dwordsAt 0x800000000200 [x])

/-- A thread that waits for its batch, with a shadow slot; instruction memory holds `or g0, g0, g0`. -/
def aheadThr : Thread := { thr with run := .held (.ticket 5) }
def aWait : FaultWait :=
  { core := c0, slot := 0, ticket := 5, page := 0, addr := 0, write := false, homePkg := 1, homeFp := 0, sent := false, words := [], shadow := true }
def turnState (t : Thread) (l : List FaultWait) : State := { modPkg (withT t) 1 (fun k => { k with waits := l }) with agenda := [{ dt := 1, act := .core c0 }] }

end

theorem test_meets_copy_port : let o : CopyOps := { pre := bare, os := OrdSc.plain, v := 3, b := 60 }
    inHand (netState []) netThr ∧ levelOk (netState []) (.copy o) = true ∧ allotted netThr (.copy o) = true ∧ running netThr (.copy o) = true ∧ netThr.net = true :=
  ⟨rfl, by decide +kernel, by decide +kernel, by decide +kernel, rfl⟩

/-- R225: a weight of 4, of 1 at a root that gives 2 or nothing, of 0, and a domain that has no root. -/
theorem test_meets_posted_weights : let ok := fun (s : State) (t : Thread) => readyB s t (.stp (stpO true 8)) && postB s (.stp (stpO true 8)) (operand s t (.stp (stpO true 8)) 0) 0 8 8 true
    let z := fun (s : State) => settled s (.stp (stpO true 8))
    (ok (rootState (wThr 1 4) 0) (wThr 1 4) && ok (rootState (wThr 1 1) 5) (wThr 1 1) && ok (rootState (wThr 1 1) 1) (wThr 1 1) && ok (rootState (wThr 2 1) 0) (wThr 2 1) &&
      ok (rootState (wThr 1 0) 0) (wThr 1 0) && ok (rootState (wThr 2 0) 0) (wThr 2 0)) = true ∧
    (match borrow (z (rootState (wThr 1 1) 5)) (whoOf c0 (wThr 1 1)) 1 with | .took _ m => m == 2 | _ => false) = true ∧
    (match borrow (z (rootState (wThr 1 1) 1)) (whoOf c0 (wThr 1 1)) 1 with | .exhausted _ v => v == 1 | _ => false) = true ∧
    (match borrow (z (rootState (wThr 2 1) 0)) (whoOf c0 (wThr 2 1)) 2 with | .noDomain => true | _ => false) = true ∧
    (rootOf (z (rootState (wThr 1 0) 0)) 1 0 1).isSome = true ∧ rootOf (z (rootState (wThr 2 0) 0)) 1 0 2 = none := by decide +kernel
theorem test_meets_posted_waits : let i := Instr.stp (stpO false 11)
    (readyB (withT (wThr 0 0)) (wThr 0 0) i = true ∧ issueAddr c0 (operand (withT (wThr 0 0)) (wThr 0 0) i 0) 8 8 = .inr 0x40000#64 ∧
      windowOf (locOf 0x40000#64) ≠ .none ∧ fillOk true 8 0x40000#64 = false) ∧
    (let s := { demo with items := List.replicate 64 (postItem here [1]) }
     readyB s thr (stp8 false) = true ∧ itemRoom (settled s (stp8 false)) c0 = false ∧ fillOk true 8 here = true) := by decide +kernel

theorem test_meets_homes : (portBehind (settled demo waitcI) (whoOf c0 thr) here (.issue c0 0 thr.seq)).isNone = true ∧
    (portBehind (settled (domState dThr []) quitI) (whoOf c0 dThr) 0x800000000200#64 (.issue c0 0 dThr.seq)).isNone = true := by decide +kernel
/-- R72: a `wquiet` that gives 4 to its own root, which is then full, and one whose root stays below. -/
theorem test_meets_own_quiet : ∀ x ∈ [2 ^ 63 - 4, 0], let t := { wThr 1 4 with regs := thr.regs.setG 11 1 }
    let s := rootState t x
    let z := settled s wquietI
    let z1 := (okAt z (whoOf c0 t) 0x800000000200#64 8 .rmw).1
    let ph := (okAt z (whoOf c0 t) 0x800000000200#64 8 .rmw).2
    let z2 := modT (writeWord z1 (whoOf c0 t) ph 8 ((readNat z1 t.gslot ph 8 + t.weight) % 2 ^ 64)) c0 0 (fun u => { u with weight := 0 })
    readyB s t wquietI = true ∧ (operand s t wquietI 0).toNat = t.domain ∧ t.weight ≠ 0 ∧ t.woken = none ∧ isOk z (whoOf c0 t) 0x800000000200#64 8 .rmw = true ∧
      (portBehind z (whoOf c0 t) 0x800000000200#64 (.issue c0 0 t.seq)).isNone = true ∧ (portBehind z2 (whoOf c0 t) 0x800000000200#64 (.issue c0 0 t.seq)).isNone = true ∧
      isOk z2 (whoOf c0 t) 0x800000000200#64 8 .read = true ∧ markerOf t wquietI = false ∧
      readNat (okAt z2 (whoOf c0 t) 0x800000000200#64 8 .read).1 t.gslot (okAt z2 (whoOf c0 t) 0x800000000200#64 8 .read).2 8 = x + 4 := by decide +kernel

/-- An access that the host answers as far as its free value `Config.hostFails` lets it (R432, log entry 64). -/
def hostReach (s : State) (w : Who) (a : Dword) (k : AKind) : Bool :=
  match xlate s w a (decide (k ≠ .read)) with
  | (z, .at_ ph lim none true) => decide (8 ≤ lim) && !isSram ph && !protectedBytes z w.gslot ph 8 && !poisoned z w.gslot ph 8 && decide (hostBase ≤ ph)
  | _ => false

theorem judge_hostReach (s : State) (w : Who) (a : Dword) (k : AKind) (h : hostReach s w a k = true) (hk : k ≠ .rmwDev) :
    ∃ z ph, hostBase ≤ ph ∧ (Config.hostFails z.tick ph = false → judge s w a 8 k = (z, .ok ph true)) := by
  unfold hostReach at h
  split at h
  · rename_i z ph lim hx
    simp only [Bool.and_eq_true, decide_eq_true_eq, Bool.not_eq_true'] at h
    obtain ⟨⟨⟨⟨hl, hs⟩, hp⟩, hq⟩, hb⟩ := h
    refine ⟨z, ph, hb, fun hf => ?_⟩
    unfold judge
    rw [hx]
    simp [hs, hp, hq, hf, hk, Nat.not_lt.mpr hl]
  · simp at h

/-- R250: a flag in host memory, one that has been reached, and a table that is full. -/
theorem test_meets_host_arm : readyB hostState hostThr (armI false false) = true ∧ issueAddr c0 (operand hostState hostThr (armI false false) 0) 8 8 = .inr hostAt ∧
    hostReach (settled hostState (armI false false)) (whoOf c0 hostThr) hostAt .read = true ∧
    (portBehind (settled hostState (armI false false)) (whoOf c0 hostThr) hostAt (.issue c0 0 hostThr.seq)).isNone = true := by decide +kernel
theorem test_meets_arm_ends : ∀ inc : Bool, let i := armI false inc
    let m : Arm := { who := whoOf c0 thr, flag := here, n := 1, op := .msg 0 }
    let s := { demo with arms := List.replicate 64 m }
    let f := { demo with mem := dwordsAt 0x800000000100 [7] }
    readyB s thr i = true ∧ 64 ≤ eddyUsed (atFlag s thr i).1 c0 ∧ readyB f thr i = true ∧
      reached (leNat (readJudged (atFlag f thr i).1 (whoOf c0 thr) here (atFlag f thr i).2 8)) 7 = true ∧ (atFlag f thr i).2 < hostBase := by decide +kernel
theorem test_meets_disarm : let m : Arm := { who := whoOf c0 thr, flag := here, n := 9, op := .msg 7 }
    let s := { demo with arms := [m] }
    let i := armI true false
    let z := atFlag s thr i
    readyB s thr i = true ∧ (operand s thr i 1).toNat = 7 ∧
      z.1.arms.find? (fun m => decide (m.who.core = c0 ∧ m.op = .msg 7 ∧ homeNow z.1 m.who m.flag = some (homeOf z.1 thr.gslot z.2))) = some m ∧
      (atFlag demo thr i).1.arms = [] := by decide +kernel
theorem test_meets_second_flag : ∀ dis : Bool, let o : RrrOps := { pre := bare, rd := 9, b := 8, c := 9 }
    let i := if dis then Instr.disarmInc o else Instr.armInc o
    readyB demo thr i = true ∧ issueAddr c0 (operand demo thr i 0) 8 8 = .inr here ∧ issueSecond (settled demo i) (ctxOf demo thr i) (operand demo thr i 1) = .inl 4 ∧
      issueSecond (settled demo (armI dis true)) (ctxOf demo thr (armI dis true)) (operand demo thr (armI dis true) 1) = .inr here := by decide +kernel

/-- R65: the last arrival of the next phase; a unit on which a thread of the core is parked while an `srw` would disable it. -/
theorem test_meets_reel_ends : (let s := reelState (reelOf 2 1); readyB s thr (barI false) = true ∧ reelUsable (settled s (barI false)) (ctxOf s thr (barI false)) 3 = some (reelOf 2 1)) ∧
    (let t := gThr 9 0x904000000#64
     let s := modCore (withT t) c0 (fun k => { k with reel := k.reel.setIfInBounds 3 (reelOf 0 0), slots := k.slots.setIfInBounds 1 (some { thr with run := .parked (.barWait 3 9) false }) })
     readyB s t (srwI 19) = true ∧ parkedOnReel (getCore (settled s (srwI 19)) c0) 3 = true ∧ (operand s t (srwI 19) 0).toNat / 2 ^ 63 = 0) := by decide +kernel

theorem test_meets_shootdown_waits : let q : PortReq := { core := c0, stack := 0, pid := 0, asid := 0, page := 0x50000, big := false, req := .item 4, ticket := none, refused := false }
    let s := modPkg (xlatState 0 pageThr) 1 (fun k => { k with retries := [q] })
    let u := xlatState 0 { pageThr with woken := some 0 }
    (getPkg (drainAll (settled s (sdI 4))) 1).retries = [q] ∧ readyB s pageThr (sdI 4) = true ∧ q.since ≤ (settled s (sdI 4)).tick ∧
      (getPkg (settled (xlatState 0 pageThr) (sdI 4)) 1).retries = [] ∧ (∀ k ∈ [3, 4], readyB u { pageThr with woken := some 0 } (sdI k) = true) ∧
      (let t := { pageThr with regs := pageThr.regs.setG 11 0x20000000000#64 }
       readyB (xlatState 0 t) t (sdI 1) = true ∧ (pageAt (settled (xlatState 0 t) (sdI 1)) 1 0 0 0x20000000000).isNone = true) := by decide +kernel
theorem test_meets_port_answer : let t := { thr with regs := (thr.regs.setG 11 5).setG 12 0#64 }
    let q : PortReq := { core := c0, stack := 0, pid := 0, asid := 0, page := 0x50000, big := false, req := .item 4, ticket := some 5, refused := false }
    let s := { modPkg (fpState t) 1 (fun k => { k with faults := [q] }) with items := [postItem here [1]] }
    ∀ k ∈ [5, 6], readyB s t (sdI k) = true ∧ ticketPkg (settled s (sdI k)) 1 5 = some 1 ∧ (getPkg (settled s (sdI k)) 1).waits = [] ∧
      (getPkg (settled s (sdI k)) 1).faults.find? (fun r => decide (r.ticket = some 5)) = some q ∧ (postItem here [1]).id = 4 := by decide +kernel

/-- The downstream core of the ring when its crew has left for its image, and one where it is halted. -/
theorem test_meets_stopped_ring : let r := { areaRedirect with core := downstream 0 }
    let s := { modCore (ringState id) { pkg := 1, n := downstream 0 } (fun x => { x with tenancy := none }) with redirects := [r] }
    readyB s thr (ringI 1) = true ∧ coResident (settled s (ringI 1)) c0 thr = true ∧ crewOff (settled s (ringI 1)) 1 (downstream 0) thr.gslot = true ∧
      netStopped (ringState id) 1 (downstream 0) thr.gslot = false ∧
      netStopped (setCore (ringState id) { pkg := 1, n := downstream 0 } { Core.reset with slots := Core.reset.slots.set 0 (some { thr with halted := true }) }) 1 (downstream 0) thr.gslot = true := by
  decide +kernel

theorem test_meets_acceptable : ∀ op ∈ [AccOp.read [(here, 4)] 4 (.scalar true), .write [(here, [1, 2, 3])] 3, .rmw .cas here 8 1 0, .fill here [1], .clear here, .sectors [(here, [1, 2])] 2],
    let s := accState op
    accWaits s (whoOf c0 (accThr op)) (acc op) = false ∧ (op.ranges.all (fun x => (portBehind s (whoOf c0 (accThr op)) x.1 (.access c0 0 (acc op).no)).isNone)) = true ∧
      isOk (settleFor s (whoOf c0 (accThr op)) 0 (acc op)) (whoOf c0 (accThr op)) here 8 .cas = true ∧ protectedBytes s thr.gslot (physOf c0 here) 8 = false ∧ physOf c0 here % 64 + 3 ≤ 64 := by decide +kernel
/-- R96, R432: arrivals on a flag in host memory, and behind one that is being delivered again. -/
theorem test_meets_arrival_order : (∀ x : Bool, let a := arrivalAt here x
      retryBefore (arrState here x) a = false ∧ (portBehind (arrState here x) a.who a.flag (.arrival a.id)).isNone = true ∧ a.counted = false) ∧
    (let a := { arrivalAt hostAt true with who := whoOf c0 hostThr }
     let s := { hostState with arrivals := [a] }
     retryBefore s a = false ∧ (portBehind s a.who a.flag (.arrival a.id)).isNone = true ∧ hostReach s a.who a.flag .rmw = true ∧
       Memory.wf (xlate s a.who a.flag true).1.mem = true ∧ (xlate s a.who a.flag true).1.redirects = []) ∧
    (let b := { arrivalAt here false with id := 3, retry := true }
     retryBefore { demo with arrivals := [b, arrivalAt here false] } (arrivalAt here false) = true) ∧
    (portBehind (itemState here) (whoOf c0 thr) here (.item 4)).isNone = true := by decide +kernel

theorem test_meets_admission_reasons : let k := { kernelPk with asid := 0 }
    let s := takenState k (headerMem 0x4B39584C)
    let bad := takenState { kernelPk with asid := 0, bits := BitVec.ofNat 512 (packetBits 1 [0x900000000000, 0, 0, 0, 0, 3 * 2 ^ 38 + 1] 0x800000000100) } []
    kernelPk.asid = 0xFFFF ∧ nextPacket s 1 0 = some k ∧ waitingSlot (updateReserve s 1) 1 0 k = none ∧
      (match readHeader (updateReserve s 1) (packetWho 1 0 k) (.packet 0 7) (dw 0x800000001000) with
        | .ok z1 h => admitReason z1 1 0 (kFields k.bits.toNat) h == 0 && !h.coloc && !h.net
        | _ => false) = true ∧
      (match readHeader (updateReserve bad 1) (packetWho 1 0 k) (.packet 0 7) (dw 0x900000000000) with | .bad _ => true | _ => false) = true := by decide +kernel

theorem test_meets_messages : ∀ op ∈ [0, 1, 2], let s := preState (pre op 2 [(0, 0, 0)]) 0 []
    noteRoom s 1 0 (preemptWeir s 1 (pre op 2 [(0, 0, 0)])) = true ∧ trapOpen s 1 (0, 0, 0) = false ∧ noteRoom s 1 0 (preemptWeir s 1 (pre 3 1 [])) = true := by decide +kernel

/-- Requests of the host: none held, one held, and one that a cluster awake lets go on. -/
theorem test_meets_host_queue : let r : HostReq := { fn := 1, bar := .sram, off := 0, op := .inr 8 }
    let s := modPkg upState 1 (fun k => { k with hostReqs := [r] })
    noneHeld upState 1 1 ∧ noneHeld upState 1 0 ∧ ¬ noneHeld s 1 1 ∧ hostWaits (reencoded s 1 0) 1 r = [] ∧ (getPkg s 1).hostReqs = [r] := by
  unfold noneHeld; decide +kernel
theorem test_meets_clock : upState.clock < (getPkg upState 1).lastStep + 1900000 ∧ (getPkg upState 1).lastStep + 1900000 ≤ { upState with clock := 1900000 }.clock ∧
    (getPkg upState 1).fuses = none ∧
    (getPkg (modPkg upState 1 (fun k => { k with fuses := some { harvest := [(0, 8)], defects := [(1, 3)], badStacks := [15], fpCode := [] } })) 1).fuses ≠ none := by decide +kernel
theorem test_meets_notes : let s := { demo with arms := [] }
    let c : CoreId := { pkg := 1, n := 8192 + notifyOf s 1 0 }
    notesOf (getCore s c) (hostSender 1 0) = [] := by decide +kernel
theorem test_meets_tlb_error : let t : Tlb := { stack := 2, pid := 0, asid := 0, va := 0, big := false, leafAt := 0, leaf := 0 }
    let s := modPkg demo 1 (fun k => { k with tlb := [{ t with stack := 0 }, t] })
    ((getPkg s 1).tlb.filter (fun x => decide (x.stack = 2)))[0]? = some t := by decide +kernel

theorem test_meets_turns : (let s := turnState thr []
      s.turn.act = .core c0 ∧ coreExists s c0 = true ∧ turnSlot (refresh (drainSome s.started) c0) c0 = some 0 ∧
        getT (refresh (drainSome s.started) c0) c0 0 = some thr ∧ aheadOf (refresh (drainSome s.started) c0) c0 0 = none) ∧
    (let s := turnState aheadThr [aWait]
     turnSlot (refresh (drainSome s.started) c0) c0 = some 0 ∧ aheadOf (refresh (drainSome s.started) c0) c0 0 = some aWait) ∧
    (let s := turnState aheadThr []
     turnSlot (refresh (drainSome s.started) c0) c0 = none) ∧ (getCore demo c0).last < 16 := by decide +kernel

end Sys2Proof.Tests

/-! ## What the statements of units, queues, ports and items ask besides -/

namespace Sys2Proof.Tests
open Sys2Proof Sys2Proof.Machine
set_option Elab.async false

noncomputable section

/-- The example state beside another thread of the core. -/
def besideThr (u : Thread) : State := setT demo c0 1 (some u)
def divI : Instr := .div { pre := bare, w := .d, rd := 20, x := 9, y := .imm 1 }
def zeroI : Instr := .mzero { pre := bare, t := 7 }
def badTarget : Instr := .stp (stpO false 9)
def badFlag : Instr := .stp { stpO false 8 with flag := some 9 }

end

/-- R172, R291: a unit that is busy, one that another thread waits for longer, and a matrix queue with room for which another thread waits longer. -/
theorem test_meets_units : (usesOf divI).unit = some .divide ∧ common demo thr divI = true ∧ allotted thr divI = true ∧ running thr divI = true ∧
    unitBusy (besideThr { thr with out := [{ someOut with unit := some .divide }] }) c0 .divide = true ∧
    lineTaken (getCore (besideThr { thr with claims := [(3, .unit .divide)] }) c0) 0 thr (.unit .divide) = true ∧
    (let s := besideThr { thr with claims := [(3, .mqueue)] }
     readyB s thr zeroI = true ∧ (getCore (settled s zeroI) c0).mq.length < 8 ∧ lineTaken (getCore (settled s zeroI) c0) 0 thr .mqueue = true) ∧
    lineTaken (getCore demo c0) 0 thr .mqueue = false := by decide +kernel
/-- R91, R212: a misaligned target, a misaligned flag, and a target that no window holds. -/
theorem test_meets_targets : readyB demo thr badTarget = true ∧ (operand demo thr badTarget 0).toNat % 8 ≠ 0 ∧ readyB demo thr badFlag = true ∧
    (operand demo thr badFlag 0).toNat % 8 = 0 ∧ (operand demo thr badFlag 1).toNat % 8 ≠ 0 ∧
    (let t := gThr 8 nowhere
     readyB (withT t) t (stp8 false) = true ∧ (match issueAddr c0 (operand (withT t) t (stp8 false) 0) 8 8 with | .inr a => decide (windowOf (locOf a) = .none) | .inl _ => false) = true) ∧
    (∀ row ∈ atomRows, readyB demo thr (row.1 { pre := bare, os := OrdSc.plain, w := .w, rd := 5, base := 9, y := .imm (-1) }) = true) ∧
    (match issueAddr c0 7 4 4 with | .inl c => c == 4 | .inr _ => false) = true := by decide +kernel
/-- R203, R255: segment 0 that is not in instruction memory, and a barrier on a unit of no crew. -/
theorem test_meets_segment_0 : (let s := modCore demo c0 (fun k => { k with base := none, resident := [] })
     readyB s thr (jov 0 62) = true ∧ segmentHere s 0 = false) ∧
    (∀ w, readyB demo thr (barI w) = true ∧ reelUsable (settled demo (barI w)) (ctxOf demo thr (barI w)) 3 = none) := by decide +kernel
/-- R236, R320: a copy that takes weight along: from a thread of weight 4, and of weight 1 at a root that gives 2. -/
theorem test_meets_copy_weight : ∀ d ∈ [(4, 0), (1, 5)], let x := layRec + 2 ^ 17
    let y := x + sealOf x * 2 ^ 496
    let t := { layThr y with domain := 1, weight := d.1 }
    let s := rootState t d.2
    readyB s t copyI = true ∧ (readV (settled s copyI).tick t 3).toNat % 2 ^ 512 = y ∧ y / 2 ^ 17 % 2 = 1 ∧ itemRoom (settled s copyI) c0 = true ∧
      (match copyCheck (settled s copyI) c0 t.pid y (operand s t copyI 0) (operand s t copyI 1) (operand s t copyI 2) with
        | .inr r => r == (0x800000001000#64, 0x800000002000#64, 0#64) | .inl _ => false) = true ∧ t.domain ≠ 0 ∧
      (d.1 = 4 ∨ (match borrow (settled s copyI) (whoOf c0 t) 1 with | .took _ m => m == 2 | _ => false) = true) := by decide +kernel
/-- R72: an amplitude operation where the core has 64 items, and a waiter that its flag's delivery has woken. -/
theorem test_meets_full_items : itemRoom (settled { ampState with items := List.replicate 64 (postItem here [1]) } ampI) c0 = false ∧
    (let t := { thr with woken := some 5 }
     readyB (withT t) t waitcI = true ∧ readyB (withT t) t (fldI false) = true) := by decide +kernel
/-- R405: the rows of `tlbsd` by OP. -/
theorem test_meets_tlbsd_rows : ∀ op ∈ [0, 1, 2, 3, 4, 5, 6], let t := gThr 9 (BitVec.ofNat 64 (op * 2 ^ 60))
    getT (withT t) c0 0 = some t ∧ (readG 0 t 9).toNat / 2 ^ 60 = op := by decide +kernel

end Sys2Proof.Tests

namespace Sys2Proof.Tests
open Sys2Proof Sys2Proof.Machine
set_option Elab.async false

noncomputable section

/-- A request of core 0 for the page at 0x50000 that is held at its port, and the page in transit. -/
def portReq (r : Req) : PortReq := { core := c0, stack := 0, pid := 0, asid := 0, page := 0x50000, big := false, req := r, ticket := none, refused := false }
def transit (l : Option CoreId) : Transit := { stack := 0, pid := 0, asid := 0, va := 0x50000, big := false, landing := l }
def portState (f : Pkg → Pkg) : State := modPkg (xlatState 0 pageThr) 1 f

/-- An item on its way, and one whose thread sends its access itself. -/
def anItem (op : ItemOp) (flag : Dword) (share domain : Nat) : Item := { postItem here [] with op := op, flag := flag, share := share, domain := domain }
def withItem (i : Item) : State := { demo with items := [i] }
def settledItem (i : Item) : State := settlePair (withItem i) i.who i.reaches [i.addr]

end

/-- R406, R416, R417: `tlbsd` on a page that is in transit, or is landing; requests that go on at once, and one that its thread sends again itself. -/
theorem test_meets_landing_page : (∀ k ∈ [1, 2], ∀ l ∈ [none, some c0], let s := portState (fun k => { k with transits := [transit l], held := [portReq (.issue c0 0 9)] })
      readyB s pageThr (sdI k) = true ∧ transitAt (settled s (sdI k)) 1 0 0 0x50000 = some (transit l) ∧ pageThr.woken = none) ∧
    (let q := portReq (.discard f0 0 0 0 0x50000)
     transitAt (portState id) 1 0 0 0x50000 = none ∧ transitAt (portState (fun k => { k with transits := [transit none] })) 1 0 0 0x50000 = some (transit none) ∧
       q.req = .discard f0 0 0 0 0x50000) ∧
    (let s := setT (portState id) c0 0 (some thr)
     awaited s (portReq (.issue c0 0 thr.seq)) = true ∧ awaited s (portReq (.item 4)) = false ∧ awaited s (portReq (.issue c0 0 (thr.seq + 1))) = false) := by decide +kernel
/-- R416: requests that wait for a retry: behind an earlier one, behind one at the port, one that its thread sends, and one that goes on. -/
theorem test_meets_retries : let q := portReq (.item 4)
    let v := portReq (.item 5)
    let s := modPkg demo 1 (fun k => { k with retries := [q, v] })
    let h := modPkg demo 1 (fun k => { k with retries := [q], held := [v] })
    let a := portReq (.issue c0 0 thr.seq)
    let w := modPkg demo 1 (fun k => { k with retries := [a] })
    let on := fun (s : State) => (s.pkgs.map (fun x => x.1)).foldl portsOn s
    (allRetries (on s))[1]? = some (1, v) ∧ ((getPkg (on s) 1).retries.takeWhile (fun x => decide (x ≠ v))) = [q] ∧ (allRetries (on h))[0]? = some (1, q) ∧
      ((getPkg (on h) 1).held).getLast? = some v ∧ (allRetries (on w))[0]? = some (1, a) ∧ awaited (on w) a = true ∧ awaited (on s) q = false := by decide +kernel
/-- R226 to R232: items of every kind that are delivered. -/
theorem test_meets_item_kinds : (∀ op ∈ [ItemOp.store [(0, [1, 2])] false, .store [(0, [1, 2])] true, .red .add 4 3, .adds [{ off := 0, op := .faddBf16, v := 1 }], .getl here false, .getl here true],
      let i := anItem op 0 0 0
      (withItem i).items[0]? = some i ∧ i.stage = .sent ∧ itemBlocked (withItem i) i = false ∧ (i.reaches.all (fun a => (portBehind (withItem i) i.who a (.item i.id)).isNone)) = true ∧
        i.note = false ∧ isOk (settledItem i) i.who here 128 .write = true ∧ isOk (settledItem i) i.who here 4 .rmwDev = true ∧ isOk (settledItem i) i.who here 2 .fill = true ∧
        isOk (settledItem i) i.who here 32 .read = true ∧ physOf c0 here % 128 = 0 ∧ (settledItem i).redirects = [] ∧ Memory.wf (settledItem i).mem = true) := by decide +kernel
/-- R72: the weight of an item given back to its root. -/
theorem test_meets_item_weight : let s := rootState (wThr 1 4) 5
    (match rootOf s 1 0 1 with | some (root, _) => isOk s (whoOf c0 (wThr 1 4)) root 8 .rmw && (portBehind s (whoOf c0 (wThr 1 4)) root (.owed s.itemSeq)).isNone | none => false) = true := by decide +kernel
/-- R249, R452: polls of a cluster that sleeps. -/
theorem test_meets_asleep_polls : ∀ w ∈ [ParkOn.flag (dw (2 ^ 48 + 0x800000000100)) 5, .root (dw (2 ^ 48 + 0x800000000100))], let t := { thr with run := .parked w false }
    let s := modHub (withT t) 1 0 (fun h => { h with ret := .asleep })
    getT s c0 0 = some t ∧ (portBehind s (whoOf c0 t) (dw (2 ^ 48 + 0x800000000100)) (.issue c0 0 t.seq)).isNone = true ∧
      (match judge s (whoOf c0 t) (dw (2 ^ 48 + 0x800000000100)) 8 .read with | (_, .asleep p k) => decide (p = 1 ∧ k = 0) | _ => false) = true ∧
      isOk (withT t) (whoOf c0 t) (dw (2 ^ 48 + 0x800000000100)) 8 .read = true := by decide +kernel
/-- R60: a deferred record of a list, within its heap. -/
theorem test_meets_walk_heap : let w : Walk := { pkg := 1, cluster := 0, pid := 0, next := 1 }
    let s := { modBlock demo 1 0 (fun b => { b with heap := 0x100000#64 }) with walks := [w] }
    s.walks[0]? = some w ∧ (ringFree (getHub s 1 0)).isSome = true ∧ 0 < w.next ∧ w.next ≤ (heapOf s 1 0).2 ∧ Memory.wf s.mem = true := by decide +kernel
/-- R64: arrivals that reach the corner of a rectangle of two rows: the first of them, and the one that completes the phase. -/
theorem test_meets_corner : let r := { reelOf 0 0 with reg := 0x8000000904000000#64 ||| BitVec.ofNat 64 (1 * 2 ^ 13) }
    let n := coreAt 1 0
    let m : ReelMsg := { pkg := 1, at_ := 0, src := 0, unit := 3, era := 0, phase := 9, reg := r.reg, gslot := some 0 }
    let c : CoreId := { pkg := 1, n := n }
    let s := fun (l : List ReelMsg) => { setCore demo c { Core.reset with tenancy := some 0, reel := Core.reset.reel.setIfInBounds 3 r } with reelArr := m :: l }
    let own := { m with src := n, at_ := n }
    reelNext m.reg 0 = some n ∧ reelNext m.reg n = none ∧ (getCore (s []) c).reel[3]? = some r ∧ r.reg.toNat / 2 ^ 63 = 1 ∧ rectCores (reelRect r.reg) = [0, n] ∧
      (∀ e ∈ rectCores (reelRect r.reg), ∃ x ∈ (s [own]).reelArr.set 0 (movedTo m n), x.src = e) ∧ (∀ x ∈ (s []).reelArr.set 0 (movedTo m n), x.src ≠ n) ∧
      (getCore (s []) c).tenancy = m.gslot ∧ r.reg.toNat / 2 ^ 32 % 2 ^ 16 = 9 := by decide +kernel

end Sys2Proof.Tests

namespace Sys2Proof.Tests
open Sys2Proof Sys2Proof.Machine
set_option Elab.async false

noncomputable section

/-- A thread with a result for a vector register, of lanes 1 and 3, and one for a predicate. -/
def laneOut : Out := { someOut with dst := .v 5, ready := true, val := .vec ([1, 3].map (fun e => (32 * e, 32, e + 7))) }
def predOut : Out := { someOut with dst := .p 5, ready := true, val := .dword 5 }

/-- The two elements of the copy of layRec. -/
def layCopy (flag : Dword) : CopyJob := { aCopy layRec flag with dst := 0x800000001000#64, src := 0x800000002000#64 }
def layState (flag : Dword) : State := { demo with copies := [layCopy flag] }

/-- A cluster in retention, and one that falls asleep. -/
def retState (r : Ret) (m : List Nat) : State := { modHub upState 1 0 (fun h => { h with ret := r }) with poison := m }

end

/-- R149, R152, R222: vector reads, masked and partial stores and floating read-modify-writes that are accepted. -/
theorem test_meets_vector_acceptance : ∀ op ∈ [AccOp.read [(here, 4), (here + 4, 4)] 128 (.lanes [0, 32]), .sectors [(here, [1, 2]), (here + 32, [3])] 128,
      .rmw .faddF32 here 4 1 0, .rmw .faddBf16 here 2 1 0],
    let s := accState op
    let z := settleFor s (whoOf c0 (accThr op)) 0 (acc op)
    getT s c0 0 = some (accThr op) ∧ (accThr op).acc[0]? = some (acc op) ∧ mayAccept s (whoOf c0 (accThr op)) (accThr op) 0 = true ∧
      (∀ k ∈ [AKind.read, .write], spanOk z (whoOf c0 (accThr op)) k (op.ranges.map (fun x => x.1)) 128 = true) ∧
      (judgeAll z (whoOf c0 (accThr op)) .read [(here, 4), (here + 4, 4)]).2.isLeft = true ∧ (judgeAll z (whoOf c0 (accThr op)) .write [(here, 2), (here + 32, 1)]).2.isLeft = true ∧
      isOk z (whoOf c0 (accThr op)) here 4 .rmwDev = true := by decide +kernel
theorem test_meets_vector_landing : (∀ o ∈ [laneOut, predOut, { someOut with dst := .t 3 }], let t := { thr with out := [o] }
      getT (withT t) c0 0 = some t ∧ t.out[0]? = some o ∧ t.acc = []) ∧
    laneOut.ready = true ∧ predOut.ready = true ∧ ([1, 3] : List Nat).Nodup ∧ ∀ e ∈ [1, 3], e < 1024 / 32 ∧ e + 7 < 2 ^ 32 := by decide +kernel

/-- R321: a copy of two elements, with a flag and without; and one that an earlier item of its core keeps back. -/
theorem test_meets_copy_elements : ∀ b : Bool, let flag := if b then here else 0
    let j := layCopy flag
    let s := layState flag
    s.copies.find? (fun j => decide (j.core = c0)) = some j ∧ copyBlocked s j = false ∧ j.job.packet = none ∧ j.job.failed = false ∧ j.job.note = false ∧ j.share = 0 ∧
      layoutOk (j.rcd.toNat % 2 ^ 496) = true ∧ j.rcd.toNat / 2 ^ 16 % 2 = 0 ∧
      copyElements j.rcd.toNat j.src j.dst = [(0x800000002000#64, 0x800000001000#64), (0x800000002008#64, 0x800000001008#64)] ∧
      copyBlocked { s with items := [{ postItem 0x800000001000#64 [1] with id := 0 }], copies := [{ j with id := 1 }] } { j with id := 1 } = true := by decide +kernel
theorem test_meets_copied_elements : let j := layCopy here
    let w := j.job.who
    let z := settlePair (layState here) w [j.src, j.dst] [j.dst]
    let gone := { z with copies := [] }
    (noWaitB z w (.copy j.id) [(0x800000002000#64, false), (0x800000001000#64, true), (0x800000002008#64, false), (0x800000001008#64, true)] &&
      ([0x800000002000#64, 0x800000002008#64] : List Dword).all (fun a => decide ((judge gone w a 8 .read).1 = gone) && isOk gone w a 8 .read) &&
      ([0x800000001000#64, 0x800000001008#64] : List Dword).all (fun a => decide ((judge gone w a 8 .write).1 = gone) && isOk gone w a 8 .write)) = true := by decide +kernel

/-- R249, R387, R389: WAITFLAG packets whose flag has been met or not, a SIGNAL that has been sent or has arrived, and a torn packet. -/
theorem test_meets_packet_ends : (nextPacket (takenState { waitPk with met := true } []) 1 0 = some { waitPk with met := true } ∧ waitPk.met = false) ∧
    (let k := { signalPk with started := true }
     let s := takenState k []
     let a : Arrival := { arrivalAt here false with who := packetWho 1 0 k, addr := dw 0, tag := 8 }
     (getQueue s 1 0).pkts.find? (fun x => x.started && decide (x.type = 6)) = some k ∧ s.arrivals = [] ∧ a.kind = 0 ∧ a.tag = k.no + 1 ∧
       (getQueue s 1 0).pkts.find? (fun x => decide (x.no = 7)) = some k ∧ k.type = 6) ∧
    (let k := { copyPk with bad := [7] }; nextPacket (takenState k []) 1 0 = some k ∧ 7 ∈ k.bad) := by decide +kernel

/-- R361, R369: messages with room and without. -/
theorem test_meets_full_notes : let q := pre 0 1 []
    let f : CoreId := { pkg := 1, n := 8192 + notifyOf demo 1 0 }
    let busy := fun (s : State) (k : Nat) => modCore s f (fun c => { c with mailbox := List.replicate 64 1, notify := List.replicate 1024 (senderAt 1 k, 1) })
    noteRoom (busy (preState q 0 []) (preemptWeir (preState q 0 []) 1 q)) 1 0 (preemptWeir (preState q 0 []) 1 q) = false ∧
      noteRoom (busy (tqState false) (clusterOf (trapRec.rcd.toNat / 2 ^ 384 % 2 ^ 13))) 1 0 (clusterOf (trapRec.rcd.toNat / 2 ^ 384 % 2 ^ 13)) = false ∧
      (getPkg (modPkg demo 1 (fun k => { k with trapWaits := [{ trapRec with sent := some 3 }] })) 1).trapWaits = [{ trapRec with sent := some 3 }] ∧
      getGrid (preState (pre 0 0 []) 1048576 []) 1 0 = some placedGrid ∧ (0 ∈ liveGrids (preState (pre 1 0 []) 1048576 []) 1 0) ∧
      (∀ x ∈ (pre 3 1 [(0, 0, 0)]).todo, x.1 = 0 ∧ isOffCore (preState (pre 3 1 [(0, 0, 0)]) 0 []) 1 x.2.1 x.1 x.2.2 = false) := by decide +kernel

/-- R430, R452: the host at a cluster that sleeps, and re-encodings that are due, over an uncorrectable dword and not. -/
theorem test_meets_asleep_windows : windowAt (retState .asleep []) 1 1 false 0 8 = some (2 ^ 48 + 0x800000000000) ∧ windowAsleep (retState .asleep []) 1 false 0 8 = [0] ∧
    (∀ r ∈ [Ret.entering 5 false, .entering 5 true, .exiting 5], ∀ m ∈ [[], [2 ^ 48 + 0x800000000100]], let s := { retState r m with clock := 5 }
      (getPkg s 1).hostReqs = [] ∧ s.poison.filter (inCluster 1 0) = m ∧ (getHub s 1 0).ret = r) := by decide +kernel

/-- R436, R447: a ring of two packages, whose ports lead to each other. -/
theorem test_meets_links : let a : JobAxis := { size := 2, auth := [] }
    let j : Job4 := { na := 2, nb := 1, nc := 1, nd := 1 }
    a.size ≤ 64 ∧ (∃ port, port < 8 ∧ peerOf j 1 port = some 2 ∧ peerOf j 2 (opposite port) = some 1) ∧ ∃ port, port < 8 ∧ peerOf j 1 port = none := by decide +kernel

/-- R300, R301: products of each family, of two panels and of a panel and the latch, and one under a latch of another width. -/
theorem test_meets_product_kinds : (∀ x ∈ [(0, 0, 0), (1, 0, 0), (2, 8, 1), (3, 0, 0), (3, 1, 1), (3, 0, 2), (0, 2, 0), (1, 3, 0), (3, 2, 2)],
      let m := { cmd (.product x.1 x.2.1 x.2.2) with nfA := 0xB074, nfB := 0xB074 }
      let g := geoOf x.1 x.2.2 ((nfFmt m.nfA).getD fp32).width
      headCommand (mqState m) c0 [] m [] thr ∧ tileFree [] m ∧ m.remote = none ∧ m.tile < 8 ∧
        operandAt c0 (m.da &&& 0xFFFFFFFFFFFFFF80#64) g.bytes = some (2 ^ 48 + 0x800000000100) ∧
        allFull (mqState m) thr.gslot [(2 ^ 48 + 0x800000000100, g.bytes)] = true ∧ (mqState m).poison = []) ∧
    ((nfFmt 0xB074).map (fun f => f.width) = some 8 ∧ (nfFmt 0x2810).map (fun f => f.width) = some 4) ∧
    (let l : Latch := { size := 1024, bytes := List.replicate 1024 0, desc := some 0x2810 }
     (getCore (modCore demo c0 (fun k => { k with latCur := some l })) c0).latCur = some l ∧ l.bytes.length = (geoOf 3 2 8).bytes) := by
  unfold headCommand tileFree; decide +kernel

/-- SHA-384 of the three bytes of the example of FIPS 180-4. -/
theorem test_sha384 : sha384 [0x61#8, 0x62#8, 0x63#8] =
    0xcb00753f45a35e8bb5a03d699ac65007272c32ab0eded1631a8b605a43ff5bed8086072ba1e7cc2358baeca134c825a7#384 := by decide +kernel

end Sys2Proof.Tests
end

/-! ## Traps leave the registers of the thread as they are (R35, R150, R347, R365) -/

namespace Sys2Proof.Machine

/-- The thread of a slot, if one still stands there, holds the registers r. -/
def slotKeeps (s : State) (c : CoreId) (slot : Nat) (r : Regs) : Prop := ∀ u, getT s c slot = some u → u.regs = r

theorem slotKeeps_of_free {s : State} {c : CoreId} {slot : Nat} (r : Regs) (h : getT s c slot = none) : slotKeeps s c slot r := by
  simp [slotKeeps, h]

theorem slotKeeps_setT (s : State) (c : CoreId) {slot : Nat} (t : Thread) (h : slot < 16) : slotKeeps (setT s c slot (some t)) c slot t.regs := by
  simp [slotKeeps, h]

/-- What changes a core outside its slots leaves its threads. -/
theorem getT_modCore_slots (s : State) (c : CoreId) (slot : Nat) (f : Core → Core) (h : ∀ k, (f k).slots = k.slots) :
    getT (modCore s c f) c slot = getT s c slot := by
  simp [getT, modCore, h]

/-- A slot whose thread has been saved is FREE. -/
theorem getT_vacate (s : State) (c : CoreId) (slot img : Nat) : getT (vacate s c slot img) c slot = none := by
  rw [Option.eq_none_iff_forall_ne_some]
  intro u hu
  have hlt : slot < 16 := getT_lt hu
  simp [getT, vacate, modCore, setSlot, hlt] at hu

/-- Saving a thread frees its slot (R371). -/
theorem getT_saveThread (s : State) (c : CoreId) (slot : Nat) (f : ImgFlags) (a : Nat) : getT (saveThread s c slot f a).1 c slot = none := by
  unfold saveThread
  cases h : getT (completeStarted s c slot) c slot with
  | none => simp only [h]
  | some t => simp only [h, getT_vacate]

/-- A trap that is saved for delivery frees the slot of its thread (R365). -/
theorem getT_saveTrapped (s : State) (c : CoreId) (slot : Nat) (t : Thread) (i : TrapInfo) (a : Nat) (alloc : Option (Nat × Nat)) :
    getT (saveTrapped s c slot t i a alloc).1 c slot = none :=
  getT_saveThread _ c slot _ a

/-- Delivery to privileged software leaves the thread waiting with its registers, or saved. -/
theorem deliverTrap_keeps_regs (s : State) (c : CoreId) {slot : Nat} (t : Thread) (i : TrapInfo) (h : slot < 16) :
    slotKeeps (deliverTrap s c slot t i) c slot t.regs := by
  simp only [deliverTrap]
  split
  case h_1 => exact slotKeeps_setT s c { t with trap := some i, run := .held .trap } h
  case h_2 => exact slotKeeps_of_free _ (getT_saveTrapped ..)

/-- The handler starts with the registers of the thread that trapped (R347). -/
theorem enterHandler_keeps_regs (s : State) (c : CoreId) {slot : Nat} (t : Thread) (vec : Nat) (i : TrapInfo) (h : slot < 16) :
    slotKeeps (enterHandler s c slot t vec i) c slot t.regs :=
  slotKeeps_setT _ c { t with pc := vec, seg := 0, inHandler := true, run := .ready, marker := false, trap := none, woken := none } h

/-- A trap that is entered, by a handler or by delivery or on a fault processor, changes no register. -/
theorem enterTrap_keeps_regs {s : State} {c : CoreId} {slot : Nat} {t : Thread} (i : TrapInfo) (ht : getT s c slot = some t) :
    slotKeeps (enterTrap s c slot i) c slot t.regs := by
  have hlt : slot < 16 := getT_lt ht
  simp only [enterTrap, ht]
  split_ifs
  case pos =>
    rw [slotKeeps, getT_modCore_slots]
    · exact slotKeeps_setT s c { t with trap := some i, run := .held .trap } hlt
    · exact fun _ => rfl
  case pos =>
    cases gridOf s c t with
    | none => simp [slotKeeps, ht]
    | some g => exact enterHandler_keeps_regs _ c t _ i hlt
  case neg => exact deliverTrap_keeps_regs s c t i hlt

/-- TAKING A TRAP CHANGES NO REGISTER of its thread, whether it is entered at once or first waits for results and accesses. -/
theorem takeTrap_keeps_regs {s : State} {c : CoreId} {slot : Nat} {t : Thread} (i : TrapInfo) (ht : getT s c slot = some t) :
    slotKeeps (takeTrap s c slot i) c slot t.regs := by
  have hlt : slot < 16 := getT_lt ht
  simp only [takeTrap, ht]
  split_ifs
  case pos => exact enterTrap_keeps_regs (t := { t with claims := [] }) i (getT_setT s c _ hlt)
  case neg => exact slotKeeps_setT s c { t with trap := some (t.trap.getD i), run := .held .trap, claims := [] } hlt

/-- Settles O4: the frame that every issued instruction runs in checks the allotment before the predicate, and taking a trap changes no register. -/
theorem registerBeyondAllotment : Obligations.RegisterBeyondAllotment := by
  unfold Obligations.RegisterBeyondAllotment
  intro i s t hi hand hf hl ha
  constructor
  · obtain ⟨sw, body, hx⟩ := exec_frame i s hi hf
    have hb : beyond t.allot (usesOf i) = true := by simpa [allotted] using ha
    rw [hx]
    exact issue_beyond body hand hl hb
  · exact takeTrap_keeps_regs _ hand

end Sys2Proof.Machine

/-! ## Comparisons, minimum and maximum on zeros and NaNs (R128) -/

namespace Sys2Proof.Machine

/-- Only a NaN is signalling. -/
theorem FVal.isSNaN_eq_false {v : FVal} (h : v.isNaN = false) : v.isSNaN = false := by
  cases v with
  | nan s n => cases h
  | inf n => rfl
  | fin n m e st => rfl

/-- A zero is a finite value with the integer 0, of either sign and any exponent. -/
theorem FVal.eq_fin_of_isZero {v : FVal} (h : v.isZero = true) : ∃ e, v = .fin v.neg 0 e false := by
  cases v with
  | nan s n => cases h
  | inf n => cases h
  | fin n m e st =>
    obtain ⟨rfl, rfl⟩ : m = 0 ∧ st = false := by simpa [FVal.isZero] using h
    exact ⟨e, rfl⟩

theorem FVal.isNaN_eq_false_of_isZero {v : FVal} (h : v.isZero = true) : v.isNaN = false := by
  obtain ⟨e, hv⟩ := v.eq_fin_of_isZero h
  rw [hv]
  rfl

@[simp] theorem alignTo_zero (neg : Bool) (e g : Int) : alignTo neg 0 e g = 0 := by
  simp [alignTo]

/-- −0 and +0 compare as equal, whatever the exponents they are held with. -/
theorem cmpVal_zeros {a b : FVal} (ha : a.isZero = true) (hb : b.isZero = true) : cmpVal a b = 0 := by
  obtain ⟨e, ha'⟩ := a.eq_fin_of_isZero ha
  obtain ⟨g, hb'⟩ := b.eq_fin_of_isZero hb
  rw [ha', hb']
  simp [cmpVal, FVal.isInf]

section Codes
variable (f : Fmt) {x y : Nat}

/-- With a NaN operand every comparison is false but `un`; the ordered ones set NV for any NaN, the others for a signalling one. -/
theorem fpCompare_of_nan (h : ((decodeFp f x).isNaN || (decodeFp f y).isNaN) = true) :
    let signalling : Flags := { nv := (decodeFp f x).isSNaN || (decodeFp f y).isSNaN }
    fpCompare .eq f x y = (false, signalling) ∧ fpCompare .lt f x y = (false, { nv := true }) ∧
      fpCompare .le f x y = (false, { nv := true }) ∧ fpCompare .un f x y = (true, signalling) := by
  simp only [fpCompare, h, Bool.not_true, Bool.false_and, and_self]

/-- Without a NaN operand a comparison is decided by the order of the values and sets no flag. -/
theorem fpCompare_of_not_nan (hx : (decodeFp f x).isNaN = false) (hy : (decodeFp f y).isNaN = false) :
    let c := cmpVal (decodeFp f x) (decodeFp f y)
    fpCompare .eq f x y = (c == 0, {}) ∧ fpCompare .lt f x y = (decide (c < 0), {}) ∧ fpCompare .le f x y = (decide (c ≤ 0), {}) := by
  simp [fpCompare, hx, hy, FVal.isSNaN_eq_false]

theorem fpCompare_of_zeros (hx : (decodeFp f x).isZero = true) (hy : (decodeFp f y).isZero = true) :
    fpCompare .eq f x y = (true, {}) ∧ fpCompare .lt f x y = (false, {}) ∧ fpCompare .le f x y = (true, {}) := by
  have order := fpCompare_of_not_nan f (FVal.isNaN_eq_false_of_isZero hx) (FVal.isNaN_eq_false_of_isZero hy)
  rwa [cmpVal_zeros hx hy] at order

/-- Two NaN operands give CanonNaN. -/
theorem fpMinMax_of_nan_nan (mx : Bool) (hx : (decodeFp f x).isNaN = true) (hy : (decodeFp f y).isNaN = true) :
    fpMinMax mx f x y = (f.canonNaN, { nv := (decodeFp f x).isSNaN || (decodeFp f y).isSNaN }) := by
  simp [fpMinMax, hx, hy]

/-- One NaN operand gives the other operand. -/
theorem fpMinMax_of_nan_left (mx : Bool) (hx : (decodeFp f x).isNaN = true) (hy : (decodeFp f y).isNaN = false) :
    fpMinMax mx f x y = (y, { nv := (decodeFp f x).isSNaN }) := by
  simp [fpMinMax, hx, hy, FVal.isSNaN_eq_false hy]

theorem fpMinMax_of_nan_right (mx : Bool) (hx : (decodeFp f x).isNaN = false) (hy : (decodeFp f y).isNaN = true) :
    fpMinMax mx f x y = (x, { nv := (decodeFp f y).isSNaN }) := by
  simp [fpMinMax, hx, hy, FVal.isSNaN_eq_false hx]

/-- Between two zeros the signs decide: the first operand is below the second exactly where it is −0 and the second is +0. -/
theorem fpMinMax_of_zeros (mx : Bool) (hx : (decodeFp f x).isZero = true) (hy : (decodeFp f y).isZero = true) :
    fpMinMax mx f x y = (if ((decodeFp f x).neg && !(decodeFp f y).neg) != mx then x else y, {}) := by
  have nx := FVal.isNaN_eq_false_of_isZero hx
  have ny := FVal.isNaN_eq_false_of_isZero hy
  simp [fpMinMax, nx, ny, cmpVal_zeros hx hy, FVal.isSNaN_eq_false]

theorem fpMinMax_negZero_posZero (mx : Bool) (hx : (decodeFp f x).isZero = true) (hy : (decodeFp f y).isZero = true)
    (nx : (decodeFp f x).neg = true) (ny : (decodeFp f y).neg = false) : fpMinMax mx f x y = (if mx then y else x, {}) := by
  cases mx <;> simp [fpMinMax_of_zeros f _ hx hy, nx, ny]

theorem fpMinMax_posZero_negZero (mx : Bool) (hx : (decodeFp f x).isZero = true) (hy : (decodeFp f y).isZero = true)
    (nx : (decodeFp f x).neg = false) (ny : (decodeFp f y).neg = true) : fpMinMax mx f x y = (if mx then x else y, {}) := by
  cases mx <;> simp [fpMinMax_of_zeros f _ hx hy, nx, ny]

end Codes

/-- Settles O8: a NaN operand decides a comparison and passes a minimum or maximum over, two zeros compare as equal, and their signs order them. -/
theorem comparisonSpecials : Obligations.ComparisonSpecials := by
  unfold Obligations.ComparisonSpecials
  intro ff x y f a b
  refine ⟨fpCompare_of_nan f, fun h => ?equal, fun mx h => ?twoNaNs, fun mx => fpMinMax_of_nan_left f mx,
    fun mx => fpMinMax_of_nan_right f mx, fun h ha hb => ?negFirst, fun h ha hb => ?negSecond⟩
  all_goals obtain ⟨hx, hy⟩ := Bool.and_eq_true_iff.mp h
  case equal => exact fpCompare_of_zeros f hx hy
  case twoNaNs => exact fpMinMax_of_nan_nan f mx hx hy
  case negFirst => exact ⟨fpMinMax_negZero_posZero f false hx hy ha hb, fpMinMax_negZero_posZero f true hx hy ha hb⟩
  case negSecond => exact ⟨fpMinMax_posZero_negZero f false hx hy ha hb, fpMinMax_posZero_negZero f true hx hy ha hb⟩

/-! ## Conversion to an integer (R131) -/

/-- The least and the greatest integer of n bits (R131). -/
def intMin (n : Nat) (signed : Bool) : Int := if signed then -2 ^ (n - 1) else 0
def intMax (n : Nat) (signed : Bool) : Int := if signed then 2 ^ (n - 1) - 1 else 2 ^ n - 1

theorem intMin_le_intMax (n : Nat) (signed : Bool) : intMin n signed ≤ intMax n signed := by
  have hn : (0 : Int) < 2 ^ n := by positivity
  have hn' : (0 : Int) < 2 ^ (n - 1) := by positivity
  cases signed with
  | false => simp only [intMin, intMax]; omega
  | true => simp only [intMin, intMax]; omega

theorem satInt_of_lt {k lo : Int} (hi : Int) (h : k < lo) : satInt k lo hi = lo := if_pos h

theorem satInt_of_gt {k lo hi : Int} (hl : lo ≤ hi) (h : hi < k) : satInt k lo hi = hi := by
  rw [satInt, if_neg (by omega), if_pos h]

section Conversion
variable (n : Nat) (signed : Bool) (rm : Rm)

theorem convToInt_nan (s neg : Bool) : convToInt (.nan s neg) n signed rm = (0, { nv := true }) := rfl

theorem convToInt_inf (neg : Bool) :
    convToInt (.inf neg) n signed rm = (if neg then intMin n signed else intMax n signed, { nv := true }) := rfl

/-- A finite value is rounded once; out of range it clamps with NV, in range it keeps the NX of the rounding. -/
theorem convToInt_fin (neg : Bool) (m : Nat) (e : Int) (st : Bool) :
    convToInt (.fin neg m e st) n signed rm =
      let r := roundInt rm (.fin neg m e st)
      if r.1 < intMin n signed || intMax n signed < r.1 then (satInt r.1 (intMin n signed) (intMax n signed), { nv := true })
      else (r.1, { nx := r.2 }) := rfl

section Finite
variable {n signed rm} {neg : Bool} {m : Nat} {e : Int} {st : Bool}

theorem convToInt_below (h : (roundInt rm (.fin neg m e st)).1 < intMin n signed) :
    convToInt (.fin neg m e st) n signed rm = (intMin n signed, { nv := true }) := by
  simp [convToInt_fin, h, satInt_of_lt]

theorem convToInt_above (h : intMax n signed < (roundInt rm (.fin neg m e st)).1) :
    convToInt (.fin neg m e st) n signed rm = (intMax n signed, { nv := true }) := by
  simp [convToInt_fin, h, satInt_of_gt (intMin_le_intMax n signed)]

theorem convToInt_inRange (hl : intMin n signed ≤ (roundInt rm (.fin neg m e st)).1) (hh : (roundInt rm (.fin neg m e st)).1 ≤ intMax n signed) :
    convToInt (.fin neg m e st) n signed rm = ((roundInt rm (.fin neg m e st)).1, { nx := (roundInt rm (.fin neg m e st)).2 }) := by
  simp [convToInt_fin, hl.not_gt, hh.not_gt]

end Finite
end Conversion

/-- Settles O9: NaN and infinities by their own case, a finite value by where its rounded integer stands to the limits of n bits. -/
theorem conversionToIntegers : Obligations.ConversionToIntegers := by
  unfold Obligations.ConversionToIntegers
  intro n signed rm _ lo hi
  exact ⟨convToInt_nan n signed rm, convToInt_inf n signed rm false, convToInt_inf n signed rm true,
    fun neg m e => ⟨convToInt_below, convToInt_above, convToInt_inRange⟩⟩

end Sys2Proof.Machine

/-! ## The seventeen integer instructions (R171, R173, R174, R181) -/

namespace Sys2Proof.Machine

/-! ### R171: the model's sources and result, as the statements write them -/

theorem wBits_pos (wd : Width) : 0 < wBits wd := by
  cases wd <;> decide

theorem uOf_eq_uns (wd : Width) (x : Dword) : uOf wd x = uns (wBits wd) x :=
  (BitVec.toNat_setWidth _ x).symm

/-- Two's complement of n bits is the signed reading of a bit vector. -/
theorem toSigned_toNat {n : Nat} (hn : 0 < n) (b : BitVec n) : toSigned n b.toNat = b.toInt := by
  obtain ⟨k, rfl⟩ : ∃ k, n = k + 1 := ⟨n - 1, by omega⟩
  have hp : 2 ^ (k + 1) = 2 * 2 ^ k := Nat.pow_succ'
  rw [toSigned, BitVec.toInt_eq_toNat_cond, Nat.add_sub_cancel, hp]
  push_cast [hp]
  split_ifs <;> omega

theorem toSigned_uOf (wd : Width) (x : Dword) : toSigned (wBits wd) (uOf wd x) = sgn (wBits wd) x := by
  rw [uOf_eq_uns, uns, toSigned_toNat (wBits_pos wd), sgn]

theorem sOf_eq_sgn (wd : Width) (x : Dword) : sOf wd x = sgn (wBits wd) x := toSigned_uOf wd x

theorem wOut_eq_back (wd : Width) (r : Int) : wOut wd r = back (wBits wd) r := by
  cases wd with
  | d => exact (BitVec.signExtend_eq _).symm
  | w => rfl

theorem uns_lt (n : Nat) (x : Dword) : uns n x < 2 ^ n := (x.setWidth n).isLt

/-- Saturation, as the nearest value between its bounds. -/
theorem satInt_eq_max_min {lo hi : Int} (h : lo ≤ hi) (k : Int) : satInt k lo hi = max lo (min hi k) := by
  unfold satInt
  split_ifs <;> omega

/-! ### The result of each operation before R171 writes it -/

/-- The model's operation writes the result f at every width and raises no flag. -/
def Computes (op : AluOp) (f : Nat → Dword → Dword → Int) : Prop :=
  ∀ wd x y, aluRes op wd x y = (back (wBits wd) (f (wBits wd) x y), {})

/-- An operation that hands R171 the result f computes f. -/
theorem computes_of_wOut {op : AluOp} {f : Nat → Dword → Dword → Int} {r : Width → Dword → Dword → Int}
    (hop : ∀ wd x y, aluRes op wd x y = (wOut wd (r wd x y), {})) (hr : ∀ wd x y, r wd x y = f (wBits wd) x y) : Computes op f := by
  intro wd x y
  rw [hop, hr, wOut_eq_back]

theorem computes_add : Computes .add (fun n x y => sgn n x + sgn n y) :=
  computes_of_wOut (fun _ _ _ => rfl) (fun _ _ _ => by rw [sOf_eq_sgn, sOf_eq_sgn])

theorem computes_sub : Computes .sub (fun n x y => sgn n x - sgn n y) :=
  computes_of_wOut (fun _ _ _ => rfl) (fun _ _ _ => by rw [sOf_eq_sgn, sOf_eq_sgn])

theorem computes_mul : Computes .mul (fun n x y => sgn n x * sgn n y) :=
  computes_of_wOut (fun _ _ _ => rfl) (fun _ _ _ => by rw [sOf_eq_sgn, sOf_eq_sgn])

theorem computes_and : Computes .and (fun _ x y => (x &&& y).toNat) :=
  computes_of_wOut (fun _ _ _ => rfl) (fun _ _ _ => rfl)

theorem computes_or : Computes .or (fun _ x y => (x ||| y).toNat) :=
  computes_of_wOut (fun _ _ _ => rfl) (fun _ _ _ => rfl)

theorem computes_xor : Computes .xor (fun _ x y => (x ^^^ y).toNat) :=
  computes_of_wOut (fun _ _ _ => rfl) (fun _ _ _ => rfl)

/-- R174: the amount is the whole second source, and an amount of the width or more shifts every bit out. -/
theorem computes_shl : Computes .shl (fun n x y => if y.toNat < n then (uns n x * 2 ^ y.toNat % 2 ^ n : Nat) else 0) :=
  computes_of_wOut (fun _ _ _ => rfl) (fun _ _ _ => by rw [uOf_eq_uns, shlN, Nat.cast_ite, Nat.cast_zero])

theorem computes_shr : Computes .shr (fun n x y => if y.toNat < n then (uns n x / 2 ^ y.toNat : Nat) else 0) :=
  computes_of_wOut (fun _ _ _ => rfl) (fun _ _ _ => by rw [uOf_eq_uns, shrN, Nat.cast_ite, Nat.cast_zero])

theorem computes_sar :
    Computes .sar (fun n x y => if y.toNat < n then sgn n x / 2 ^ y.toNat else if 0 ≤ sgn n x then 0 else -1) :=
  computes_of_wOut (fun _ _ _ => rfl) (fun _ _ _ => by simp only [sarN, toSigned_uOf, ← not_le, ite_not])

theorem computes_min : Computes .min (fun n x y => if sgn n x ≤ sgn n y then sgn n x else sgn n y) :=
  computes_of_wOut (fun _ _ _ => rfl) (fun _ _ _ => by simp only [sOf_eq_sgn, ← not_le, ite_not])

theorem computes_max : Computes .max (fun n x y => if sgn n x ≤ sgn n y then sgn n y else sgn n x) :=
  computes_of_wOut (fun _ _ _ => rfl) (fun _ _ _ => by rw [sOf_eq_sgn, sOf_eq_sgn]; split_ifs <;> omega)

theorem computes_minu : Computes .minu (fun n x y => if uns n x ≤ uns n y then uns n x else uns n y) :=
  computes_of_wOut (fun _ _ _ => rfl) (fun _ _ _ => by simp only [uOf_eq_uns, ← not_le, ite_not])

theorem computes_maxu : Computes .maxu (fun n x y => if uns n x ≤ uns n y then uns n y else uns n x) :=
  computes_of_wOut (fun _ _ _ => rfl) (fun _ _ _ => by rw [uOf_eq_uns, uOf_eq_uns]; split_ifs <;> omega)

theorem computes_addsat :
    Computes .addsat (fun n x y => max (-2 ^ (n - 1)) (min (2 ^ (n - 1) - 1) (sgn n x + sgn n y))) :=
  computes_of_wOut (fun _ _ _ => rfl)
    (fun wd x y => by rw [sOf_eq_sgn, sOf_eq_sgn]; exact satInt_eq_max_min (intMin_le_intMax (wBits wd) true) _)

theorem computes_subsat :
    Computes .subsat (fun n x y => max (-2 ^ (n - 1)) (min (2 ^ (n - 1) - 1) (sgn n x - sgn n y))) :=
  computes_of_wOut (fun _ _ _ => rfl)
    (fun wd x y => by rw [sOf_eq_sgn, sOf_eq_sgn]; exact satInt_eq_max_min (intMin_le_intMax (wBits wd) true) _)

/-- An unsigned sum is never below 0, so only the upper bound clamps it. -/
theorem computes_addsatu : Computes .addsatu (fun n x y => min (2 ^ n - 1) ((uns n x : Int) + uns n y)) :=
  computes_of_wOut (fun _ _ _ => rfl) (fun wd x y => by
    have bounds : (0 : Int) ≤ 2 ^ wBits wd - 1 := intMin_le_intMax (wBits wd) false
    rw [uOf_eq_uns, uOf_eq_uns, satInt_eq_max_min bounds]
    omega)

/-- An unsigned difference is never above its first source, so only the lower bound clamps it. -/
theorem computes_subsatu : Computes .subsatu (fun n x y => max 0 ((uns n x : Int) - uns n y)) :=
  computes_of_wOut (fun _ _ _ => rfl) (fun wd x y => by
    have bounds : (0 : Int) ≤ 2 ^ wBits wd - 1 := intMin_le_intMax (wBits wd) false
    have fits : (uns (wBits wd) x : Int) < 2 ^ wBits wd := by exact_mod_cast uns_lt (wBits wd) x
    rw [uOf_eq_uns, uOf_eq_uns, satInt_eq_max_min bounds]
    omega)

/-! ### From the operation to the instruction -/

/-- The instruction i is the model's operation op: it runs as `aluIssue` does, with its governing predicate and its marker in its fields. -/
structure Performs (i : AluOps → Instr) (op : AluOp) : Prop where
  exec_eq : ∀ o s, exec (i o) s = aluIssue op o s
  uses_eq : ∀ o, usesOf (i o) = usesAlu o
  pre_eq : ∀ o, preOf (i o) = o.pre
  marker_eq : ∀ t o, markerOf t (i o) = o.pre.sw

/-- A second source is read from the context as the statements read it (R144). -/
theorem srcVal_ctxOf (s : State) (t : Thread) (i : Instr) (n : Nat) (y : Src) : srcVal (ctxOf s t i) n y = sourceAt s t i n y := by
  cases y <;> rfl

/-- A result without flags only writes its register. -/
theorem setG_no_flags (s : State) (k : Ctx) (rd : GReg) (r : Dword) : setG s k rd (r, {}) = .ok (k.upd s (fun t => writeG t rd r)) := by
  simp only [setG, addFlags_none]

/-- A READY INTEGER INSTRUCTION COMPLETES: its destination takes the result of its operation, and it retires. -/
theorem exec_of_performs {i : AluOps → Instr} {op : AluOp} {f : Nat → Dword → Dword → Int} (hi : Performs i op) (hf : Computes op f)
    {o : AluOps} {s : State} {t : Thread} (h : Ready s t (i o)) :
    exec (i o) s = .next (retired s t (i o) (fun u => writeG u o.rd
      (back (wBits o.w) (f (wBits o.w) (operand s t (i o) 0) (sourceAt s t (i o) 1 o.y))))) := by
  have frame : exec (i o) s = issue s o.pre (usesOf (i o)) (fun s k => setG s k o.rd (aluRes op o.w (k.val 0) (srcVal k 1 o.y))) := by
    rw [hi.exec_eq, hi.uses_eq]
    rfl
  refine exec_retired h _ frame (by rw [hi.pre_eq]) (by rw [hi.pre_eq]) (hi.marker_eq t o).symm ?body
  rw [srcVal_ctxOf, hf, setG_no_flags]
  rfl

/-- Each row of the table is an operation of the model, with the result that the table gives. -/
theorem aluRows_perform_and_compute : ∀ row ∈ aluRows, ∃ op, Performs row.1 op ∧ Computes op row.2 := by
  simp only [aluRows, List.forall_mem_cons]
  refine ⟨⟨_, ?_, computes_add⟩, ⟨_, ?_, computes_sub⟩, ⟨_, ?_, computes_and⟩, ⟨_, ?_, computes_or⟩, ⟨_, ?_, computes_xor⟩,
    ⟨_, ?_, computes_shl⟩, ⟨_, ?_, computes_shr⟩, ⟨_, ?_, computes_sar⟩, ⟨_, ?_, computes_mul⟩,
    ⟨_, ?_, computes_min⟩, ⟨_, ?_, computes_max⟩, ⟨_, ?_, computes_minu⟩, ⟨_, ?_, computes_maxu⟩,
    ⟨_, ?_, computes_addsat⟩, ⟨_, ?_, computes_subsat⟩, ⟨_, ?_, computes_addsatu⟩, ⟨_, ?_, computes_subsatu⟩, List.forall_mem_nil _⟩
  all_goals exact ⟨fun _ _ => rfl, fun _ => rfl, fun _ => rfl, fun _ _ => rfl⟩

/-- Settles O1: each row performs an operation of the model, and a ready instruction that performs an operation retires with its result. -/
theorem integerArithmetic : Obligations.IntegerArithmetic := by
  unfold Obligations.IntegerArithmetic
  intro row hrow o s t h
  obtain ⟨op, performs, computes⟩ := aluRows_perform_and_compute row hrow
  exact exec_of_performs performs computes h

end Sys2Proof.Machine
